-- ==== Sys2Proof/Word.lean ====
section
/-! DEFINITION. The words of the MV640: bytes, 32-bit register and data words, 64-bit directive words, the cell's 18-bit scalars
and 80-bit accumulators, and audio samples (R14, R93, R256). -/
namespace Sys2Proof

abbrev Byte := BitVec 8
abbrev Word := BitVec 32
/-- A 64-bit word of a ring entry, directive, descriptor or record (R505). -/
abbrev Word64 := BitVec 64
/-- A cell's scalar register: A, B, L and M of Table 3.1. -/
abbrev Scalar := BitVec 18
/-- A cell accumulator, Q18.62 (R94). -/
abbrev Acc80 := BitVec 80
/-- An audio sample, Q1.31 (R14). -/
abbrev Sample := BitVec 32

/-- Bits [hi:lo] of a word as a number. -/
def bits (w : Word64) (hi lo : Nat) : Nat := (w.toNat / 2 ^ lo) % 2 ^ (hi - lo + 1)

/-- Bit `i` of a word. -/
def bit (w : Word64) (i : Nat) : Bool := bits w i i == 1

/-- The signed value of an `n`-bit field. -/
def signed (n v : Nat) : Int := if v % 2 ^ n < 2 ^ (n - 1) then (v % 2 ^ n : Nat) else (v % 2 ^ n : Nat) - (2 ^ n : Nat)

end Sys2Proof
end

