-- ==== Sys2Proof/Config.lean ====
section
/-! DEFINITION. What one device fixes (fuses) and the free values: constants with no body, so that a claim holds whatever they are.
Each is named in an entry of notes/assumptions. -/
namespace Sys2Proof

/-- The two grades of Table 0.1 (R5). -/
inductive Grade where
  | C | E
  deriving DecidableEq, Repr, Inhabited

/-- `SYS_ID.GRADE` (Table 1.10). -/
def Grade.code : Grade → Nat
  | .C => 1
  | .E => 2

/-- The highest junction temperature of the grade in °C (Table 0.1). -/
def Grade.maxTj : Grade → Int
  | .C => 100
  | .E => 110

/-- Fused: `SYS_ID.STEP` (Table 1.10). -/
opaque Config.stepping : BitVec 8
/-- Fused: the grade (Table 1.10). -/
opaque Config.grade : Grade
/-- Fused: the 64-bit serial number of `FAB_SERIAL_LO` and `_HI` (R376, Table 12.6). -/
opaque Config.serial : BitVec 64
/-- The PCIe vendor ID of the function (R454 gives the device ID only). -/
opaque Config.vendorId : BitVec 16
/-- Fused: `SYS_FUSE` (Table 15.12). -/
opaque Config.cellSign : Bool
/-- Fused: `SYS_FUSE.DBGLOCK`. -/
opaque Config.dbgLock : Bool
/-- Fused: `SYS_FUSE.KEY1REV`. -/
opaque Config.key1Revoked : Bool
/-- Fused: `SYS_FUSE.SVNMIN` as the device was made. -/
opaque Config.svnMin : BitVec 16

/-- A free value: the `n`-th value the manual leaves open, read at the counter `Engine.free`, which the reader advances. -/
opaque Config.freeValue : Nat → BitVec 64

/-- What makes the undocumented words of the conversions of R133: step (LDB0 to LDB2 are 0 to 2, DBL0 to DBL2 are 4 to 6), round, and the half
of the word that the round reads. -/
opaque Config.convRound : Nat → Nat → BitVec 16 → BitVec 16
/-- A free non-decreasing function, by the value at each place of the binary tree over its inputs (R133): kind of result, and place. -/
opaque Config.monoSplit : Nat → Nat → Int
/-- Where in its accuracy band a bounded result lies ( R187, R216, R221, R228): a fixed function of the kind of result and its input. -/
opaque Config.bandOffset : Nat → Int → Int → Int
/-- The maximal-length sequence of the noise generators (R244 gives no polynomial), by place in its period of 2^31 − 1, and the place at which a
SEED starts it. -/
opaque Config.mls : Nat → Bool
opaque Config.seedPlace : Nat → Nat
/-- The pink noise of full-scale RMS by SEED and samples since it started, Q31 (R244 gives no filter). -/
opaque Config.pink : Nat → Nat → Int
/-- The coefficients of a fixed-ratio bridge (R203 gives their limits and not their values), as Q1.31 numbers: bridge kind, and place in the first
half of the symmetric prototype filter. -/
opaque Config.bridgeTap : Nat → Nat → Int
/-- The coefficients of an ASRC channel in the same form (R204): octave stage, core ratio, output position of the channel, and how many input
samples back. -/
opaque Config.asrcTap : Nat → Nat → Nat → Nat → Int
/-- The coefficients of a PDM decimator (Table 9.4 gives its limits): ratio, minimum phase, and how many bits back. -/
opaque Config.pdmTap : Nat → Bool → Nat → Int
/-- The corner of the high-pass filter behind it (R292), in mHz by the house rate: within 4 Hz ± 0.4 Hz. -/
opaque Config.dcCorner : Nat → Nat
/-- What no record gives of a frame that carries a media packet (R344): the destination MAC of a unicast IP address, and the other header values by
kind and packet number: 0 identification and 1 fragment word of IPv4, 2 time to live or hop limit, 3 flow label, 4 whether UDP over IPv4 carries
a checksum (1) or 0. -/
opaque Config.macOf : Nat → Nat
opaque Config.ipHeader : Nat → Nat → Nat
/-- The fixed SECDED syndrome of a word in error (Table 3.11, Table 14.14 record it; the manual gives no code). -/
opaque Config.syndrome : Nat → BitVec 9

/-- The strip outputs that the program of a cell or DMA item delivers, by the four words of its descriptor and its index (R76, R152 name no
field that says so). -/
opaque Config.itemSignals : BitVec 64 → BitVec 64 → BitVec 64 → BitVec 64 → Nat → List Nat

/-- The text in which the UART sends an entry of the always-on log (R467 gives no form), by the entry's bytes. -/
opaque Config.logText : List Byte → List Byte

/-- The SHA-384 hash of a program's bytes (R470), which the manual names and does not define. -/
opaque Config.sha384 : List Byte → Nat

end Sys2Proof
end

