-- ==== Sys2Proof/Syntax.lean ====
section
/-! DEFINITION. The commands of the MV640: one constructor for each row of the table of operations and events, with the operands that
the row does not itself fix. The docstring of a constructor gives its mnemonic and its rule. -/
namespace Sys2Proof

/-- A directive as a ring's program carries it (R256): the ring, the header's tag and flags, and the payload words that follow. -/
structure Dir where
  ring : Nat
  tag : Nat
  flags : Nat
  words : List Word64
  deriving DecidableEq, Repr

/-- A path of a transmit stream: 0 is ETH0's, 1 ETH1's (R349). -/
structure StreamPath where
  stream : Nat
  path : Nat
  deriving DecidableEq, Repr

/-- The slot whose image boot ends with, A or B, and whether the other slot's image was rejected before it (R469). -/
structure BootSlot where
  isB : Bool
  retried : Bool
  deriving DecidableEq, Repr

/-- What boot finds about the board: the regulator answers VOUT_MODE with the linear format (R464), and the boot configuration enables the
UART (R467). -/
structure BootBoard where
  linear : Bool
  uart : Bool
  deriving DecidableEq, Repr

/-- The fields of an Announce that the best-master choice reads (R358). -/
structure Announce where
  prio1 : Nat
  cls : Nat
  acc : Nat
  var : Nat
  prio2 : Nat
  gm : Nat
  steps : Nat
  deriving DecidableEq, Repr

/-- A hello message (R376). -/
structure Hello where
  serial : Nat
  rprio : Nat
  fid : Nat
  rate : Nat
  pull : Nat
  flog : Nat
  link : Nat
  deriving DecidableEq, Repr

/-- A sync block set (R375): the fabric frame number and PTP time of the tick, the sender's OUTQL, address and serial number, the root's
serial number, priority and generation, the time master, and the cable delay that its timestamps measure, in 0.1 ns before ASYM. -/
structure SyncSet where
  frame : Nat
  time : Nat
  outql : Nat
  addr : Nat
  serial : Nat
  rootSerial : Nat
  rootPrio : Nat
  gen : Nat
  tm : Nat
  dly : Nat
  deriving DecidableEq, Repr

/-- An isochronous block (R374): channel, low 16 bits of the origin frame, F samples, and whether its CRC-32 checks. -/
structure IsoBlock where
  ch : Nat
  origin : Nat
  samples : List Int
  crcOk : Bool
  deriving DecidableEq, Repr

/-- What a reliable message of the modelled subsystems carries: the installation or release of a slot of a link's receive direction as a
receive channel (channel, sender, L_p, protected) or as a forwarding entry (R381); a node's part in a fabric-wide change (R280); a
directive that the pair's active forwards, with its apply frame, and a scene that it has stored (R414); other control. -/
inductive MsgBody where
  | mapRx (link ch r src lp : Nat) (prot : Bool)
  | mapFwd (link ch outLink outCh : Nat)
  | unmap (link ch : Nat)
  | prepare (id p : Nat)
  | prepared (id status : Nat)
  | allPrepared (id : Nat)
  | abort (id : Nat)
  | lateApply (id k : Nat)
  | ask (id : Nat)
  | outcome (id : Nat) (applied : Bool)
  | replicate (op : Nat) (d : Dir) (apply : Nat)
  | scene (n : Nat) (parts : List (Nat × Dir)) (writes bytes frame : Nat)
  /-- The active passes a RESYNC of the pair to its peer (R419). -/
  | resync
  | other
  deriving DecidableEq, Repr

/-- A reliable control message (R375). -/
structure RelMsg where
  origin : Nat
  dest : Nat
  seq : Nat
  body : MsgBody
  deriving DecidableEq, Repr

/-- A node that takes part in an election (R377–R379); `addr` is the address that it holds already. -/
structure NodeInfo where
  serial : Nat
  rprio : Nat
  tmprio : Nat
  tmcand : Bool
  pref : Option Nat
  addr : Option Nat
  deriving DecidableEq, Repr

/-- An entry of a route table (R380). -/
structure RouteRow where
  dest : Nat
  plink : Nat
  phops : Nat
  alt : Option (Nat × Nat)
  deriving DecidableEq, Repr

/-- A heartbeat block (Table 13.4); `rec1` and `rec0` are the fault records of frames n − 1 and n. -/
structure Heartbeat where
  seq : Nat
  role : Nat
  pstate : Nat
  mode : Nat
  ltok : Bool
  epoch : Nat
  rec1 : Bool
  rec0 : Bool
  crcs : List (Nat × Nat)
  hand : Nat
  deriving DecidableEq, Repr

/-- An item of a loader or an epoch: region, and the bytes of its pair state area (R422). -/
structure EpochPart where
  region : Nat
  bytes : List Byte
  deriving DecidableEq, Repr

/-- A request of a master to the crossbar (R428–R434): its engine address, whether it writes, the bytes written or the length read, and the
clocks that it has waited. -/
structure XWant where
  m : Nat
  id : Nat
  wr : Bool
  addr : Nat
  len : Nat
  data : List Byte
  waited : Nat
  deriving DecidableEq, Repr
/-- The commands. -/
inductive Instr where
  /-- `FIRST_DISPATCH` (R157). Four microseconds after the tick the released items become dispatchable. -/
  | firstDispatch (t : Nat)
  /-- `ITEM_COMPLETION` (R158). On completion of an item the scheduler walks its successor chain and decrements counters. -/
  | itemCompletion (item : Nat) (t : Nat) (out : List (Nat × List Int))
  /-- `DISPATCH` (R163). The scheduler pairs ready items with idle executors of their partition in key order. -/
  | dispatch (t : Nat)
  /-- `FED_ITEM_START` (R159). A held cell starts its fed item once every feeder has completed. -/
  | fedItemStart (cell : Nat) (t : Nat)
  /-- `ITEM_START` (R83). A cell resets both register banks, reads the program header and issues the item's first bundle. -/
  | itemStart (cell : Nat) (t : Nat)
  /-- `BUNDLE_ISSUE` (R122). A cell issues one 128-bit bundle whose five slot operations read their sources together. -/
  | bundleIssue (cell : Nat) (t : Nat)
  /-- `RESULT_VISIBLE` (R101). An operation's result becomes visible in its register at its fixed latency. -/
  | resultVisible (cell : Nat)
  /-- `STORE_COMMIT` (R101). A store issued two bundles earlier commits to data memory. -/
  | storeCommit (cell : Nat)
  /-- `LOOP_CLOSE` (R144). When LC reaches 0 the loop level closes and the bundle after the body issues. -/
  | loopClose (cell : Nat)
  /-- `ECC_DOUBLE_BIT_INTERRUPT` (R106). An uncorrectable slot load aborts the item before the bundle in which its result would
  land. -/
  | eccDoubleBitInterrupt (cell : Nat) (t : Nat)
  /-- `ARITHMETIC_TRAP` (R100). With TRAPEN set, a flag going from 0 to 1 aborts the item before the next bundle. -/
  | arithmeticTrap (cell : Nat) (t : Nat)
  /-- `BUDGET_OVERRUN` (R114). The bundle counter reaching its limit aborts the item. -/
  | budgetOverrun (cell : Nat) (t : Nat)
  /-- `DEBUG_BREAK` (R106). A debug break enters the declared handler and returns afterwards. -/
  | debugBreak (cell : Nat)
  /-- `HOST_DEBUG_REQUEST` (R149). A host debug request breaks a cell that has debug enabled and a declared handler. -/
  | hostDebugRequest (cell : Nat)
  /-- `HANDLER_END` (R110). An aborting handler ends at its 16th bundle or when the count reaches the budget. -/
  | handlerEnd (cell : Nat) (t : Nat)
  /-- `RETI_BANK_SWITCH` (R109). After the RETI delay and minimum handler length the bank switch takes effect. -/
  | retiBankSwitch (cell : Nat) (t : Nat)
  /-- `HANDSHAKE_TIMEOUT` (R38). A handshake not completed within 256 FX cycles fences the cell at once. -/
  | handshakeTimeout (cell : Nat) (t : Nat)
  /-- `DMA_CELL_ACCESS` (R86). The DMA port takes a free bank cycle for an aligned 16-byte access to cell memory. -/
  | dmaCellAccess (cell : Nat) (off : Nat) (wr : Bool) (data : List Byte) (len : Nat)
  /-- `CELL_SCRUB` (R92). The patrol scrubber reads and repairs cell memory words and counts stuck words. -/
  | cellScrub (cell : Nat) (off : Nat) (t : Nat)
  /-- `ERROR_WINDOW_ROLL` (R117). At each second or hour window boundary error counts are evaluated against fencing thresholds. -/
  | errorWindowRoll (hour : Bool)
  /-- `ROTATING_SELF_TEST` (R116). Each interval the supervisor self-tests one cell in no partition. -/
  | rotatingSelfTest (cell : Nat)
  /-- `EXECUTOR_STALL_FENCE` (R27). A summing unit or DMA channel that runs an item past four times its item time is fenced at
  once. -/
  | executorStallFence (dma : Bool) (unit : Nat) (t : Nat)
  /-- `EXECUTOR_ERROR_RESPONSE` (R171). An error response or poisoned read aborts a non-cell item. -/
  | executorErrorResponse (item : Nat) (t : Nat)
  /-- `PACE_MONITOR_SAMPLE` (R69). Each pace monitor samples its replica path and reports its mean. -/
  | paceMonitorSample (region : Nat) (mon : Nat) (val : Nat)
  /-- `PMBUS_WRITE_COMPLETE` (R71). A PMBus write ends acknowledged or not; three unacknowledged writes raise the AVS fault. -/
  | pmbusWriteComplete (ack : Bool)
  /-- `LOCKSTEP_MISMATCH` (R42). The supervisor cores disagree; the supervisor halts, logs and restarts. -/
  | lockstepMismatch (within10s : Bool)
  /-- `ZERO_CROSSING_CUT` (R186). A sink in ZCWAIT takes the new source at the old source's zero crossing. -/
  | zeroCrossingCut (sink : Nat) (k : Nat)
  /-- `ZC_TIMEOUT` (R186). No crossing within the timeout starts a 32-sample linear crossfade. -/
  | zcTimeout (sink : Nat) (k : Nat)
  /-- `FADE_END` (R187). A fade reaching its last position returns the sink to STEADY or starts the pending request. -/
  | fadeEnd (sink : Nat) (k : Nat)
  /-- `FALLBACK_RETURN` (R192). A lost fallback free of loss for the hold time fades back in. -/
  | fallbackReturn (sink : Nat)
  /-- `REVERSION` (R193). With REVERT set, a recovered current source free for the hold time is crossfaded back. -/
  | reversion (sink : Nat)
  /-- `ASRC_LOCK` (R205). A ratio steady for 20 ms locks the ASRC channel with a fade-in. -/
  | asrcLock (ch : Nat) (ratio : Nat)
  /-- `ASRC_UNLOCK` (R205). Clock loss or a 1000 ppm ratio change unlocks the channel, fades it out and declares its output
  lost. -/
  | asrcUnlock (ch : Nat)
  /-- `ASRC_RANGE` (R205). A measured ratio outside 0.25–4.0 puts the channel in RANGE. -/
  | asrcRange (ch : Nat) (ratio : Nat)
  /-- `GAIN_ZERO_CROSSING_STEP` (R224). A gain point in ZCWAIT steps to its target at a zero crossing. -/
  | gainZeroCrossingStep (gp : Nat) (k : Nat)
  /-- `GAIN_TIMEOUT` (R224). A gain point without a crossing within its timeout starts a ramp. -/
  | gainTimeout (gp : Nat) (k : Nat)
  /-- `RAMP_END` (R224). A finished ramp returns to STEADY or waits for a held NEXT target. -/
  | rampEnd (gp : Nat) (k : Nat)
  /-- `LOUDNESS_STEP` (R232). Every 100 ms the supervisor gates and forms the loudness measures, applying pending resets;
  here of the meters whose step ends. -/
  | loudnessStep (meters : List Nat)
  /-- `AUTOMIX_UPDATE` (R237). Every 1 ms the supervisor forms automix factors and writes member activity words; here of the groups
  whose turn falls due. -/
  | automixUpdate (groups : List Nat)
  /-- `DUCK_HOLD_EXPIRY` (R241). A duck rule becomes inactive when its hold after the last loud frame expires. -/
  | duckHoldExpiry (rule : Nat)
  /-- `NOP` (R259). The no-operation directive completes with RESULT 0. -/
  | nop (d : Dir)
  /-- `FENCE` (R259). Waits until earlier directives of its ring, or all rings, have applied and finished their fades. -/
  | fence (d : Dir)
  /-- `FENCE_COMPLETE` (R259). The fence's condition holds and it completes with the frame number. -/
  | fenceComplete (ring : Nat)
  /-- `QUERY` (R260). Writes the requested records to the host buffer and completes with the byte count. -/
  | query (d : Dir)
  /-- `RESET_FN` (R476). Re-initialises one function, which keeps others passing audio. -/
  | resetFn (d : Dir)
  /-- `RESET_FN_COMPLETE` (R476). The function resumes or fails and the completion and event 0x0B02 are posted. -/
  | resetFnComplete (fn : Nat) (idx : Nat) (ok : Bool)
  /-- `TXN_OPEN` (R270). Opens a transaction on the ring and takes a staging slot. -/
  | txnOpen (d : Dir)
  /-- `STAGING` (R270). A directive on a ring with an open transaction is checked and staged without applying. -/
  | staging (op : Nat) (d : Dir)
  /-- `TXN_COMMIT` (R271). Closes the transaction and starts its validation against an apply point. -/
  | txnCommit (d : Dir)
  /-- `TXN_ACKNOWLEDGE` (R273). Validation ends and the commit is acknowledged with its apply frame, or refused. -/
  | txnAcknowledge (ring : Nat)
  /-- `TXN_ABORT` (R276). Ends the open transaction of its ring and frees the slot. -/
  | txnAbort (d : Dir)
  /-- `TRANSACTION_IDLE_ABANDON` (R276). An open transaction idle for IDLE is abandoned. -/
  | transactionIdleAbandon (ring : Nat)
  /-- `LOAD_PROG` (R262). Writes bundles into program memory of every healthy cell of the named blocks. -/
  | loadProg (d : Dir)
  /-- `DEF_ITEM` (R154). Writes or removes descriptors and transfer entries in the edit graph after checks. -/
  | defItem (d : Dir)
  /-- `LINK` (R262). Writes successor entries of the edit graph. -/
  | link (d : Dir)
  /-- `ADMIT` (R261). Tests the edit graph and, when accepted and not dry, replaces the admitted graph at its apply frame. -/
  | admitGraph (d : Dir)
  /-- `ADMISSION_RESULT` (R263). The admission run ends and writes its result buffer and ledger. -/
  | admissionResult (ring : Nat)
  /-- `ROUTE` (R264). Requests a route change of a sink in a given mode and length. -/
  | route (d : Dir)
  /-- `FALLBACK` (R508). Sets a sink's fallback source, revert bit and concealment count. -/
  | fallback (d : Dir)
  /-- `ALIGN` (R264). Sets a bus's alignment mode for the next accepted admission. -/
  | align (d : Dir)
  /-- `SET_GAIN` (R265). Writes a linear host target, binding, timeout and ramp of a gain point. -/
  | setGain (d : Dir)
  /-- `SET_GAIN_DB` (R265). Writes a gain point's host target in hundredths of a dB. -/
  | setGainDb (d : Dir)
  /-- `SET_SEND` (R266). Writes, appends, deletes or truncates send entries, live or in the edit graph. -/
  | setSend (d : Dir)
  /-- `WRITE_PARAM` (R268). Writes data into a parameter area's inactive half or into cell memory for the apply frame. -/
  | writeParam (d : Dir)
  /-- `PARAMETER_MIRROR_END` (R268). The mirror of written data into the new inactive half completes. -/
  | parameterMirrorEnd (region : Nat)
  /-- `PORT_CFG` (R310). Writes a port's configuration register, applying at its apply frame. -/
  | portCfg (d : Dir)
  /-- `GROUP_START` (R311). Arms an alignment group to start on a frame, PTP or START_SYNC trigger. -/
  | groupStart (d : Dir)
  /-- `GROUP_STOP` (R311). Names the stop frame of an alignment group. -/
  | groupStop (d : Dir)
  /-- `REF_CFG` (R337). Writes a reference slot or a clock configuration register. -/
  | refCfg (d : Dir)
  /-- `REF_PRIO` (R338). Writes a slot's priority and provisioned QL. -/
  | refPrio (d : Dir)
  /-- `STREAM_TX` (R366). Creates, changes or removes a transmit media stream. -/
  | streamTx (d : Dir)
  /-- `STREAM_RX` (R366). Creates, changes or removes a receive media stream. -/
  | streamRx (d : Dir)
  /-- `PTP_CFG_INSTANCE` (R367). Configures a PTP instance. -/
  | ptpCfgInstance (d : Dir)
  /-- `PTP_CFG_TIME` (R367). Sets the local clock in FREE as a step. -/
  | ptpCfgTime (d : Dir)
  /-- `PTP_CFG_SERVO` (R367). Sets servo slew and MAPLIM. -/
  | ptpCfgServo (d : Dir)
  /-- `PTP_CFG_REMAP` (R367). Rewrites the media-to-PTP mapping as a step of 0. -/
  | ptpCfgRemap (d : Dir)
  /-- `PTP_CFG_LATENCY` (R367). Sets an instance's ingress and egress corrections. -/
  | ptpCfgLatency (d : Dir)
  /-- `PTP_CFG_PULSE` (R367). Arms a pulse channel's start, width and period. -/
  | ptpCfgPulse (d : Dir)
  /-- `FAB_CFG_NODE` (R393). Sets the node's fabric id, priorities and preferred address. -/
  | fabCfgNode (d : Dir)
  /-- `FAB_CFG_LINK` (R393). Enables or disables a Thofer link and sets its asymmetry. -/
  | fabCfgLink (d : Dir)
  /-- `FAB_CFG_EXCLUDE` (R393). On the root, excludes a node from the fabric. -/
  | fabCfgExclude (d : Dir)
  /-- `FAB_CFG_READMIT` (R393). On the root, ends a node's exclusion. -/
  | fabCfgReadmit (d : Dir)
  /-- `FAB_SLOT` (R394). Reserves or releases a fabric path through the root. -/
  | fabSlot (d : Dir)
  /-- `PAIR_CFG_PAIR` (R424). Sets the pair mode, side, link, lead and convergence limit. -/
  | pairCfgPair (d : Dir)
  /-- `PAIR_CFG_OUTPUT_GROUP` (R424). Defines an output group of sinks for CRC comparison. -/
  | pairCfgOutputGroup (d : Dir)
  /-- `PAIR_SYNC_RESYNC` (R419). Starts a hot sync of the peer. -/
  | pairSyncResync (d : Dir)
  /-- `PAIR_SYNC_HANDOVER` (R425). Orders a handover of the active role at frame h. -/
  | pairSyncHandover (d : Dir)
  /-- `SCENE_STORE` (R277). Closes the open transaction and stores it as a scene. -/
  | sceneStore (d : Dir)
  /-- `SCENE_RECALL` (R278). Copies a scene into a staging slot and commits it. -/
  | sceneRecall (d : Dir)
  /-- `SCENE_DELETE` (R277). Removes a stored scene. -/
  | sceneDelete (d : Dir)
  /-- `METER_CFG` (R269). Sets meter buffers, signalling and the metered ranges. -/
  | meterCfg (d : Dir)
  /-- `LOUD_CFG` (R269). Configures a loudness meter's channels, weights, run and reset. -/
  | loudCfg (d : Dir)
  /-- `AUTOMIX_CFG` (R269). Defines automix groups and members. -/
  | automixCfg (d : Dir)
  /-- `MINUS_CFG` (R269). Defines mix-minus feeds and duck rules. -/
  | minusCfg (d : Dir)
  /-- `GEN_CFG` (R269). Sets a generator's mode, level, frequency and seed. -/
  | genCfg (d : Dir)
  /-- `PREPARE` (R280). A participant receiving PREPARE validates its part and answers PREPARED or REFUSED. -/
  | prepare (id : Nat) (p : Nat) (src : Nat)
  /-- `PREPARED` (R280). The coordinator records a participant's answer and broadcasts ALL_PREPARED when all have prepared. -/
  | prepared (id : Nat) (node : Nat) (status : Nat)
  /-- `FABRIC_PREPARE_DEADLINE` (R280). Without every PREPARED by the tick of p − 2 the coordinator broadcasts ABORT. -/
  | fabricPrepareDeadline (id : Nat) (unreachable : Nat)
  /-- `ALL_PREPARED` (R281). A node receiving ALL_PREPARED applies at p, or late at m + 2 when in doubt. -/
  | allPrepared (id : Nat)
  /-- `ABORT` (R281). A node receiving ABORT discards its fabric transaction. -/
  | abort (id : Nat)
  /-- `IN_DOUBT_ENTRY` (R281). A node without ALL_PREPARED at the tick of p − 1 keeps the transaction in doubt. -/
  | inDoubtEntry (id : Nat)
  /-- `IN_DOUBT_TIMEOUT` (R281). After 100 ms in doubt the node asks every participant for the outcome. -/
  | inDoubtTimeout (id : Nat) (applied : Bool)
  /-- `LATE_APPLY_REPORT` (R282). The coordinator receives a late-apply report and posts 0x0404 naming the node. -/
  | lateApplyReport (id : Nat) (node : Nat) (k : Nat)
  /-- `PORT_WORD_CAPTURE` (R286). A received port word enters its buffer position MSB-justified. -/
  | portWordCapture (port : Nat) (ch : Nat) (word : Nat) (theta : Int) (t : Nat)
  /-- `QUALIFICATION` (R297). A slave clock valid for QUAL × 10 ms is qualified. -/
  | qualification (port : Nat) (ofs : Int)
  /-- `CLOCK_STOP_DETECT` (R306). No valid word start for two frame periods puts the port in LOST. -/
  | clockStopDetect (port : Nat)
  /-- `GLITCH` (R306). A bad word period discards the input frame and schedules a re-phase. -/
  | glitch (port : Nat)
  /-- `RATE_MISMATCH` (R306). Two windows outside ±1000 ppm put the port in MISMATCH. -/
  | rateMismatch (port : Nat) (ofs : Int)
  /-- `ELASTIC_OVERRUN` (R305). When |θ| reaches 4 the elastic stores overrun or underrun until the next tick. -/
  | elasticOverrun (port : Nat) (ahead : Bool)
  /-- `AES3_SUBFRAME` (R293). A received subframe enters the buffer, or is replaced on a parity error. -/
  | aes3Subframe (n : Nat) (sub : Nat) (word : Nat) (parityErr : Bool) (v : Bool) (theta : Int) (t : Nat)
  /-- `CHANNEL_STATUS_BLOCK` (R294). A 192-frame channel-status block updates the registers when its CRCC checks. -/
  | channelStatusBlock (n : Nat) (sub : Nat) (bytes : List Byte) (crcOk : Bool)
  /-- `START_SYNC_EDGE` (R300). An edge on START_SYNC names the start or stop frame r + 2 for an armed group. -/
  | startSyncEdge (rising : Bool) (later : Bool)
  /-- `LOSS_OF_SIGNAL` (R320). A reference's loss rule is met and the slot is disqualified. -/
  | lossOfSignal (slot : Nat)
  /-- `FREQUENCY_MEASUREMENT` (R321). Each 1 s gate measures a reference's offset and drift rate. -/
  | frequencyMeasurement (slot : Nat) (ofs : Int)
  /-- `SOFT_ALARM_CLEAR` (R322). Ten seconds within the clearing limits clear the soft alarm. -/
  | softAlarmClear (slot : Nat)
  /-- `WTR_EXPIRY` (R323). A qualified slot's wait-to-restore timer runs out and it may become eligible. -/
  | wtrExpiry (slot : Nat)
  /-- `ACQ_END` (R329). Frequency error within 0.05 ppm for the dwell ends ACQ and starts ALIGN. -/
  | acqEnd (phi : Int)
  /-- `HOLDOVER_HISTORY_RECORD` (R331). Every 1 s the tracked frequency of the locked slot is recorded. -/
  | holdoverHistoryRecord (freq : Int)
  /-- `ETH_FRAME_RECEIVE` (R342). A received Ethernet frame is sorted to PTP, media, host or dropped. -/
  | ethFrameReceive (port : Nat) (frame : List Byte) (cor : Nat) (unc : Nat) (t : Nat)
  /-- `STREAM_LOSS` (R348). No packet used for LOSS ms declares the receive stream lost. -/
  | streamLoss (stream : Nat)
  /-- `STREAM_RECOVERY` (R348). Packets used for LOSS ms with no miss recover the stream at the next tick. -/
  | streamRecovery (stream : Nat)
  /-- `PATH_LOSS` (R349). One ST 2022-7 path is lost or returns on its own loss rule. -/
  | pathLoss (stream : Nat) (path : Nat) (lost : Bool)
  /-- `MEDIA_PACKET_LAUNCH` (R350). A media packet starts on the wire at its scheduled launch time. -/
  | mediaPacketLaunch (wire : StreamPath)
  /-- `HOST_TRANSMIT_ENTRY` (R353). A host transmit entry at the queue head is sent, held to its launch time, or refused. -/
  | hostTransmitEntry (port : Nat) (t : Nat)
  /-- `SYNC_RECEIVED` (R362). The servo measures the offset at a Sync and slews, or confirms a step. -/
  | syncReceived (inst : Nat) (ofs : Int) (locked : Bool)
  /-- `TIME_STEP` (R362). The supervisor steps the local clock and acts on queued launch times. -/
  | timeStep (t : Nat)
  /-- `ANNOUNCE_RECEIVED` (R358). An Announce feeds the best-master algorithm and the instance's port state. -/
  | announceReceived (inst : Nat) (a : Announce)
  /-- `DELAY_REQ_RECEIVED` (R359). As master, the instance answers a Delay_Req or Pdelay_Req. -/
  | delayReqReceived (inst : Nat) (peer : Bool) (seq : Nat) (id : Nat) (t : Nat)
  /-- `PTP_MESSAGE_TRANSMIT` (R359). An instance sends its periodic Sync, Announce or delay request. -/
  | ptpMessageTransmit (inst : Nat) (kind : Nat) (t : Nat)
  /-- `CAPTURE_EDGE` (R357). An active edge on a capture pin records the local clock. -/
  | captureEdge (n : Nat) (t : Nat)
  /-- `PULSE_FIRE` (R357). A pulse channel drives its pin at its time and each period. -/
  | pulseFire (n : Nat) (t : Nat)
  /-- `BLOCK_LOCK` (R371). Both lanes locked for 10 ms move a link from TRAINING to HELLO. -/
  | blockLock (link : Nat)
  /-- `HELLO_RECEIVED` (R376). A hello is checked and the link goes UP, stays in HELLO, or rediscovers. -/
  | helloReceived (link : Nat) (h : Hello)
  /-- `LINK_RETRAIN` (R371). A FAILED link returns to TRAINING after 100 ms. -/
  | linkRetrain (link : Nat)
  /-- `SYNC_BLOCK_SET` (R375). A received sync set carries frame, time, root and timestamp data and measures cable delay. -/
  | syncBlockSet (link : Nat) (y : SyncSet)
  /-- `SYNC_MISSING` (R388). A sync set not arrived F/2 after its tick is judged missing. -/
  | syncMissing (link : Nat)
  /-- `ISOCHRONOUS_BLOCK` (R374). A received isochronous block is stored, forwarded or discarded on CRC error. -/
  | isochronousBlock (link : Nat) (b : IsoBlock)
  /-- `RELIABLE_MESSAGE` (R375). A reliable control message is acknowledged and delivered in sequence order. -/
  | reliableMessage (link : Nat) (m : RelMsg)
  /-- `RELIABLE_ACK` (R375). A hop acknowledgement releases the held message. -/
  | reliableAck (link : Nat) (origin : Nat) (dest : Nat) (seq : Nat)
  /-- `RELIABLE_RETRY` (R375). An unacknowledged message is repeated every 12 µs and the link marked SUSPECT. -/
  | reliableRetry (link : Nat) (origin : Nat) (dest : Nat) (seq : Nat)
  /-- `LINK_FAILURE` (R388). A link is declared FAILED and held messages move to the alternate link. -/
  | linkFailure (link : Nat) (cause : Nat)
  /-- `FAILURE_NOTICE` (R389). A flooded failure notice switches protected paths to their other route. -/
  | failureNotice (node : Nat) (link : Nat) (txs : List Nat) (rxs : List Nat)
  /-- `ROOT_ELECTION` (R377). The root is elected and assigns addresses, time master, routes and slots. -/
  | rootElection (nodes : List NodeInfo)
  /-- `ROUTE_TABLE_INSTALL` (R380). The root installs new route tables after a link state change. -/
  | routeTableInstall (gen : Nat) (routes : List RouteRow)
  /-- `REROUTE_ATTEMPT` (R390). The root tries a new route for a lost or unprotected path within its L_p. -/
  | rerouteAttempt (ch : Nat) (rx : Bool) (ok : Bool)
  /-- `NODE_EXCLUSION` (R391). The root excludes a node after repeated link failures or tick error. -/
  | nodeExclusion (node : Nat)
  /-- `FABRIC_LOCK_CHANGE` (R387). A node gains or loses fabric lock and sets FAB_FRAMEOFS. -/
  | fabricLockChange (lock : Bool) (ofs : Int)
  /-- `LINE_TEST_PULSE` (R401). The active releases ECLIPSE for 200 ns and both members check the line. -/
  | lineTestPulse (high : Bool)
  /-- `ECLIPSE_SAMPLE` (R401). Each member samples ECLIPSE 3 µs after the tick. -/
  | eclipseSample (high : Bool)
  /-- `HEARTBEAT_BLOCK` (R406). A received heartbeat block carries role, state, epoch and CRCs. -/
  | heartbeatBlock (h : Heartbeat)
  /-- `IN_SYNC` (R417). CRCs agreeing for 1 s make a group IN_SYNC. -/
  | inSync (g : Nat)
  /-- `CONVERGENCE_TIMEOUT` (R419). A group not IN_SYNC after CONV seconds posts 0x0907. -/
  | convergenceTimeout (g : Nat)
  /-- `DEAD_MAN_RELEASE` (R403). The health monitor releases ECLIPSE and stops TIDE and heartbeats. -/
  | deadManRelease (cause : Nat)
  /-- `AUTO_DISARM` (R410). No line-test pulse for 1 s clears AUTO; pulses for 1 s set it again. -/
  | autoDisarm (rearm : Bool)
  /-- `EPOCH_COMPLETE` (R422). The last byte with a good CRC flips the peer's state areas at its next tick. -/
  | epochComplete (parts : List EpochPart) (held : List (Nat × Int))
  /-- `XBAR_GRANT` (R434). A target port grants one transaction by QoS with ageing and round robin. -/
  | xbarGrant (t : Nat) (wants : List XWant)
  /-- `XBAR_RESPONSE` (R437). A target answers a transaction with DONE, NODEST, TFAIL or POISON. -/
  | xbarResponse (t : Nat)
  /-- `XBAR_TIMEOUT` (R437). A target silent for 20 µs after grant is answered TFAIL. -/
  | xbarTimeout (t : Nat)
  /-- `REQUEST_PARITY_ERROR` (R437). A parity error on a request path discards the request with TFAIL. -/
  | requestParityError (m : Nat) (addr : Nat)
  /-- `REGION_SCRUB` (R429). The patrol scrubber reads and repairs on-chip memory words. -/
  | regionScrub (addr : Nat)
  /-- `TEMPERATURE_READING` (R445). Every 16 ms the DRAM temperature sets the refresh band. -/
  | temperatureReading (v : Option Int)
  /-- `RETRAINING_PAUSE` (R447). Every 64 ms each rank's drift is corrected within a refresh. -/
  | retrainingPause (rank : Nat) (used : Nat)
  /-- `CONFIGURATION_REQUEST` (R454). The endpoint answers PCIe configuration requests in hardware. -/
  | configurationRequest (off : Nat) (wr : Bool) (val : Nat)
  /-- `BAR0_ACCESS` (R456). A host access through BAR0 reaches the peripheral bridge or MSI-X structures. -/
  | bar0Access (off : Nat) (len : Nat) (wr : Bool) (val : Nat)
  /-- `BAR2_ACCESS` (R456). A host access through BAR2 is split into crossbar transactions. -/
  | bar2Access (off : Nat) (wr : Bool) (data : List Byte) (len : Nat)
  /-- `LINK_DOWN` (R458). Link down, hot reset, FLR, bus master clear or D3hot disable the rings while audio continues. -/
  | linkDown (cause : Nat)
  /-- `MSI_X_MESSAGE` (R459). A vector sends one message for the sources fired since its last message. -/
  | msiXMessage (v : Nat)
  /-- `OUTBOUND_READ_ERROR` (R457). An outbound read error halts a command ring or fails a directive with 0x0105. -/
  | outboundReadError (ring : Nat) (payload : Bool) (cto : Bool)
  /-- `HOST_CR_TAIL_WRITE` (R249). Writing a command ring's tail publishes whole programs. -/
  | hostCrTailWrite (ring : Nat) (tail : Nat) (placed : List Word64)
  /-- `HOST_CR_SEQ_WRITE` (R250). Writing the expected sequence number clears HALT. -/
  | hostCrSeqWrite (ring : Nat) (seq : Nat)
  /-- `RING_DISABLE` (R276). Writing EN = 0 to a command ring abandons its open transaction. -/
  | ringDisable (ring : Nat)
  /-- `HOST_CQ_HEAD_WRITE` (R253). Consuming completion entries frees room so the ring's directives can be read again. -/
  | hostCqHeadWrite (ring : Nat) (head : Nat)
  /-- `SYS_FRAME_CFG_WRITE` (R53). A frame configuration write takes effect only in Quiescent and otherwise sets REJ. -/
  | sysFrameCfgWrite (val : Nat)
  /-- `LOUD_RESET_WRITE` (R235). Writing 1 to a loudness reset bit clears the meter at the next 100 ms step. -/
  | loudResetWrite (k : Nat) (val : Nat)
  /-- `RETAIN_WAKE` (R473). WAKE_N low for 1 ms or the AO alarm raises CORE_ON and boots with DRAM kept. -/
  | retainWake (alarm : Bool)
  /-- `WARM_RESET_REQUEST` (R475). A keyed write of WARM requests level 3 of the recovery ladder. -/
  | warmResetRequest (val : Nat)
  /-- `POWER_CYCLE_REQUEST` (R475). A keyed write of CYCLE requests level 4 of the recovery ladder. -/
  | powerCycleRequest (val : Nat)
  /-- `WARM_RESET` (R478). The engine releases ECLIPSE, logs, resets all but AO and HP, verifies, self-tests and applies the
  keep set. -/
  | warmReset (dramLost : Bool)
  /-- `COLD_RESET` (R468). PWR_GOOD or RST_N low resets the engine; their release samples straps and starts boot. -/
  | coldReset (low : Bool) (pwr : Bool) (sel : Nat) (f10 : Bool)
  /-- `BOOT_READY` (R471). Boot completes and the engine enters Quiescent with STAGE READY. -/
  | bootReady (ok : Bool) (slot : BootSlot) (svn : Nat) (ddr : Nat) (cells : List Nat) (units : List (Bool × Nat)) (keepOk : Bool) (board : BootBoard)
  /-- `MANIFEST_WRITE` (R470). Writing HOST_PROGMAN_HI starts verification of the program manifest. -/
  | manifestWrite (hi : Nat)
  /-- `MANIFEST_VERIFIED` (R470). Manifest verification ends, sets MANOK and posts 0x0B06. -/
  | manifestVerified (ok : Bool) (entries : List (Nat × Nat × Nat))
  /-- `QSPI_COMMAND` (R463). Writing CMD starts a host flash command in Quiescent. -/
  | qspiCommand (val : Nat)
  /-- `AO_PTP_SET` (R474). Once an hour the supervisor sets the AO seconds counter from the locked local clock. -/
  | aoPtpSet (t : Nat)
  /-- `SUPPLY_MONITOR_TRIP` (R489). VDD_CORE or VDDIO_B below its monitor threshold causes a cold reset. -/
  | supplyMonitorTrip (core : Bool)
  /-- `THERMAL_SAMPLE` (R499). Every 1 ms the junction sensor updates CUR and raises or releases the thermal alarm. -/
  | thermalSample (t : Int)
  /-- `RC_READ` (R11). Reading an RC field returns it and resets it. -/
  | rcRead (blk : Nat) (off : Nat)
  /-- `LATCHING_READ` (R80). Reading the low word of a split counter or time latches its other words. -/
  | latchingRead (blk : Nat) (off : Nat) (t : Nat)
  /-- `REGISTER_WRITE` (R504). A write to a register without its own row stores valid fields, ignores invalid ones and clears
  RW1C bits. -/
  | registerWrite (blk : Nat) (off : Nat) (val : Nat)
  /-- `ANNOUNCE_RECEIPT_TIMEOUT` (R359). announceReceiptTimeout expires without an Announce, and the instance's best-master
  state and port state change. -/
  | announceReceiptTimeout (inst : Nat)
  /-- `ETH_LINK_CHANGE` (R369). ETH0, ETH1 or the management link goes down or comes up, which updates LINK and sets the sticky
  DOWNS. -/
  | ethLinkChange (port : Nat) (up : Bool)
  /-- `PCIE_LINK_UP` (R454). After PCIE_PERST_N is released the endpoint trains the link in hardware and sets LINKUP. -/
  | pcieLinkUp (speed : Nat) (width : Nat)
  /-- `DOMAIN_LOSS_OF_LOCK` (R45). A synchronous clock domain other than FX, such as EN, FL, TM or HP, loses lock or stops,
  which sets its sticky LOST bit. -/
  | domainLossOfLock (dom : Nat)
  /-- `EXECUTOR_STATE_ERROR` (R27). A summing unit or DMA channel meets an uncorrectable internal-state error or an internal
  parity error, which is counted toward its fourth-in-an-hour fence. -/
  | executorStateError (dma : Bool) (unit : Nat)
  /-- `SUB_QUEUE_PARITY_ERROR` (R20). A region's dispatch sub-queue reports a parity error, which escalates the region to chip
  level. -/
  | subQueueParityError (region : Nat)
  /-- `BRIDGE_PROTOCOL_ERROR` (R20). A block's handshake bridge reports a protocol error, so the region isolates the block with
  cause 0x8. -/
  | bridgeProtocolError (block : Nat)
  /-- `REFERENCE_SIGNAL_RETURN` (R323). A reference slot's signal returns or its servo locks again, so the slot becomes
  qualified, starts its WTR timer and ends any cause-4 disqualification. -/
  | referenceSignalReturn (slot : Nat)
  /-- `CELL_SELF_TEST_COMPLETE` (R116). A rotating self-test ends at most 2 ms after it began, and the cell either returns to
  service or is marked for fencing. -/
  | cellSelfTestComplete (pass : Bool)
  /-- `BOUNDARY_SCAN_TEST_MODE` (R466). JTAG enters EXTEST or another boundary-scan test mode, which holds the engine in reset
  until test-logic reset. -/
  | boundaryScanTestMode (enter : Bool)
  /-- `QSPI_COMMAND_COMPLETE` (R463). A host flash command finishes and BUSY clears. -/
  | qspiCommandComplete (data : List Byte)
  /-- `FRAME_TICK` (R52). At each house frame tick the engine applies capacity changes and shedding, applies due transactions,
  reloads dependence counters and starts the new frame. -/
  | frameTick
  /-- `LATE_CHECK` (R75). At the end of the usable window every released item that has not completed is aborted as late and its
  sinks concealed. -/
  | lateCheck
  /-- `AVS_LOOP` (R70). Every millisecond the supervisor raises or lowers VDD_CORE by 5 mV from the pace value. -/
  | avsLoop
  /-- `PMBUS_RETRY` (R71). Under an AVS fault the supervisor retries the write every 100 ms. -/
  | pmbusRetry
  /-- `PACE_DECISION` (R72). Each millisecond the engine decides its pace state from pace and VCMD. -/
  | paceDecision
  /-- `REINSTATEMENT` (R74). After 10 s of healthy pace a shed class is restored when admission passes. -/
  | reinstatement
  /-- `SUPERVISOR_RESTART_END` (R43). The restarted supervisor resumes its duties and reruns admission and selection. -/
  | supervisorRestartEnd
  /-- `METER_BLOCK_WRITE` (R229). At each block period end the engine writes a meter block, signals the host and increments the
  sequence. -/
  | meterBlockWrite
  /-- `PROGRAM_FETCH` (R250). The supervisor takes the next published program of the highest-priority ring and checks its
  sequence number. -/
  | programFetch
  /-- `EVENTS_LOST_POST` (R254). When event ring space returns the engine first posts 0x0406 with the count lost. -/
  | eventsLostPost
  /-- `REPLICATION_LATE` (R414). A forwarded directive that misses its apply frame makes the peer unqualified. -/
  | replicationLate
  /-- `SELECTION_RUN` (R324). The supervisor chooses the best eligible reference and starts transitions. -/
  | selectionRun
  /-- `HOLD_PHASE_END` (R329). The first phase measurement of the target ends HOLD and starts ACQ. -/
  | holdPhaseEnd
  /-- `ACQ_TIMEOUT` (R329). ACQ not ended in 100 s disqualifies the target and enters HOLDOVER. -/
  | acqTimeout
  /-- `ALIGN_END` (R330). Build-out or slew aligns the phase and DWELL starts. -/
  | alignEnd
  /-- `DWELL_END` (R329). The phase stays within the lock window for the dwell and the DPLL is LOCKED. -/
  | dwellEnd
  /-- `RECEIVE_GRACE_END` (R364). One second after a mapping rewrite only the new mapping places packets. -/
  | receiveGraceEnd
  /-- `ROOT_LOSS_ELECTION` (R392). Ten frames without sync of the current root start a new election. -/
  | rootLossElection
  /-- `ROLE_DECISION` (R399). A configured member becomes PEER or ACTIVE from ECLIPSE and heartbeats after its tick count. -/
  | roleDecision
  /-- `TIDE_EDGE` (R405). An edge on TIDE_IN counts toward TIDE present. -/
  | tideEdge
  /-- `TIDE_LOST` (R405). No edge in three frames declares TIDE lost. -/
  | tideLost
  /-- `HEARTBEAT_LOST` (R406). Three ticks without a valid block declare the link heartbeat lost. -/
  | heartbeatLost
  /-- `RELEASED_MUTE` (R403). A RELEASED member sensing the line pulled low mutes and drives ECL_SEL low. -/
  | releasedMute
  /-- `TAKEOVER` (R408). A qualified peer with both heartbeats lost and ECLIPSE released takes the active role. -/
  | takeover
  /-- `HANDOVER` (R411). At frame h the active releases and the peer takes hold in the same tick. -/
  | handover
  /-- `EPOCH_ABANDON` (R422). An epoch not complete in 50 ms is abandoned. -/
  | epochAbandon
  /-- `WARM_GRAPH_START` (R423). At T + 2 the new warm active starts its graph from the epoch with a held-value crossfade. -/
  | warmGraphStart
  /-- `DDR_QUEUE_ENTRY` (R441). A DRAM request enters the in-order queue as 64-byte entries. -/
  | ddrQueueEntry
  /-- `DDR_ENTRY_COMPLETE` (R441). The controller completes the head entry and returns its data or status. -/
  | ddrEntryComplete
  /-- `TREFI_TICK` (R444). Each tREFI the refresh debt rises, and a refresh over the limit holds the queue. -/
  | trefiTick
  /-- `IDLE_BURST` (R444). While the queue is empty and debt remains the controller refreshes. -/
  | idleBurst
  /-- `CA_PARITY_ERROR` (R448). ALERT_n for CA parity re-issues commands once, then poisons the writes. -/
  | caParityError
  /-- `WRITE_CRC_ERROR` (R448). ALERT_n for write CRC re-issues the write once, then poisons the burst. -/
  | writeCrcError
  /-- `DDR_SCRUB` (R449). One burst per tREFI is scrubbed while the queue is empty. -/
  | ddrScrub
  /-- `SELF_REFRESH_ENTRY` (R451). After the idle time in Quiescent the controller pays the debt and enters self-refresh. -/
  | selfRefreshEntry
  /-- `SELF_REFRESH_EXIT` (R451). The first request or leaving Quiescent exits self-refresh with ZQ and retraining. -/
  | selfRefreshExit
  /-- `RUN_REQUEST` (R473). A request for Run starts the admitted graph at the next tick. -/
  | runRequest
  /-- `QUIESCENT_REQUEST` (R473). A request for Quiescent stops the graph at the next tick. -/
  | quiescentRequest
  /-- `RETAIN_REQUEST` (R473). A request for Retain puts DRAM in self-refresh, releases ECLIPSE and lowers CORE_ON. -/
  | retainRequest
  /-- `WARM_RESET_DEADLINE` (R475). A warm reset not ready within 1.2 s moves the engine to a power cycle. -/
  | warmResetDeadline
  /-- `POWER_CYCLE` (R480). The engine drives FAIL_N low and holds itself in reset. -/
  | powerCycle
  /-- `GO` (R471). Writing GO starts verification of a host-pushed image. -/
  | go
  /-- `COMMITSVN` (R469). Writing COMMITSVN raises SVNMIN to the running image's SVN. -/
  | commitsvn
  /-- `OSC_IN_LOSS` (R46). OSC_IN stopped for 10 µs stops outputs, releases ECLIPSE and holds the engine in reset. -/
  | oscInLoss
  /-- `OSC_IN_RESTORE` (R46). OSC_IN running for 10 ms boots the engine as from power-good. -/
  | oscInRestore
  /-- `FX_LOSS_OF_LOCK` (R45). Loss of FX lock resets the engine at chip level and releases ECLIPSE. -/
  | fxLossOfLock
  /-- `THERMAL_TRIP` (R499). The comparator trips, releases ECLIPSE, logs and holds the engine in cold reset. -/
  | thermalTrip
  /-- `THERMAL_TRIP_RELEASE` (R499). Below the grade maximum − 10 °C the engine boots as from power-good. -/
  | thermalTripRelease
  /-- `VBAT_LOSS` (R474). VBAT falls below its minimum, so the always-on counter and log are lost and VBLOST is set at the next
  power-up. -/
  | vbatLoss
  /-- `HOST_PUSH_TIMEOUT` (R471). In host-push boot, 60 s without GO halts boot with ERR 0x3. -/
  | hostPushTimeout
  deriving DecidableEq, Repr

end Sys2Proof
end

