-- ==== Sys2Proof/WellFormed.lean ====
section
/-! DEFINITION. Which commands exist: the operands that name an entry of a table name one that the table has, and a value fits the word
that carries it. -/
namespace Sys2Proof

/-- A directive's header fields fit the header (R256), and its ring is one of the eight. -/
def Dir.wf (d : Dir) : Bool :=
  decide (d.ring < 8) && decide (d.tag < 0x100000000) && decide (d.flags < 256) && decide (d.words.length < 65536)

/-- A 32-bit value. -/
def isWord (v : Nat) : Bool := decide (v < 0x100000000)

/-- A register of a block of Table 15.3, by its byte offset (R461). -/
def isReg (blk off : Nat) : Bool := decide (blk < 13) && decide (off < 0x8000) && off % 4 == 0

/-- A transaction of a crossbar master lies in one 512-byte line and carries the bytes that it writes (R428–R433). -/
def XWant.wf (w : XWant) : Bool :=
  decide (w.m < 40) && decide (w.id < 64) && decide (1 ≤ w.len) && decide (w.addr % 512 + w.len ≤ 512)
    && (!w.wr || w.data.length == w.len)

/-- A byte of region SRAM, summing and routing memory, network buffers or supervisor SRAM: what the patrol scrubber reads (R428, R429). -/
def isPatrolled (a : Nat) : Bool :=
  (decide (0x10000000 ≤ a) && decide (a < 0x12000000)) || (decide (0x20000000 ≤ a) && decide (a < 0x20800000))
    || (decide (0x28000000 ≤ a) && decide (a < 0x28400000)) || (decide (0x29000000 ≤ a) && decide (a < 0x29400000))

/-- Commands of the cells and executors. -/
def Instr.wfCell : Instr → Bool
  | .bundleIssue c _ | .resultVisible c | .storeCommit c | .loopClose c | .eccDoubleBitInterrupt c _ | .arithmeticTrap c _
  | .budgetOverrun c _ | .debugBreak c | .hostDebugRequest c | .handlerEnd c _ | .retiBankSwitch c _ | .handshakeTimeout c _
  | .itemStart c _ | .fedItemStart c _ | .rotatingSelfTest c => decide (c < 256)
  | .dmaCellAccess c off _ data len =>
    decide (c < 256) && decide (off < 0x100000) && decide (data.length ≤ 512 - off % 512) && decide (len ≤ 512 - off % 512)
  | .cellScrub c off _ => decide (c < 256) && decide (off < 0x40000)
  | .executorStallFence dma u _ => decide (u < if dma then 8 else 32)
  | .executorStateError dma u => decide (u < if dma then 8 else 32)
  | .executorErrorResponse i _ => decide (i < 16384)
  | .itemCompletion i _ _ => decide (i < 16384)
  | .bridgeProtocolError b => decide (b < 32)
  | .subQueueParityError r => decide (r < 4)
  | .paceMonitorSample r m v => decide (r < 4) && decide (m < 4) && decide (v < 65536)
  | _ => true

/-- Commands of routing, mixing and services. -/
def Instr.wfMix : Instr → Bool
  | .zeroCrossingCut t _ | .zcTimeout t _ | .fadeEnd t _ | .fallbackReturn t | .reversion t => decide (t < 0x3400)
  | .asrcLock ch _ | .asrcUnlock ch | .asrcRange ch _ => decide (ch < 256)
  | .gainZeroCrossingStep g _ | .gainTimeout g _ | .rampEnd g _ => decide (g < 0x110000)
  | .loudResetWrite k v => decide (k < 2) && isWord v
  | .loudnessStep ms => ms.all fun m => decide (m < 64)
  | .automixUpdate gs => gs.all fun g => decide (g < 32)
  | .duckHoldExpiry r => decide (r < 32)
  | _ => true

/-- Directives, and what their rings and transactions do. -/
def Instr.wfDir : Instr → Bool
  | .nop d | .fence d | .query d | .resetFn d | .txnOpen d | .txnCommit d | .txnAbort d | .loadProg d | .defItem d | .link d | .admitGraph d
  | .route d | .fallback d | .align d | .setGain d | .setGainDb d | .setSend d | .writeParam d | .portCfg d | .groupStart d | .groupStop d
  | .refCfg d | .refPrio d | .streamTx d | .streamRx d | .ptpCfgInstance d | .ptpCfgTime d | .ptpCfgServo d | .ptpCfgRemap d
  | .ptpCfgLatency d | .ptpCfgPulse d | .fabCfgNode d | .fabCfgLink d | .fabCfgExclude d | .fabCfgReadmit d | .fabSlot d | .pairCfgPair d
  | .pairCfgOutputGroup d | .pairSyncResync d | .pairSyncHandover d | .sceneStore d | .sceneRecall d | .sceneDelete d | .meterCfg d
  | .loudCfg d | .automixCfg d | .minusCfg d | .genCfg d => d.wf
  | .staging op d => decide (op < 256) && d.wf
  | .fenceComplete k | .txnAcknowledge k | .transactionIdleAbandon k | .admissionResult k | .ringDisable k => decide (k < 8)
  | .hostCrTailWrite k v _ | .hostCrSeqWrite k v | .hostCqHeadWrite k v => decide (k < 8) && isWord v
  | .outboundReadError k _ _ => decide (k < 8)
  | .parameterMirrorEnd r => decide (r < 4)
  | .prepare _ _ n | .prepared _ n _ | .lateApplyReport _ n _ => decide (n < 64)
  | _ => true

/-- Commands of ports, references, the network and time. -/
def Instr.wfPort : Instr → Bool
  | .portWordCapture p ch w _ _ => decide (p < 60) && decide (ch < 64) && (isWord w || (decide (32 ≤ p) && decide (p < 40) && decide (w < 2 ^ 128)))
  | .qualification p _ | .clockStopDetect p | .glitch p | .rateMismatch p _ | .elasticOverrun p _ => decide (p < 60)
  | .aes3Subframe n sub w _ _ _ _ => decide (n < 16) && decide (sub < 2) && isWord w
  | .channelStatusBlock n sub bs _ => decide (n < 16) && decide (sub < 2) && bs.length == 24
  | .lossOfSignal k | .frequencyMeasurement k _ | .softAlarmClear k | .wtrExpiry k | .referenceSignalReturn k => decide (k < 8)
  | .ethFrameReceive p _ _ _ _ | .hostTransmitEntry p _ | .ethLinkChange p _ => decide (p < 3)
  | .streamLoss s | .streamRecovery s => decide (s < 512)
  | .mediaPacketLaunch w => decide (w.stream < 512) && decide (w.path < 2)
  | .pathLoss s p _ => decide (s < 512) && decide (p < 2)
  | .syncReceived i _ _ | .announceReceived i _ | .delayReqReceived i _ _ _ _ | .ptpMessageTransmit i _ _ | .announceReceiptTimeout i =>
    decide (i < 2)
  | .captureEdge n _ | .pulseFire n _ => decide (n < 4)
  | _ => true

/-- Commands of the fabric and the pair. -/
def Instr.wfLink : Instr → Bool
  | .blockLock l | .helloReceived l _ | .linkRetrain l | .syncBlockSet l _ | .syncMissing l | .isochronousBlock l _ | .reliableMessage l _
  | .reliableAck l _ _ _ | .reliableRetry l _ _ _ | .linkFailure l _ => decide (l < 4)
  | .failureNotice n l _ _ => decide (n < 64) && decide (l < 4)
  | .rerouteAttempt ch _ _ => decide (ch < 2048)
  | .nodeExclusion n => decide (n < 64)
  | .inSync g | .convergenceTimeout g => decide (g < 64)
  | .epochComplete ps _ => ps.all fun p => decide (p.region < 4)
  | _ => true

/-- Commands of memory, the host interface and power. -/
def Instr.wfHost : Instr → Bool
  | .xbarGrant _ ws => ws.all XWant.wf
  | .requestParityError m _ => decide (m < 40)
  | .regionScrub a => isPatrolled a
  | .retrainingPause r _ => decide (r < 2)
  | .configurationRequest off _ v => decide (off < 4096) && off % 4 == 0 && isWord v
  | .bar0Access off n _ _ => decide (off < 0x10000) && decide (1 ≤ n) && decide (n ≤ 4096)
  | .bar2Access off _ bs n => decide (off < 0x10000000) && decide (bs.length ≤ 4096) && decide (n ≤ 4096)
  | .linkDown c => decide (c < 5)
  | .msiXMessage v => decide (v < 64)
  | .sysFrameCfgWrite v | .warmResetRequest v | .powerCycleRequest v | .manifestWrite v | .qspiCommand v => isWord v
  | .coldReset _ _ sel _ => decide (sel < 4)
  | .bootReady _ _ svn _ cells units _ _ =>
    decide (svn < 65536) && cells.all (fun c => decide (c < 256)) && units.all fun u => decide (u.2 < if u.1 then 8 else 32)
  | .rcRead b off | .latchingRead b off _ => isReg b off
  | .registerWrite b off v => isReg b off && isWord v
  | .pcieLinkUp sp w => decide (1 ≤ sp) && decide (sp ≤ 4) && [1, 2, 4].contains w
  | .domainLossOfLock d => decide (d < 9)
  | _ => true

/-- The command names no cell, ring, unit, port, slot, sink, source, link or register beyond its table. -/
def Instr.wf (i : Instr) : Bool := i.wfCell && i.wfMix && i.wfDir && i.wfPort && i.wfLink && i.wfHost

end Sys2Proof
end

