-- ==== Sys2Proof/Machine/Fixed.lean ====
section
/-! DEFINITION. Exact and fixed-point arithmetic on integers: rounding (R506), saturation, roots, logarithms and exponentials. The
approximations carry at least 20 bits more than any result the spec bounds. -/
namespace Sys2Proof.Machine

/-- n / 2^k rounded to nearest, ties to even (RNE of R506). -/
def rne (n : Int) (k : Nat) : Int :=
  let q := n / (2 ^ k : Nat)
  let r := n % (2 ^ k : Nat)
  if 2 * r < (2 ^ k : Nat) then q
  else if (2 ^ k : Nat) < 2 * r then q + 1
  else if q % 2 = 0 then q else q + 1

/-- a / b rounded to nearest, ties to even; b above 0. -/
def rneDiv (a : Int) (b : Nat) : Int :=
  let q := a / (b : Int)
  let r := a % (b : Int)
  if 2 * r < (b : Int) then q
  else if (b : Int) < 2 * r then q + 1
  else if q % 2 = 0 then q else q + 1

/-- round(a / b) of R506: nearest, halves away from zero; b above 0. -/
def roundDiv (a : Int) (b : Nat) : Int :=
  if 0 ≤ a then (2 * a + b) / (2 * b : Int) else -((2 * -a + b) / (2 * b : Int))

/-- ⌈a / b⌉. -/
def ceilDiv (a b : Nat) : Nat := (a + b - 1) / b

/-- Truncation toward zero of a / b. -/
def truncDiv (a : Int) (b : Nat) : Int := if 0 ≤ a then a / (b : Int) else -((-a) / (b : Int))

/-- Clamps to [lo, hi]. -/
def clamp (lo hi v : Int) : Int := if v < lo then lo else if hi < v then hi else v

/-- Saturation to a signed format of `n` bits, with whether it saturated (R96). -/
def satTo (n : Nat) (v : Int) : Int × Bool :=
  if (2 ^ (n - 1) : Nat) - 1 < v then ((2 ^ (n - 1) : Nat) - 1, true)
  else if v < -(2 ^ (n - 1) : Nat) then (-(2 ^ (n - 1) : Nat), true)
  else (v, false)

/-- sat to Q1.31. -/
def satQ31 (v : Int) : Int := (satTo 32 v).1

/-- The greatest r with r * r ≤ n, found bit by bit from bit `k`. -/
def isqrtFrom (n : Nat) : Nat → Nat → Nat
  | 0, r => if (r + 1) * (r + 1) ≤ n then r + 1 else r
  | k + 1, r => if (r + 2 ^ (k + 1)) * (r + 2 ^ (k + 1)) ≤ n then isqrtFrom n k (r + 2 ^ (k + 1)) else isqrtFrom n k r

/-- ⌊√n⌋ for n below 2^192. -/
def isqrt (n : Nat) : Nat := isqrtFrom n 95 0

/-- The fraction bits of log2 of m / 2^62, m in [2^62, 2^63), by repeated squaring. -/
def log2Frac : Nat → Nat → Nat → Nat
  | 0, _, acc => acc
  | k + 1, m, acc =>
    let sq := m * m / 2 ^ 62
    if sq ≥ 2 ^ 63 then log2Frac k (sq / 2) (2 * acc + 1) else log2Frac k sq (2 * acc)

/-- log2 x × 2^40, rounded down, for x above 0. -/
def log2Q40 (x : Nat) : Nat := 2 ^ 40 * Nat.log2 x + log2Frac 40 (2 ^ 62 * x / 2 ^ Nat.log2 x) 0

/-- 100 × 20 log10(a / b) rounded, in hundredths of a dB; a and b above 0. -/
def centiDb (a b : Nat) : Int :=
  -- 2000 log10(2) = 602.05999132796239…
  roundDiv (60205999132796239 * ((log2Q40 a : Int) - (log2Q40 b : Int))) (2 ^ 40 * 10 ^ 14)

/-- Bounds of 1000 × u × log10(2) × (p − q), p and q the rounded-down base-2 logarithms (Q40) of two values: whole numbers within 1 of the exact
figure in hundredths of a dB; u is 2 for an amplitude and 1 for a power. -/
def centiBounds (u : Nat) (p q : Int) : Int × Int :=
  let c := fun d : Int => 30102999566398120 * u * d
  (c (p - q - 2) / (2 ^ 40 * 10 ^ 14 : Nat), -(-c (p - q + 2) / (2 ^ 40 * 10 ^ 14 : Nat)))

/-- The Taylor sum of e^x from term `t` (Q64) of order `k`. -/
def expSum (x : Nat) : Nat → Nat → Nat → Nat
  | 0, _, _ => 0
  | f + 1, k, t => t + expSum x f (k + 1) (t * x / (2 ^ 64 * (k + 1)))

/-- e^x for 0 ≤ x < 1 in Q64. -/
def expQ64 (x : Nat) : Nat := expSum x 24 0 (2 ^ 64)

/-- 2^(n / d) in Q64 for any integer n, d above 0: the whole part shifts the fraction's exponential. -/
def exp2Q64 (n : Int) (d : Nat) : Nat :=
  let w := n / (d : Int)
  let f := (n % (d : Int)).toNat
  -- ln 2 in Q64
  let e := expQ64 (12786308645202655659 * f / d)
  if 0 ≤ w then e * 2 ^ w.toNat else e / 2 ^ (-w).toNat

/-- 10^(n / 20000) in Q64, for n in units of 1/1000 dB … so that 10^(dB / 20) is `pow10Q64 (1000 × dB)`. -/
def pow10Q64 (n : Int) : Nat :=
  -- log2(10) = 3.32192809488736234787…
  exp2Q64 (33219280948873623478 * n) (20000 * 10 ^ 19)

/-- The Taylor sum of sin or cos: alternating terms, each two orders up. -/
def trigSum (x2 : Nat) : Nat → Nat → Int → Int
  | 0, _, _ => 0
  | f + 1, k, t => t + trigSum x2 f (k + 2) (-(t * (x2 : Int) / ((2 ^ 64 * ((k + 1) * (k + 2)) : Nat) : Int)))

/-- sin(π/2 × a / n) in Q64, 0 ≤ a ≤ n. -/
def sinQuarter (a n : Nat) : Int :=
  let x := 28976077832308491369 * a / n
  trigSum (x * x / 2 ^ 64) 12 1 (x : Int)

/-- cos(π/2 × a / n) in Q64. -/
def cosQuarter (a n : Nat) : Int :=
  let x := 28976077832308491369 * a / n
  trigSum (x * x / 2 ^ 64) 12 0 (2 ^ 64 : Nat)

/-- A value within `w` of `c`, at the place in the band that the device's fixed function of (kind, x) gives. -/
def within (kind : Nat) (x c w : Int) : Int := c + clamp (-w) w (Config.bandOffset kind x c)

/-- A whole number from `lo` to `hi`, as the device's fixed function of (kind, x) has it. -/
def between (kind : Nat) (x lo hi : Int) : Int := clamp lo hi (Config.bandOffset kind x lo)

/-- A whole number within 1 of an exact value whose floor and ceiling are `fl` and `ce`. -/
def withinOne (kind : Nat) (x fl ce : Int) : Int := between kind x (ce - 1) (fl + 1)

/-- The value at input `x`, of `k` bits, of the device's non-decreasing function of one kind (R133), within [lo, hi]: each bit of `x` from the
top takes one side of a free value. Every non-decreasing function has this form. -/
def monoFree (kind : Nat) (x : Nat) : Nat → Nat → Int → Int → Int
  | 0, place, lo, hi => clamp lo hi (Config.monoSplit kind place)
  | k + 1, place, lo, hi =>
    let m := clamp lo hi (Config.monoSplit kind place)
    if x.testBit k then monoFree kind x k (2 * place + 1) m hi else monoFree kind x k (2 * place) lo m

/-- A value between two bounds that do not fall as `x` rises, itself not falling as `x` of `k` bits rises: a fixed function of `x`. -/
def risingWithin (kind k x : Nat) (lo hi : Int) : Int := clamp lo hi (monoFree kind x k 1 (-(2 ^ 31 : Nat)) ((2 ^ 31 : Nat) - 1))

end Sys2Proof.Machine
end

