-- ==== Sys2Proof/Machine/Fields.lean ====
section
/-! DEFINITION. The register fields of the MV640: one name for each field of each register table of the spec, its width,
its reset value, and the rows that place it in its block. Block numbers are those of Table 15.3 (R461). -/
namespace Sys2Proof.Machine

/-- A field of a register, named BLOCK_REG.FIELD as R10 does (the index of a repeated register is kept apart). -/
inductive Fld where
  | SYS_ID_PART | SYS_ID_STEP | SYS_ID_GRADE | SYS_HEALTH_CELLS | SYS_HEALTH_BLOCKS | SYS_HEALTH_REGIONS 
  | SYS_HEALTH_SUMUNITS | SYS_HEALTH_QRANGES | SYS_CELL_FENCED_FENCED | SYS_DOMAIN_STAT_LOST 
  | SYS_DOMAIN_STAT_HOUSE_SB | SYS_DOMAIN_STAT_LOCKED | SYS_SUM_FENCED_SUMF | SYS_DMA_FENCED_DMAOK 
  | SYS_DMA_FENCED_DMAF | SYS_CONTAIN_LAST_LEVEL | SYS_CONTAIN_LAST_SUBSUMED | SYS_CONTAIN_LAST_CAUSE 
  | SYS_CONTAIN_LAST_IDENT | SYS_CONTAIN_FRAME_LO_FRAME | SYS_CONTAIN_FRAME_HI_FRAME | SYS_SUP_STAT_RESTARTS 
  | SYS_SUP_STAT_STATE | SYS_SUP_STAT_LSTEP_ERR | SYS_QRANGE_COUNT | SYS_FRAME_CFG_REJ | SYS_FRAME_CFG_FLOG 
  | SYS_FRAME_CFG_PULL | SYS_FRAME_CFG_RATE | SYS_FRAME_CNT_LO_FRAME | SYS_FRAME_CNT_HI_FRAME | SYS_WINDOW_WINDOW 
  | SYS_PACE_RGN_LOWEST | SYS_PACE_RGN_NOW | SYS_PACE_STAT_SHED_ITEMS | SYS_PACE_STAT_SHED_CLASSES 
  | SYS_PACE_STAT_LOWCNT | SYS_PACE_STAT_STATE | SYS_PACE_CFG_SHED_EN | SYS_PACE_CFG_REINSTATE | SYS_AVS_CTL_VMIN 
  | SYS_AVS_CTL_ADDR | SYS_AVS_CTL_EN | SYS_AVS_STAT_NACKS | SYS_AVS_STAT_FAULT | SYS_AVS_STAT_AT_MAX 
  | SYS_AVS_STAT_VCMD | SYS_CONCEAL_TOTAL_CONCEAL | SYS_LATE_FRAMES_LATE | SYS_CELL_THRESH_CORR_PER_S 
  | SYS_CELL_THRESH_DED_PER_H | SYS_CELL_THRESH_STUCK | SYS_CELL_BIST_INTERVAL | SYS_CELL_BIST_LAST_CELL 
  | SYS_CELL_BIST_FAILS | SYS_FUSE_CELLSIGN | SYS_FUSE_DBGLOCK | SYS_FUSE_KEY1REV | SYS_FUSE_SVNMIN 
  | SYS_AO_SEC_LO_SEC | SYS_AO_SEC_HI_SEC | SYS_AO_ALARM_ALARM | SYS_AO_CFG_ALEN | SYS_AO_CFG_PTPSET 
  | SYS_AO_STAT_VBLOST | SYS_AO_STAT_ALARMED | SYS_AO_STAT_HEAD | SYS_GPIO_DIR_DIR | SYS_GPIO_OUT_OUT 
  | SYS_GPIO_IN_IN | SYS_GPIO_FUNC_FUNC | SYS_TEMP_MAX | SYS_TEMP_TALARM | SYS_TEMP_CUR | SYS_AO_LOG_LOG 
  | SYS_CELL_STAT_STATE | SYS_CELL_STAT_DBG_EN | SYS_CELL_STAT_CAUSE | SYS_CELL_STAT_ITEM | SYS_CELL_ERR_CORR_1S 
  | SYS_CELL_ERR_DED_1H | SYS_CELL_ERR_ADDR | SYS_CELL_ERR_PROG_DED | SYS_CELL_ERR_STUCK | SYS_CELL_CNT_OVERRUNS 
  | SYS_CELL_CNT_TRAPS | SYS_CELL_CNT_STALLS | SYS_CELL_LASTERR_VALID | SYS_CELL_LASTERR_PROG | SYS_CELL_LASTERR_DED 
  | SYS_CELL_LASTERR_BANK | SYS_CELL_LASTERR_SYNDROME | SYS_CELL_LASTERR_ADDR | HOST_PCIE_STAT_SPEED 
  | HOST_PCIE_STAT_WIDTH | HOST_PCIE_STAT_LINKUP | HOST_PCIE_STAT_DOWNS | HOST_PCIE_STAT_OUTRNG | HOST_PCIE_STAT_CTO 
  | HOST_PCIE_STAT_WERR | HOST_BAR2_BASE_LO_BASE | HOST_BAR2_BASE_HI_BASE | HOST_OUTB_BASE_LO_OUTB 
  | HOST_OUTB_BASE_HI_OUTB | HOST_REGWIN_BLK | HOST_BOOT_STAT_STAGE | HOST_BOOT_STAT_ERR | HOST_BOOT_STAT_SLOTB 
  | HOST_BOOT_STAT_WARM | HOST_BOOT_STAT_KEEPOK | HOST_BOOT_STAT_MANOK | HOST_BOOT_STAT_BOOTSEL | HOST_BOOT_STAT_SVN 
  | HOST_BOOT_CTL_GO | HOST_BOOT_CTL_COMMITSVN | HOST_PROGMAN_LO_MAN | HOST_PROGMAN_HI_MAN | HOST_PWR_CTL_REQ 
  | HOST_PWR_STAT_STATE | HOST_PWR_STAT_REJ | HOST_PWR_STAT_WAKE | HOST_RST_CTL_KEY | HOST_RST_CTL_CYCLE 
  | HOST_RST_CTL_WARM | HOST_RST_STAT_LEVEL | HOST_RST_STAT_CAUSE | HOST_RST_STAT_WARMS | HOST_QSPI_CTL_HOSTEN 
  | HOST_QSPI_CTL_BUSY | HOST_QSPI_CTL_CMD | HOST_QSPI_CTL_LEN | HOST_QSPI_DATA_DATA | HOST_QSPI_ADDR_ADDR 
  | HOST_ERRVEC_EN | HOST_ERRVEC_VEC | HOST_CR_BASE_LO_BASE | HOST_CR_BASE_HI_BASE | HOST_CR_CFG_EN 
  | HOST_CR_CFG_LOG2 | HOST_CR_TAIL_TAIL | HOST_CR_HEAD_HEAD | HOST_CR_SEQ_SEQ | HOST_CR_STAT_HALT | HOST_CR_STAT_TXN 
  | HOST_CR_STAT_SLOT | HOST_CR_STAT_PROGS | HOST_CQ_BASE_LO_BASE | HOST_CQ_BASE_HI_BASE | HOST_CQ_CFG_EN 
  | HOST_CQ_CFG_LOG2 | HOST_CQ_CFG_IRQ | HOST_CQ_CFG_VEC | HOST_CQ_TAIL_TAIL | HOST_CQ_HEAD_HEAD 
  | HOST_EV_BASE_LO_BASE | HOST_EV_BASE_HI_BASE | HOST_EV_CFG_EN | HOST_EV_CFG_LOG2 | HOST_EV_CFG_IRQ 
  | HOST_EV_CFG_VEC | HOST_EV_TAIL_TAIL | HOST_EV_HEAD_HEAD | HOST_EV_LOST_LOST | HOST_STAGE_BASE_LO_BASE 
  | HOST_STAGE_BASE_HI_BASE | HOST_SCENE_BASE_LO_BASE | HOST_SCENE_BASE_HI_BASE | HOST_SCENE_SIZE_SIZE 
  | HOST_TXN_CFG_IDLE | HOST_TXN_STAT_ACKED | HOST_TXN_STAT_USED | HOST_PARAM_BASE_BASE | HOST_PARAM_SIZE_SIZE 
  | HOST_PARAM_ACT_MIRROR | HOST_PARAM_ACT_ACT | SCHED_MODE_PREFETCH | SCHED_STAT_OVFL | SCHED_STAT_CNTERR 
  | SCHED_STAT_ITEMS | SCHED_DLMISS_DLMISS | SCHED_QDEPTH_MAX | SCHED_QDEPTH_NOW | SCHED_PREF_STAT_STEALS 
  | SCHED_PREF_STAT_RECALLS | SCHED_HIST_COUNT | SCHED_BUSY_ODD | SCHED_BUSY_EVEN | SCHED_LOAD_PEAK | SCHED_LOAD_LAST 
  | SCHED_UTIL0_SUM | SCHED_UTIL0_BRIDGE | SCHED_UTIL1_DMA | SCHED_UTIL1_METER | SCHED_SNAP_CFG_EN | SCHED_SNAP_CFG_N 
  | SCHED_ADM_CFG_UMAX | SCHED_ADM_BOUND_BOUND | SCHED_ADM_WORST_PART | SCHED_ADM_WORST_SHARE | XBAR_MQOS_CAP 
  | XBAR_MQOS_QOS | XBAR_STAT_MAXUSE | XBAR_STAT_INUSE | XBAR_ERR_VALID | XBAR_ERR_CODE | XBAR_ERR_MASTER 
  | XBAR_ERR_TARGET | XBAR_ERRADDR_LO_ADDR | XBAR_ERRADDR_HI_ADDR | XBAR_ERRCNT_NODEST | XBAR_ERRCNT_TIMEOUT 
  | XBAR_ERRCNT_PARITY | XBAR_TGT_WAITMAX | XBAR_MEMSTAT_CE | XBAR_MEMSTAT_UE | DDRC_CFG_EN | DDRC_CFG_RANKS 
  | DDRC_CFG_DENS | DDRC_STAT_STATE | DDRC_STAT_HOT | DDRC_STAT_WARM | DDRC_STAT_SENSFAIL | DDRC_STAT_QNOW 
  | DDRC_STAT_QMAX | DDRC_REF_DEBT | DDRC_REF_CATCHUPS | DDRC_REF_MAXHOLD | DDRC_TEMP_SRC | DDRC_TEMP_HOSTVAL 
  | DDRC_TEMP_LAST | DDRC_TEMP_ADDR | DDRC_TEMPCFG_TWARM | DDRC_SR_SREN | DDRC_SR_IDLE | DDRC_CE_CECNT 
  | DDRC_CE_CERATE | DDRC_CETHR_CETHR | DDRC_UE_UE | DDRC_UE_CARETRY | DDRC_UE_WCRETRY | DDRC_SCRUB_EN 
  | DDRC_SCRUB_PASSES | DDRC_BANKCONF_BANKCONF | DDRC_LOGIDX_COUNT | DDRC_LOGIDX_OVERWR | DDRC_LOGIDX_RD 
  | DDRC_LOG_ADDR_LO_ADDR | DDRC_LOG_ADDR_HI_ADDR | DDRC_LOG_INFO_KIND | DDRC_LOG_INFO_MASTER | DDRC_LOG_INFO_RANK 
  | DDRC_LOG_INFO_BEAT | DDRC_LOG_INFO_SYNDROME | DDRC_LOG_FRAME_LO_FRAME | DDRC_LOG_FRAME_HI_FRAME | CLK_SEL_MODE 
  | CLK_SEL_FORCE | CLK_SEL_QLTHR | CLK_SEL_HOQL | CLK_SEL_OSCQL | CLK_SEL_SWMODE | CLK_SEL_SLEW | CLK_STAT_STATE 
  | CLK_STAT_PHASE | CLK_STAT_SEL | CLK_STAT_SELV | CLK_STAT_PENDING | CLK_STAT_PENDV | CLK_STAT_OUTQL 
  | CLK_STAT_HOVALID | CLK_STAT_HOSEC | CLK_FREQ_FREQ | CLK_PHERR_PHERR | CLK_BUILDOUT_BUILDOUT | CLK_HOFREQ_HOFREQ 
  | CLK_DRIFT_SOFT | CLK_DRIFT_HARD | CLK_DRIFT_RATE | CLK_OSC_F10 | CLK_OSC_TRIM | CLK_AESQL_GRADE1 
  | CLK_AESQL_GRADE2 | CLK_VIDCFG_FRATE | CLK_VIDCFG_LINES | CLK_VIDCFG_FEDGE | CLK_VIDCFG_OFFSET | CLK_OUTCFG_MCLKEN 
  | CLK_OUTCFG_MCLKDIV | CLK_OUTCFG_MCLKFAM | CLK_OUTCFG_WC0EN | CLK_OUTCFG_WC0RATE | CLK_OUTCFG_WC1EN 
  | CLK_OUTCFG_WC1RATE | CLK_OUTCFG_FPEN | CLK_OUTCFG_FPSRC | CLK_CAD_N | CLK_CAD_IDX | CLK_CAD_LEN | CLK_PTPQL_EN 
  | CLK_PTPQL_CLASS | CLK_PTPQL_ACCMAX | CLK_PTPQL_QL | CLK_REFCFG_EN | CLK_REFCFG_TYPE | CLK_REFCFG_INST 
  | CLK_REFCFG_MULT | CLK_REFCFG_QLSRC | CLK_REFCFG_QLPROV | CLK_REFCFG_PRIO | CLK_REFCFG_WTR | CLK_REFCFG_BW 
  | CLK_REFSTAT_PRESENT | CLK_REFSTAT_QUAL | CLK_REFSTAT_ELIG | CLK_REFSTAT_SOFT | CLK_REFSTAT_LOSS 
  | CLK_REFSTAT_HARDS | CLK_REFSTAT_EQL | CLK_REFSTAT_BQL | CLK_REFSTAT_WTRREM | CLK_REFOFS_OFS | CLK_REFRATE_CAUSE 
  | CLK_REFRATE_RATE | PTP_TIME_SL_SL | PTP_TIME_SH_SH | PTP_TIME_NS_NS | PTP_TIME_FR_FR | PTP_INCR_HI_INCR 
  | PTP_INCR_LO_INCR | PTP_STAT_DISC | PTP_STAT_TKV | PTP_STAT_TK | PTP_STAT_STATE0 | PTP_STAT_STATE1 
  | PTP_STAT_STEPS | PTP_OFS_OFS | PTP_SERVO_SLEW | PTP_SERVO_MAPLIM | PTP_MAP_N0_LO_N0 | PTP_MAP_N0_HI_N0 
  | PTP_MAP_T0_SL_T0 | PTP_MAP_T0_NS_T0 | PTP_MAPERR_MAPERR | PTP_CAP_S_CAP | PTP_CAP_NS_CAP | PTP_PULSE_ACT 
  | NET_PORTCFG_EN | NET_PORTCFG_SPEED | NET_PORTCFG_FEC | NET_PORTSTAT_LINK | NET_PORTSTAT_DOWNS 
  | NET_PORTSTAT_FECUNC | NET_PORTSTAT_FECCOR | NET_STAT_DROP | NET_STAT_HRXDROP | NET_STAT_LATE | NET_MACLO_MAC 
  | NET_MACHI_MAC | NET_MCFILT_MCFILT | NET_HRX_BASE_LO_BASE | NET_HRX_BASE_HI_BASE | NET_HRX_CFG_EN 
  | NET_HRX_CFG_LOG2 | NET_HRX_CFG_IRQ | NET_HRX_CFG_VEC | NET_HRX_TAIL_TAIL | NET_HRX_HEAD_HEAD 
  | NET_HTX_BASE_LO_BASE | NET_HTX_BASE_HI_BASE | NET_HTX_CFG_EN | NET_HTX_CFG_LOG2 | NET_HTX_CFG_IRQ 
  | NET_HTX_CFG_VEC | NET_HTX_TAIL_TAIL | NET_HTX_HEAD_HEAD | NET_RXSTAT_STATE | NET_RXSTAT_PATHS | NET_RXSTAT_PMIS 
  | NET_RXCNT_MISS | NET_RXCNT_LATE | NET_RXCNT_EARLY | NET_TXSTAT_RUN | NET_TXSTAT_SEQ | PORT_SAPCFG_EN 
  | PORT_SAPCFG_MASTER | PORT_SAPCFG_FMT | PORT_SAPCFG_W | PORT_SAPCFG_SLOTS | PORT_SAPCFG_DOM | PORT_SAPCFG_FN 
  | PORT_SAPCFG_FSINV | PORT_SAPCFG_BEDGE | PORT_SAPCFG_FSW | PORT_SAPCFG_DLY | PORT_SAPCFG_GROUP | PORT_SAPCFG_QUAL 
  | PORT_PDMCFG_EN | PORT_PDMCFG_RATIO | PORT_PDMCFG_MINPH | PORT_PDMCFG_DCB | PORT_PDMCFG_GROUP | PORT_AESCFG_EN 
  | PORT_AESCFG_TXEN | PORT_AESCFG_DOM | PORT_AESCFG_FN | PORT_AESCFG_CSAUTO | PORT_AESCFG_VTX | PORT_AESCFG_GROUP 
  | PORT_AESCFG_QUAL | PORT_MADICFG_EN | PORT_MADICFG_TXEN | PORT_MADICFG_CH | PORT_MADICFG_DOM | PORT_MADICFG_FN 
  | PORT_MADICFG_CSAUTO | PORT_MADICFG_GROUP | PORT_MADICFG_QUAL | PORT_STAT_STATE | PORT_STAT_LOSTS 
  | PORT_STAT_MISMS | PORT_STAT_QUALD | PORT_STAT_THETA | PORT_STAT_RATEOFS | PORT_SLIP_SLIPS | PORT_XRUN_XRUN 
  | PORT_XRUN_GLITCH | PORT_AESSTAT_LOCK | PORT_AESSTAT_PRO | PORT_AESSTAT_GRADE | PORT_AESSTAT_FS | PORT_AESSTAT_VA 
  | PORT_AESSTAT_VB | PORT_AESSTAT_CSDIFF | PORT_AESSTAT_CRCERR | PORT_AESSTAT_PARERR | PORT_AESCS_CS 
  | ROUTE_CFG_REVERT_HOLD | ROUTE_CFG_REJ | ROUTE_CFG_DRATIO | ROUTE_CFG_ZC_TIMEOUT | ROUTE_STAT_FB_SWITCHES 
  | ROUTE_STAT_ZC_TIMEOUTS | ROUTE_DLY_BASE_BASE | ROUTE_DLY_SIZE_SIZE | ROUTE_FN_CFG_EN | ROUTE_FN_CFG_SRC 
  | ROUTE_FN_CFG_INDEX | ROUTE_FN_CFG_NOM | ROUTE_FN_STAT_PRESENT | ROUTE_FN_STAT_LOST | ROUTE_FN_STAT_OFFSET 
  | ROUTE_BRCFG_EN | ROUTE_BRCFG_FN | ROUTE_BRCFG_KIND | ROUTE_BRSTAT_STATE | ROUTE_BRSTAT_UNLK | ROUTE_BRSTAT_OCT 
  | ROUTE_BRSTAT_DLYOFS | ROUTE_BRSTAT_RATIO | SUM_GP_CFG_TIMEOUT | SUM_GP_CFG_RAMP | SUM_STAT_GP_TIMEOUTS 
  | SUM_STAT_GP_SAT | SUM_PEND_NOW | SUM_PEND_MAX_MAX | SUM_DEFER_DEFER | SUM_MIX_BASE_BASE | SUM_MIX_SIZE_SIZE 
  | SUM_METER_SEQ_SEQ | SUM_METER_STAT_K | SUM_LOUD_RUN_RUN | SUM_LOUD_RESET_RESET | SUM_DUCK_ACT_ACT 
  | SUM_AMIX_HOLD_HOLD | SUM_GEN_STAT_RUN | SUM_BUSCFG_SHARED | SUM_BUSCFG_LIM_EN | SUM_BUSCFG_LOOK | SUM_LIMA_CEIL 
  | SUM_LIMA_ATTACK | SUM_LIMR_RELEASE | SUM_BUSSTAT_GR | SUM_BUSSTAT_SATCNT | SUM_BUSN_N | FAB_NODE_INFAB 
  | FAB_NODE_ROOT | FAB_NODE_TM | FAB_NODE_FLOCK | FAB_NODE_ROOTADDR | FAB_NODE_TMADDR | FAB_NODE_NODES 
  | FAB_NODE_ADDR | FAB_NODECFG_FID | FAB_NODECFG_RPRIO | FAB_NODECFG_TMPRIO | FAB_NODECFG_TMCAND | FAB_PREF_PREFV 
  | FAB_PREF_PREF | FAB_SERIAL_LO_SERIAL | FAB_SERIAL_HI_SERIAL | FAB_FRAMEOFS_LO_FRAMEOFS | FAB_FRAMEOFS_HI_FRAMEOFS 
  | FAB_GEN_GEN | FAB_LINK_CFG_EN | FAB_LINK_CFG_ASYM | FAB_LINK_STAT_STATE | FAB_LINK_STAT_FAILS 
  | FAB_LINK_STAT_SUSPECT | FAB_LINK_STAT_CAUSE | FAB_LINK_STAT_PEER | FAB_LINK_STAT_PEERLINK | FAB_LINK_DLY_DLY 
  | FAB_LINK_LOAD_TXCH | FAB_LINK_LOAD_RXCH | FAB_LINK_CNT_RETRY | FAB_LINK_CNT_CRCERR | FAB_ROUTE_VALID 
  | FAB_ROUTE_PLINK | FAB_ROUTE_AVALID | FAB_ROUTE_ALINK | FAB_ROUTE_PHOPS | FAB_ROUTE_AHOPS | FAB_RXSTAT_STATE 
  | FAB_RXSTAT_PROT | FAB_RXSTAT_ONALT | FAB_RXSTAT_SRC | FAB_RXSTAT_LP | FAB_RXSTAT_CONCEAL | FAB_TXSTAT_RES 
  | FAB_TXSTAT_PROT | FAB_TXSTAT_ONALT | FAB_TXSTAT_DST | FAB_TXSTAT_RCH | FAB_TXSTAT_LP | PAIR_CFG_MODE 
  | PAIR_CFG_SIDE | PAIR_CFG_LINK | PAIR_CFG_LEAD | PAIR_CFG_AUTOHAND | PAIR_CFG_CONV | PAIR_PEER_LO_PEER 
  | PAIR_PEER_HI_PEER | PAIR_STAT_ROLE | PAIR_STAT_PSTATE | PAIR_STAT_FORMED | PAIR_STAT_TIDE_OK | PAIR_STAT_LINK_OK 
  | PAIR_STAT_LINE | PAIR_STAT_LTOK | PAIR_STAT_AUTO | PAIR_STAT_TAKEN | PAIR_STAT_EPAGE | PAIR_CNT_TIDEMISS 
  | PAIR_CNT_HBMISS | PAIR_CRCMIS_CRCMIS | PAIR_GRP_INSYNC | PAIR_EPOCH_LAST | PAIR_EPOCH_ABANDONED 
  | PAIR_STATE_BASE_BASE | PAIR_STATE_SIZE_SIZE 
  deriving DecidableEq, Repr

/-- How software sees a field (R11). -/
inductive Acc where
  | RO | RW | WO | RW1C | RC
  deriving DecidableEq, Repr

/-- Which values a write may store (R504): any value, a range, a value stored as at least a floor (R70), a value whose low bits
are stored as 0, and the range of SYS_TEMP.TALARM, whose upper end is the grade's maximum (R499). -/
inductive Chk where
  | any | range (lo hi : Nat) | floor (lo : Nat) | low (bits : Nat) | talarm
  deriving DecidableEq, Repr

/-- One row of a register table: instance `i < count` of the register lies at `off + stride * i` of its block. -/
structure FieldRow where
  fld : Fld
  blk : Nat
  off : Nat
  stride : Nat
  count : Nat
  lo : Nat
  acc : Acc
  chk : Chk
  deriving DecidableEq, Repr

/-- The width of a field in bits. -/
def Fld.width : Fld → Nat
  | .SYS_DOMAIN_STAT_HOUSE_SB | .SYS_CONTAIN_LAST_SUBSUMED | .SYS_SUP_STAT_LSTEP_ERR | .SYS_FRAME_CFG_REJ 
  | .SYS_PACE_CFG_SHED_EN | .SYS_PACE_CFG_REINSTATE | .SYS_AVS_CTL_EN | .SYS_AVS_STAT_FAULT 
  | .SYS_AVS_STAT_AT_MAX | .SYS_FUSE_CELLSIGN | .SYS_FUSE_DBGLOCK | .SYS_FUSE_KEY1REV | .SYS_AO_CFG_ALEN 
  | .SYS_AO_CFG_PTPSET | .SYS_AO_STAT_VBLOST | .SYS_AO_STAT_ALARMED | .SYS_CELL_STAT_DBG_EN 
  | .SYS_CELL_ERR_ADDR | .SYS_CELL_ERR_PROG_DED | .SYS_CELL_LASTERR_VALID | .SYS_CELL_LASTERR_PROG 
  | .SYS_CELL_LASTERR_DED | .HOST_PCIE_STAT_LINKUP | .HOST_PCIE_STAT_DOWNS | .HOST_PCIE_STAT_OUTRNG 
  | .HOST_BOOT_STAT_SLOTB | .HOST_BOOT_STAT_WARM | .HOST_BOOT_STAT_KEEPOK | .HOST_BOOT_STAT_MANOK 
  | .HOST_BOOT_CTL_GO | .HOST_BOOT_CTL_COMMITSVN | .HOST_PWR_STAT_REJ | .HOST_RST_CTL_CYCLE 
  | .HOST_RST_CTL_WARM | .HOST_QSPI_CTL_HOSTEN | .HOST_QSPI_CTL_BUSY | .HOST_ERRVEC_EN | .HOST_CR_CFG_EN 
  | .HOST_CR_STAT_HALT | .HOST_CQ_CFG_EN | .HOST_CQ_CFG_IRQ | .HOST_EV_CFG_EN | .HOST_EV_CFG_IRQ 
  | .SCHED_STAT_CNTERR | .SCHED_SNAP_CFG_EN | .XBAR_ERR_VALID | .DDRC_CFG_EN | .DDRC_CFG_RANKS 
  | .DDRC_STAT_HOT | .DDRC_STAT_WARM | .DDRC_STAT_SENSFAIL | .DDRC_TEMP_SRC | .DDRC_SR_SREN | .DDRC_SCRUB_EN 
  | .DDRC_LOG_INFO_RANK | .CLK_SEL_SWMODE | .CLK_STAT_SELV | .CLK_STAT_PENDV | .CLK_STAT_HOVALID 
  | .CLK_OSC_F10 | .CLK_VIDCFG_FEDGE | .CLK_OUTCFG_MCLKEN | .CLK_OUTCFG_MCLKFAM | .CLK_OUTCFG_WC0EN 
  | .CLK_OUTCFG_WC1EN | .CLK_OUTCFG_FPEN | .CLK_OUTCFG_FPSRC | .CLK_PTPQL_EN | .CLK_REFCFG_EN 
  | .CLK_REFCFG_QLSRC | .CLK_REFSTAT_PRESENT | .CLK_REFSTAT_QUAL | .CLK_REFSTAT_ELIG | .CLK_REFSTAT_SOFT 
  | .CLK_REFSTAT_LOSS | .CLK_REFSTAT_HARDS | .PTP_STAT_TKV | .PTP_STAT_TK | .PTP_STAT_STEPS | .NET_PORTCFG_EN 
  | .NET_PORTSTAT_LINK | .NET_PORTSTAT_DOWNS | .NET_HRX_CFG_EN | .NET_HRX_CFG_IRQ | .NET_HTX_CFG_EN 
  | .NET_HTX_CFG_IRQ | .NET_TXSTAT_RUN | .PORT_SAPCFG_EN | .PORT_SAPCFG_MASTER | .PORT_SAPCFG_FSINV 
  | .PORT_SAPCFG_BEDGE | .PORT_SAPCFG_FSW | .PORT_SAPCFG_DLY | .PORT_PDMCFG_EN | .PORT_PDMCFG_MINPH 
  | .PORT_PDMCFG_DCB | .PORT_AESCFG_EN | .PORT_AESCFG_TXEN | .PORT_AESCFG_CSAUTO | .PORT_AESCFG_VTX 
  | .PORT_MADICFG_EN | .PORT_MADICFG_TXEN | .PORT_MADICFG_CSAUTO | .PORT_STAT_LOSTS | .PORT_STAT_MISMS 
  | .PORT_STAT_QUALD | .PORT_AESSTAT_LOCK | .PORT_AESSTAT_PRO | .PORT_AESSTAT_VA | .PORT_AESSTAT_VB 
  | .PORT_AESSTAT_CSDIFF | .ROUTE_CFG_REJ | .ROUTE_FN_CFG_EN | .ROUTE_FN_STAT_PRESENT | .ROUTE_FN_STAT_LOST 
  | .ROUTE_BRCFG_EN | .ROUTE_BRSTAT_UNLK | .SUM_BUSCFG_LIM_EN | .FAB_NODE_INFAB | .FAB_NODE_ROOT 
  | .FAB_NODE_TM | .FAB_NODE_FLOCK | .FAB_NODECFG_TMCAND | .FAB_PREF_PREFV | .FAB_LINK_CFG_EN 
  | .FAB_LINK_STAT_FAILS | .FAB_LINK_STAT_SUSPECT | .FAB_ROUTE_VALID | .FAB_ROUTE_AVALID | .FAB_RXSTAT_PROT 
  | .FAB_RXSTAT_ONALT | .FAB_TXSTAT_RES | .FAB_TXSTAT_PROT | .FAB_TXSTAT_ONALT | .PAIR_CFG_SIDE 
  | .PAIR_CFG_AUTOHAND | .PAIR_STAT_FORMED | .PAIR_STAT_TIDE_OK | .PAIR_STAT_LINK_OK | .PAIR_STAT_LINE 
  | .PAIR_STAT_LTOK | .PAIR_STAT_AUTO | .PAIR_STAT_TAKEN => 1
  | .SYS_FRAME_CFG_PULL | .SYS_CELL_STAT_STATE | .SYS_CELL_LASTERR_BANK | .HOST_BOOT_STAT_BOOTSEL 
  | .HOST_PWR_CTL_REQ | .HOST_PWR_STAT_STATE | .HOST_PWR_STAT_WAKE | .HOST_CR_STAT_TXN | .DDRC_CFG_DENS 
  | .CLK_SEL_MODE | .CLK_STAT_PHASE | .CLK_VIDCFG_LINES | .CLK_OUTCFG_MCLKDIV | .CLK_OUTCFG_WC0RATE 
  | .CLK_OUTCFG_WC1RATE | .CLK_REFCFG_MULT | .PTP_STAT_DISC | .NET_PORTCFG_SPEED | .NET_PORTCFG_FEC 
  | .NET_RXSTAT_STATE | .NET_RXSTAT_PATHS | .PORT_SAPCFG_FMT | .PORT_SAPCFG_W | .PORT_SAPCFG_DOM 
  | .PORT_AESCFG_DOM | .PORT_MADICFG_CH | .PORT_MADICFG_DOM | .PORT_AESSTAT_GRADE | .ROUTE_CFG_DRATIO 
  | .ROUTE_BRSTAT_STATE | .ROUTE_BRSTAT_OCT | .SUM_BUSCFG_SHARED | .SUM_BUSCFG_LOOK | .FAB_LINK_STAT_PEERLINK 
  | .FAB_ROUTE_PLINK | .FAB_ROUTE_ALINK | .FAB_RXSTAT_STATE | .PAIR_CFG_MODE | .PAIR_CFG_LINK 
  | .PAIR_STAT_ROLE | .PAIR_STAT_PSTATE => 2
  | .SYS_HEALTH_REGIONS | .SYS_CONTAIN_LAST_LEVEL | .SYS_FRAME_CFG_FLOG | .SYS_FRAME_CFG_RATE 
  | .SYS_PACE_STAT_STATE | .SYS_CELL_STAT_CAUSE | .HOST_CR_STAT_SLOT | .XBAR_ERR_CODE | .DDRC_STAT_STATE 
  | .DDRC_LOG_INFO_KIND | .CLK_SEL_FORCE | .CLK_SEL_SLEW | .CLK_STAT_STATE | .CLK_STAT_SEL | .CLK_STAT_PENDING 
  | .CLK_VIDCFG_FRATE | .CLK_REFCFG_TYPE | .CLK_REFCFG_BW | .PORT_PDMCFG_RATIO | .PORT_STAT_STATE 
  | .ROUTE_FN_CFG_SRC | .ROUTE_BRSTAT_DLYOFS | .FAB_LINK_STAT_STATE => 3
  | .SYS_ID_GRADE | .SYS_DMA_FENCED_DMAOK | .SYS_CONTAIN_LAST_CAUSE | .SYS_SUP_STAT_STATE 
  | .HOST_PCIE_STAT_SPEED | .HOST_PCIE_STAT_WIDTH | .HOST_REGWIN_BLK | .HOST_BOOT_STAT_STAGE 
  | .HOST_BOOT_STAT_ERR | .HOST_RST_STAT_LEVEL | .HOST_PARAM_ACT_MIRROR | .HOST_PARAM_ACT_ACT | .XBAR_MQOS_CAP 
  | .XBAR_MQOS_QOS | .XBAR_ERR_TARGET | .DDRC_REF_DEBT | .CLK_SEL_QLTHR | .CLK_SEL_HOQL | .CLK_SEL_OSCQL 
  | .CLK_STAT_OUTQL | .CLK_AESQL_GRADE1 | .CLK_AESQL_GRADE2 | .CLK_PTPQL_QL | .CLK_REFCFG_INST 
  | .CLK_REFCFG_QLPROV | .CLK_REFCFG_PRIO | .CLK_REFSTAT_EQL | .CLK_REFSTAT_BQL | .CLK_REFRATE_CAUSE 
  | .PTP_SERVO_SLEW | .PTP_PULSE_ACT | .PORT_SAPCFG_FN | .PORT_SAPCFG_GROUP | .PORT_PDMCFG_GROUP 
  | .PORT_AESCFG_FN | .PORT_AESCFG_GROUP | .PORT_MADICFG_FN | .PORT_MADICFG_GROUP | .PORT_AESSTAT_FS 
  | .ROUTE_FN_CFG_NOM | .ROUTE_BRCFG_FN | .ROUTE_BRCFG_KIND | .FAB_NODECFG_TMPRIO | .FAB_LINK_STAT_CAUSE 
  | .PAIR_CFG_LEAD => 4
  | .SYS_PACE_STAT_LOWCNT | .SYS_AO_STAT_HEAD | .HOST_CR_CFG_LOG2 | .HOST_CQ_CFG_LOG2 | .HOST_EV_CFG_LOG2 
  | .NET_HRX_CFG_LOG2 | .NET_HTX_CFG_LOG2 | .PORT_SAPCFG_SLOTS => 5
  | .SYS_HEALTH_BLOCKS | .SYS_HEALTH_SUMUNITS | .SYS_CELL_ERR_STUCK | .HOST_ERRVEC_VEC | .HOST_CQ_CFG_VEC 
  | .HOST_EV_CFG_VEC | .XBAR_ERR_MASTER | .DDRC_LOG_INFO_MASTER | .DDRC_LOG_INFO_BEAT | .CLK_STAT_HOSEC 
  | .NET_HRX_CFG_VEC | .NET_HTX_CFG_VEC | .FAB_NODE_ROOTADDR | .FAB_NODE_TMADDR | .FAB_NODE_ADDR 
  | .FAB_PREF_PREF | .FAB_LINK_STAT_PEER | .FAB_ROUTE_PHOPS | .FAB_ROUTE_AHOPS | .FAB_RXSTAT_SRC 
  | .FAB_RXSTAT_LP | .FAB_TXSTAT_DST | .FAB_TXSTAT_LP => 6
  | .DDRC_STAT_QNOW | .DDRC_STAT_QMAX | .PORT_SAPCFG_QUAL | .PORT_AESCFG_QUAL | .PORT_MADICFG_QUAL 
  | .FAB_NODE_NODES => 7
  | .SYS_ID_STEP | .SYS_HEALTH_QRANGES | .SYS_DMA_FENCED_DMAF | .SYS_PACE_STAT_SHED_CLASSES 
  | .SYS_AVS_CTL_ADDR | .SYS_AVS_STAT_NACKS | .SYS_CELL_THRESH_CORR_PER_S | .SYS_CELL_THRESH_DED_PER_H 
  | .SYS_CELL_THRESH_STUCK | .SYS_CELL_BIST_INTERVAL | .SYS_CELL_BIST_LAST_CELL | .SYS_CELL_BIST_FAILS 
  | .SYS_AO_SEC_HI_SEC | .SYS_GPIO_FUNC_FUNC | .SYS_TEMP_MAX | .SYS_TEMP_TALARM | .SYS_TEMP_CUR 
  | .SYS_CELL_ERR_CORR_1S | .SYS_CELL_ERR_DED_1H | .SYS_CELL_CNT_TRAPS | .SYS_CELL_CNT_STALLS 
  | .HOST_PCIE_STAT_CTO | .HOST_PCIE_STAT_WERR | .HOST_BAR2_BASE_HI_BASE | .HOST_RST_STAT_CAUSE 
  | .HOST_QSPI_CTL_CMD | .HOST_TXN_STAT_ACKED | .HOST_TXN_STAT_USED | .XBAR_ERRCNT_TIMEOUT 
  | .XBAR_ERRCNT_PARITY | .DDRC_REF_CATCHUPS | .DDRC_TEMP_HOSTVAL | .DDRC_TEMP_LAST | .DDRC_TEMP_ADDR 
  | .DDRC_TEMPCFG_TWARM | .DDRC_UE_CARETRY | .DDRC_UE_WCRETRY | .DDRC_LOGIDX_OVERWR | .DDRC_LOGIDX_RD 
  | .DDRC_LOG_INFO_SYNDROME | .CLK_DRIFT_SOFT | .CLK_DRIFT_HARD | .CLK_DRIFT_RATE | .CLK_CAD_N | .CLK_CAD_IDX 
  | .CLK_PTPQL_CLASS | .CLK_PTPQL_ACCMAX | .PTP_STAT_STATE0 | .PTP_STAT_STATE1 | .NET_PORTSTAT_FECUNC 
  | .NET_PORTSTAT_FECCOR | .NET_STAT_DROP | .NET_STAT_HRXDROP | .NET_RXCNT_LATE | .NET_RXCNT_EARLY 
  | .PORT_AESSTAT_CRCERR | .PORT_AESSTAT_PARERR | .ROUTE_CFG_REVERT_HOLD | .ROUTE_CFG_ZC_TIMEOUT 
  | .ROUTE_FN_CFG_INDEX | .SUM_GP_CFG_TIMEOUT | .FAB_NODECFG_RPRIO | .PAIR_EPOCH_ABANDONED => 8
  | .SYS_HEALTH_CELLS | .SYS_DOMAIN_STAT_LOST | .SYS_DOMAIN_STAT_LOCKED | .SYS_CELL_LASTERR_SYNDROME 
  | .HOST_QSPI_CTL_LEN | .DDRC_LOGIDX_COUNT => 9
  | .SYS_AVS_CTL_VMIN | .SYS_AVS_STAT_VCMD | .SCHED_ADM_CFG_UMAX | .SCHED_ADM_WORST_SHARE | .CLK_REFCFG_WTR 
  | .CLK_REFSTAT_WTRREM | .PORT_STAT_THETA => 10
  | .XBAR_STAT_MAXUSE | .XBAR_STAT_INUSE | .SUM_GP_CFG_RAMP | .FAB_TXSTAT_RCH => 11
  | .SYS_QRANGE_COUNT | .HOST_BAR2_BASE_LO_BASE | .SCHED_ADM_WORST_PART | .FAB_LINK_LOAD_TXCH 
  | .FAB_LINK_LOAD_RXCH | .PAIR_CFG_CONV => 12
  | .SCHED_QDEPTH_NOW | .DDRC_REF_MAXHOLD => 13
  | .SYS_CELL_STAT_ITEM => 14
  | .SCHED_STAT_ITEMS => 15
  | .SYS_ID_PART | .SYS_SUP_STAT_RESTARTS | .SYS_PACE_RGN_LOWEST | .SYS_PACE_RGN_NOW 
  | .SYS_PACE_STAT_SHED_ITEMS | .SYS_FUSE_SVNMIN | .SYS_CELL_CNT_OVERRUNS | .HOST_BOOT_STAT_SVN 
  | .HOST_RST_CTL_KEY | .HOST_RST_STAT_WARMS | .HOST_CR_TAIL_TAIL | .HOST_CR_HEAD_HEAD | .HOST_CR_STAT_PROGS 
  | .HOST_CQ_TAIL_TAIL | .HOST_CQ_HEAD_HEAD | .HOST_EV_TAIL_TAIL | .HOST_EV_HEAD_HEAD | .HOST_SCENE_SIZE_SIZE 
  | .HOST_TXN_CFG_IDLE | .SCHED_STAT_OVFL | .SCHED_QDEPTH_MAX | .SCHED_PREF_STAT_STEALS 
  | .SCHED_PREF_STAT_RECALLS | .SCHED_BUSY_ODD | .SCHED_BUSY_EVEN | .SCHED_LOAD_PEAK | .SCHED_LOAD_LAST 
  | .SCHED_UTIL0_SUM | .SCHED_UTIL0_BRIDGE | .SCHED_UTIL1_DMA | .SCHED_UTIL1_METER | .SCHED_SNAP_CFG_N 
  | .XBAR_ERRCNT_NODEST | .XBAR_TGT_WAITMAX | .XBAR_MEMSTAT_CE | .XBAR_MEMSTAT_UE | .DDRC_SR_IDLE 
  | .DDRC_CE_CECNT | .DDRC_CE_CERATE | .DDRC_CETHR_CETHR | .DDRC_UE_UE | .DDRC_SCRUB_PASSES | .CLK_CAD_LEN 
  | .CLK_REFRATE_RATE | .PTP_TIME_SH_SH | .PTP_TIME_FR_FR | .PTP_SERVO_MAPLIM | .NET_STAT_LATE 
  | .NET_MACHI_MAC | .NET_HRX_TAIL_TAIL | .NET_HRX_HEAD_HEAD | .NET_HTX_TAIL_TAIL | .NET_HTX_HEAD_HEAD 
  | .NET_RXSTAT_PMIS | .NET_RXCNT_MISS | .NET_TXSTAT_SEQ | .PORT_STAT_RATEOFS | .PORT_XRUN_XRUN 
  | .PORT_XRUN_GLITCH | .ROUTE_STAT_FB_SWITCHES | .ROUTE_STAT_ZC_TIMEOUTS | .SUM_STAT_GP_TIMEOUTS 
  | .SUM_STAT_GP_SAT | .SUM_METER_STAT_K | .SUM_LIMA_CEIL | .SUM_LIMA_ATTACK | .SUM_LIMR_RELEASE 
  | .SUM_BUSSTAT_GR | .SUM_BUSSTAT_SATCNT | .FAB_NODECFG_FID | .FAB_GEN_GEN | .FAB_LINK_CFG_ASYM 
  | .FAB_LINK_CNT_RETRY | .FAB_LINK_CNT_CRCERR | .FAB_RXSTAT_CONCEAL | .PAIR_STAT_EPAGE | .PAIR_CNT_TIDEMISS 
  | .PAIR_CNT_HBMISS | .PAIR_EPOCH_LAST => 16
  | .SUM_PEND_NOW | .SUM_PEND_MAX_MAX => 17
  | .SYS_CELL_LASTERR_ADDR => 18
  | .HOST_OUTB_BASE_LO_OUTB | .SUM_BUSN_N => 20
  | .HOST_PARAM_BASE_BASE | .HOST_PARAM_SIZE_SIZE | .ROUTE_DLY_BASE_BASE | .ROUTE_DLY_SIZE_SIZE 
  | .SUM_MIX_BASE_BASE | .SUM_MIX_SIZE_SIZE | .PAIR_STATE_BASE_BASE | .PAIR_STATE_SIZE_SIZE => 23
  | .SYS_CONTAIN_LAST_IDENT | .CLK_OSC_TRIM | .CLK_VIDCFG_OFFSET | .ROUTE_FN_STAT_OFFSET | .ROUTE_BRSTAT_RATIO 
  | .FAB_LINK_DLY_DLY => 24
  | _ => 32

/-- The reset value of a field, by the register's index. Every value is the one its table gives; the fused values are constants of
Config, and the values for which a table states none are named in log entry 3. -/
def Fld.reset : Fld → Nat → Nat
  | .SYS_FRAME_CFG_RATE | .SYS_PACE_CFG_SHED_EN | .SYS_PACE_CFG_REINSTATE | .SYS_AVS_CTL_EN 
  | .HOST_PWR_CTL_REQ | .HOST_PWR_STAT_STATE | .SCHED_SNAP_CFG_N | .DDRC_CFG_DENS | .DDRC_SCRUB_EN 
  | .CLK_SEL_SWMODE | .CLK_OUTCFG_MCLKDIV | .PTP_STAT_STATE0 | .PTP_STAT_STATE1 | .PORT_SAPCFG_SLOTS 
  | .PORT_PDMCFG_RATIO | .PORT_AESCFG_CSAUTO | .PORT_MADICFG_CH | .PORT_MADICFG_CSAUTO | .ROUTE_CFG_DRATIO 
  | .SUM_BUSN_N | .FAB_NODE_NODES | .PAIR_CFG_AUTOHAND | .PAIR_STAT_LINE | .PAIR_STAT_AUTO => fun _ => 1
  | .CLK_AESQL_GRADE1 | .PTP_STAT_DISC | .PORT_SAPCFG_W | .ROUTE_FN_CFG_NOM => fun _ => 2
  | .CLK_VIDCFG_LINES | .CLK_REFCFG_BW | .PAIR_CFG_LINK => fun _ => 3
  | .SYS_HEALTH_REGIONS | .SYS_FRAME_CFG_FLOG | .SYS_CELL_THRESH_STUCK | .HOST_CR_CFG_LOG2 | .HOST_CQ_CFG_LOG2 
  | .HOST_EV_CFG_LOG2 | .CLK_AESQL_GRADE2 | .PTP_INCR_HI_INCR | .NET_HRX_CFG_LOG2 | .NET_HTX_CFG_LOG2 
  | .PAIR_CFG_LEAD => fun _ => 4
  | .CLK_SEL_SLEW | .CLK_CAD_N => fun _ => 5
  | .CLK_VIDCFG_FRATE => fun _ => 6
  | .SYS_DMA_FENCED_DMAOK | .SYS_CELL_THRESH_DED_PER_H | .CLK_SEL_HOQL => fun _ => 8
  | .SYS_CELL_BIST_INTERVAL | .CLK_DRIFT_RATE | .CLK_REFCFG_WTR | .PTP_SERVO_SLEW | .PORT_SAPCFG_QUAL 
  | .PORT_AESCFG_QUAL | .PORT_MADICFG_QUAL | .ROUTE_CFG_REVERT_HOLD | .SUM_LIMA_ATTACK => fun _ => 10
  | .CLK_SEL_OSCQL | .CLK_STAT_OUTQL => fun _ => 12
  | .CLK_SEL_QLTHR => fun _ => 14
  | .CLK_REFCFG_QLPROV | .CLK_REFCFG_PRIO | .CLK_REFSTAT_EQL | .CLK_REFSTAT_BQL | .FAB_NODECFG_TMPRIO => fun _ => 15
  | .CLK_DRIFT_SOFT | .ROUTE_CFG_ZC_TIMEOUT | .SUM_GP_CFG_TIMEOUT => fun _ => 20
  | .DDRC_TEMP_ADDR => fun _ => 24
  | .PAIR_CFG_CONV => fun _ => 30
  | .SYS_HEALTH_BLOCKS | .SYS_HEALTH_SUMUNITS => fun _ => 32
  | .CLK_DRIFT_HARD => fun _ => 50
  | .SYS_AVS_CTL_ADDR | .SYS_CELL_THRESH_CORR_PER_S | .SUM_GP_CFG_RAMP => fun _ => 64
  | .DDRC_TEMPCFG_TWARM => fun _ => 80
  | .SYS_TEMP_TALARM => fun _ => 95
  | .HOST_TXN_CFG_IDLE | .DDRC_CETHR_CETHR | .SUM_LIMA_CEIL | .SUM_LIMR_RELEASE => fun _ => 100
  | .FAB_NODECFG_RPRIO => fun _ => 128
  | .SYS_HEALTH_CELLS | .HOST_BAR2_BASE_LO_BASE => fun _ => 256
  | .SYS_AVS_CTL_VMIN => fun _ => 700
  | .SYS_AVS_STAT_VCMD => fun _ => 800
  | .SCHED_ADM_CFG_UMAX => fun _ => 850
  | .DDRC_SR_IDLE => fun _ => 1000
  | .PTP_SERVO_MAPLIM => fun _ => 1024
  | .SYS_ID_PART => fun _ => 1600
  | .SYS_PACE_RGN_LOWEST | .PAIR_STAT_EPAGE => fun _ => 65535
  | .SYS_WINDOW_WINDOW => fun _ => 323300
  | .SYS_ID_STEP => fun _ => Config.stepping.toNat
  | .SYS_ID_GRADE => fun _ => Config.grade.code
  | .SYS_FUSE_CELLSIGN => fun _ => Config.cellSign.toNat
  | .SYS_FUSE_DBGLOCK => fun _ => Config.dbgLock.toNat
  | .SYS_FUSE_KEY1REV => fun _ => Config.key1Revoked.toNat
  | .SYS_FUSE_SVNMIN => fun _ => Config.svnMin.toNat
  | .SYS_TEMP_MAX => fun _ => 0x80
  | .SYS_TEMP_CUR => fun _ => 0
  | .XBAR_MQOS_CAP => fun i => if i < 34 then 11 else [14, 15, 13, 10, 14, 8].getD (i - 34) 0
  | .XBAR_MQOS_QOS => fun i => if i < 32 then 10 else [9, 9, 13, 14, 12, 8, 13, 6].getD (i - 32) 0
  | .CLK_OSC_F10 => fun _ => 0
  | .CLK_PTPQL_EN => fun i => if i < 8 then 1 else 0
  | .CLK_PTPQL_CLASS => fun i => [6, 6, 7, 13, 14, 52, 187, 248].getD i 0
  | .CLK_PTPQL_ACCMAX => fun i => if i = 0 then 0x21 else if i < 8 then 0xFE else 0
  | .CLK_PTPQL_QL => fun i => [1, 2, 3, 4, 5, 8, 8, 10].getD i 15
  | .FAB_SERIAL_LO_SERIAL => fun _ => Config.serial.toNat % 2 ^ 32
  | .FAB_SERIAL_HI_SERIAL => fun _ => Config.serial.toNat / 2 ^ 32
  | _ => fun _ => 0

/-- Rows of the register tables, part 0. -/
def fieldRows0 : List FieldRow := [
  ⟨.SYS_ID_PART, 0, 0x0, 0, 1, 16, .RO, .any⟩,
  ⟨.SYS_ID_STEP, 0, 0x0, 0, 1, 8, .RO, .any⟩,
  ⟨.SYS_ID_GRADE, 0, 0x0, 0, 1, 4, .RO, .any⟩,
  ⟨.SYS_HEALTH_CELLS, 0, 0x4, 0, 1, 23, .RO, .any⟩,
  ⟨.SYS_HEALTH_BLOCKS, 0, 0x4, 0, 1, 17, .RO, .any⟩,
  ⟨.SYS_HEALTH_REGIONS, 0, 0x4, 0, 1, 14, .RO, .any⟩,
  ⟨.SYS_HEALTH_SUMUNITS, 0, 0x4, 0, 1, 8, .RO, .any⟩,
  ⟨.SYS_HEALTH_QRANGES, 0, 0x4, 0, 1, 0, .RO, .any⟩,
  ⟨.SYS_CELL_FENCED_FENCED, 0, 0x10, 4, 9, 0, .RO, .any⟩,
  ⟨.SYS_DOMAIN_STAT_LOST, 0, 0x40, 0, 1, 16, .RW1C, .any⟩,
  ⟨.SYS_DOMAIN_STAT_HOUSE_SB, 0, 0x40, 0, 1, 9, .RO, .any⟩,
  ⟨.SYS_DOMAIN_STAT_LOCKED, 0, 0x40, 0, 1, 0, .RO, .any⟩,
  ⟨.SYS_SUM_FENCED_SUMF, 0, 0x44, 0, 1, 0, .RO, .any⟩,
  ⟨.SYS_DMA_FENCED_DMAOK, 0, 0x48, 0, 1, 8, .RO, .any⟩,
  ⟨.SYS_DMA_FENCED_DMAF, 0, 0x48, 0, 1, 0, .RO, .any⟩,
  ⟨.SYS_CONTAIN_LAST_LEVEL, 0, 0x50, 0, 1, 29, .RO, .any⟩,
  ⟨.SYS_CONTAIN_LAST_SUBSUMED, 0, 0x50, 0, 1, 28, .RC, .any⟩,
  ⟨.SYS_CONTAIN_LAST_CAUSE, 0, 0x50, 0, 1, 24, .RO, .any⟩,
  ⟨.SYS_CONTAIN_LAST_IDENT, 0, 0x50, 0, 1, 0, .RO, .any⟩,
  ⟨.SYS_CONTAIN_FRAME_LO_FRAME, 0, 0x54, 0, 1, 0, .RO, .any⟩,
  ⟨.SYS_CONTAIN_FRAME_HI_FRAME, 0, 0x58, 0, 1, 0, .RO, .any⟩,
  ⟨.SYS_SUP_STAT_RESTARTS, 0, 0x60, 0, 1, 16, .RO, .any⟩,
  ⟨.SYS_SUP_STAT_STATE, 0, 0x60, 0, 1, 4, .RO, .any⟩,
  ⟨.SYS_SUP_STAT_LSTEP_ERR, 0, 0x60, 0, 1, 3, .RW1C, .any⟩,
  ⟨.SYS_QRANGE_COUNT, 0, 0x70, 4, 4, 0, .RO, .any⟩,
  ⟨.SYS_FRAME_CFG_REJ, 0, 0x100, 0, 1, 31, .RW1C, .any⟩,
  ⟨.SYS_FRAME_CFG_FLOG, 0, 0x100, 0, 1, 5, .RW, .range 2 6⟩,
  ⟨.SYS_FRAME_CFG_PULL, 0, 0x100, 0, 1, 3, .RW, .range 0 2⟩,
  ⟨.SYS_FRAME_CFG_RATE, 0, 0x100, 0, 1, 0, .RW, .range 0 3⟩,
  ⟨.SYS_FRAME_CNT_LO_FRAME, 0, 0x104, 0, 1, 0, .RO, .any⟩,
  ⟨.SYS_FRAME_CNT_HI_FRAME, 0, 0x108, 0, 1, 0, .RO, .any⟩,
  ⟨.SYS_WINDOW_WINDOW, 0, 0x10C, 0, 1, 0, .RO, .any⟩,
  ⟨.SYS_PACE_RGN_LOWEST, 0, 0x110, 4, 4, 16, .RC, .any⟩,
  ⟨.SYS_PACE_RGN_NOW, 0, 0x110, 4, 4, 0, .RO, .any⟩,
  ⟨.SYS_PACE_STAT_SHED_ITEMS, 0, 0x120, 0, 1, 16, .RO, .any⟩,
  ⟨.SYS_PACE_STAT_SHED_CLASSES, 0, 0x120, 0, 1, 8, .RO, .any⟩,
  ⟨.SYS_PACE_STAT_LOWCNT, 0, 0x120, 0, 1, 3, .RC, .any⟩,
  ⟨.SYS_PACE_STAT_STATE, 0, 0x120, 0, 1, 0, .RO, .any⟩,
  ⟨.SYS_PACE_CFG_SHED_EN, 0, 0x124, 0, 1, 1, .RW, .any⟩,
  ⟨.SYS_PACE_CFG_REINSTATE, 0, 0x124, 0, 1, 0, .RW, .any⟩]

/-- Rows of the register tables, part 1. -/
def fieldRows1 : List FieldRow := [
  ⟨.SYS_AVS_CTL_VMIN, 0, 0x128, 0, 1, 16, .RW, .floor 700⟩,
  ⟨.SYS_AVS_CTL_ADDR, 0, 0x128, 0, 1, 8, .RW, .any⟩,
  ⟨.SYS_AVS_CTL_EN, 0, 0x128, 0, 1, 0, .RW, .any⟩,
  ⟨.SYS_AVS_STAT_NACKS, 0, 0x12C, 0, 1, 24, .RC, .any⟩,
  ⟨.SYS_AVS_STAT_FAULT, 0, 0x12C, 0, 1, 17, .RW1C, .any⟩,
  ⟨.SYS_AVS_STAT_AT_MAX, 0, 0x12C, 0, 1, 16, .RO, .any⟩,
  ⟨.SYS_AVS_STAT_VCMD, 0, 0x12C, 0, 1, 0, .RO, .any⟩,
  ⟨.SYS_CONCEAL_TOTAL_CONCEAL, 0, 0x130, 0, 1, 0, .RO, .any⟩,
  ⟨.SYS_LATE_FRAMES_LATE, 0, 0x134, 0, 1, 0, .RO, .any⟩,
  ⟨.SYS_CELL_THRESH_CORR_PER_S, 0, 0x140, 0, 1, 24, .RW, .any⟩,
  ⟨.SYS_CELL_THRESH_DED_PER_H, 0, 0x140, 0, 1, 16, .RW, .any⟩,
  ⟨.SYS_CELL_THRESH_STUCK, 0, 0x140, 0, 1, 8, .RW, .any⟩,
  ⟨.SYS_CELL_BIST_INTERVAL, 0, 0x144, 0, 1, 16, .RW, .any⟩,
  ⟨.SYS_CELL_BIST_LAST_CELL, 0, 0x144, 0, 1, 8, .RO, .any⟩,
  ⟨.SYS_CELL_BIST_FAILS, 0, 0x144, 0, 1, 0, .RO, .any⟩,
  ⟨.SYS_FUSE_CELLSIGN, 0, 0x200, 0, 1, 31, .RO, .any⟩,
  ⟨.SYS_FUSE_DBGLOCK, 0, 0x200, 0, 1, 30, .RO, .any⟩,
  ⟨.SYS_FUSE_KEY1REV, 0, 0x200, 0, 1, 29, .RO, .any⟩,
  ⟨.SYS_FUSE_SVNMIN, 0, 0x200, 0, 1, 0, .RO, .any⟩,
  ⟨.SYS_AO_SEC_LO_SEC, 0, 0x210, 0, 1, 0, .RW, .any⟩,
  ⟨.SYS_AO_SEC_HI_SEC, 0, 0x214, 0, 1, 0, .RW, .any⟩,
  ⟨.SYS_AO_ALARM_ALARM, 0, 0x218, 0, 1, 0, .RW, .any⟩,
  ⟨.SYS_AO_CFG_ALEN, 0, 0x21C, 0, 1, 31, .RW, .any⟩,
  ⟨.SYS_AO_CFG_PTPSET, 0, 0x21C, 0, 1, 30, .RW, .any⟩,
  ⟨.SYS_AO_STAT_VBLOST, 0, 0x220, 0, 1, 31, .RW1C, .any⟩,
  ⟨.SYS_AO_STAT_ALARMED, 0, 0x220, 0, 1, 30, .RW1C, .any⟩,
  ⟨.SYS_AO_STAT_HEAD, 0, 0x220, 0, 1, 0, .RO, .any⟩,
  ⟨.SYS_GPIO_DIR_DIR, 0, 0x240, 0, 1, 0, .RW, .any⟩,
  ⟨.SYS_GPIO_OUT_OUT, 0, 0x244, 0, 1, 0, .RW, .any⟩,
  ⟨.SYS_GPIO_IN_IN, 0, 0x248, 0, 1, 0, .RO, .any⟩,
  ⟨.SYS_GPIO_FUNC_FUNC, 0, 0x24C, 0, 1, 0, .RW, .any⟩,
  ⟨.SYS_TEMP_MAX, 0, 0x250, 0, 1, 24, .RC, .any⟩,
  ⟨.SYS_TEMP_TALARM, 0, 0x250, 0, 1, 16, .RW, .talarm⟩,
  ⟨.SYS_TEMP_CUR, 0, 0x250, 0, 1, 0, .RO, .any⟩,
  ⟨.SYS_AO_LOG_LOG, 0, 0x400, 4, 256, 0, .RO, .any⟩,
  ⟨.SYS_CELL_STAT_STATE, 0, 0x1000, 16, 256, 30, .RO, .any⟩,
  ⟨.SYS_CELL_STAT_DBG_EN, 0, 0x1000, 16, 256, 29, .RW, .any⟩,
  ⟨.SYS_CELL_STAT_CAUSE, 0, 0x1000, 16, 256, 26, .RO, .any⟩,
  ⟨.SYS_CELL_STAT_ITEM, 0, 0x1000, 16, 256, 0, .RO, .any⟩,
  ⟨.SYS_CELL_ERR_CORR_1S, 0, 0x1004, 16, 256, 24, .RO, .any⟩]

/-- Rows of the register tables, part 2. -/
def fieldRows2 : List FieldRow := [
  ⟨.SYS_CELL_ERR_DED_1H, 0, 0x1004, 16, 256, 16, .RO, .any⟩,
  ⟨.SYS_CELL_ERR_ADDR, 0, 0x1004, 16, 256, 15, .RW1C, .any⟩,
  ⟨.SYS_CELL_ERR_PROG_DED, 0, 0x1004, 16, 256, 14, .RW1C, .any⟩,
  ⟨.SYS_CELL_ERR_STUCK, 0, 0x1004, 16, 256, 8, .RO, .any⟩,
  ⟨.SYS_CELL_CNT_OVERRUNS, 0, 0x1008, 16, 256, 16, .RC, .any⟩,
  ⟨.SYS_CELL_CNT_TRAPS, 0, 0x1008, 16, 256, 8, .RC, .any⟩,
  ⟨.SYS_CELL_CNT_STALLS, 0, 0x1008, 16, 256, 0, .RC, .any⟩,
  ⟨.SYS_CELL_LASTERR_VALID, 0, 0x100C, 16, 256, 31, .RC, .any⟩,
  ⟨.SYS_CELL_LASTERR_PROG, 0, 0x100C, 16, 256, 30, .RO, .any⟩,
  ⟨.SYS_CELL_LASTERR_DED, 0, 0x100C, 16, 256, 29, .RO, .any⟩,
  ⟨.SYS_CELL_LASTERR_BANK, 0, 0x100C, 16, 256, 27, .RO, .any⟩,
  ⟨.SYS_CELL_LASTERR_SYNDROME, 0, 0x100C, 16, 256, 18, .RO, .any⟩,
  ⟨.SYS_CELL_LASTERR_ADDR, 0, 0x100C, 16, 256, 0, .RO, .any⟩,
  ⟨.HOST_PCIE_STAT_SPEED, 1, 0x0, 0, 1, 28, .RO, .any⟩,
  ⟨.HOST_PCIE_STAT_WIDTH, 1, 0x0, 0, 1, 24, .RO, .any⟩,
  ⟨.HOST_PCIE_STAT_LINKUP, 1, 0x0, 0, 1, 23, .RO, .any⟩,
  ⟨.HOST_PCIE_STAT_DOWNS, 1, 0x0, 0, 1, 22, .RW1C, .any⟩,
  ⟨.HOST_PCIE_STAT_OUTRNG, 1, 0x0, 0, 1, 21, .RW1C, .any⟩,
  ⟨.HOST_PCIE_STAT_CTO, 1, 0x0, 0, 1, 8, .RC, .any⟩,
  ⟨.HOST_PCIE_STAT_WERR, 1, 0x0, 0, 1, 0, .RC, .any⟩,
  ⟨.HOST_BAR2_BASE_LO_BASE, 1, 0x4, 0, 1, 20, .RW, .any⟩,
  ⟨.HOST_BAR2_BASE_HI_BASE, 1, 0x8, 0, 1, 0, .RW, .any⟩,
  ⟨.HOST_OUTB_BASE_LO_OUTB, 1, 0xC, 0, 1, 12, .RW, .any⟩,
  ⟨.HOST_OUTB_BASE_HI_OUTB, 1, 0x10, 0, 1, 0, .RW, .any⟩,
  ⟨.HOST_REGWIN_BLK, 1, 0x14, 0, 1, 0, .RW, .range 0 12⟩,
  ⟨.HOST_BOOT_STAT_STAGE, 1, 0x20, 0, 1, 28, .RO, .any⟩,
  ⟨.HOST_BOOT_STAT_ERR, 1, 0x20, 0, 1, 24, .RO, .any⟩,
  ⟨.HOST_BOOT_STAT_SLOTB, 1, 0x20, 0, 1, 23, .RO, .any⟩,
  ⟨.HOST_BOOT_STAT_WARM, 1, 0x20, 0, 1, 22, .RO, .any⟩,
  ⟨.HOST_BOOT_STAT_KEEPOK, 1, 0x20, 0, 1, 21, .RO, .any⟩,
  ⟨.HOST_BOOT_STAT_MANOK, 1, 0x20, 0, 1, 20, .RO, .any⟩,
  ⟨.HOST_BOOT_STAT_BOOTSEL, 1, 0x20, 0, 1, 16, .RO, .any⟩,
  ⟨.HOST_BOOT_STAT_SVN, 1, 0x20, 0, 1, 0, .RO, .any⟩,
  ⟨.HOST_BOOT_CTL_GO, 1, 0x24, 0, 1, 31, .WO, .any⟩,
  ⟨.HOST_BOOT_CTL_COMMITSVN, 1, 0x24, 0, 1, 30, .WO, .any⟩,
  ⟨.HOST_PROGMAN_LO_MAN, 1, 0x28, 0, 1, 0, .RW, .any⟩,
  ⟨.HOST_PROGMAN_HI_MAN, 1, 0x2C, 0, 1, 0, .RW, .any⟩,
  ⟨.HOST_PWR_CTL_REQ, 1, 0x30, 0, 1, 0, .RW, .range 0 2⟩,
  ⟨.HOST_PWR_STAT_STATE, 1, 0x34, 0, 1, 30, .RO, .any⟩,
  ⟨.HOST_PWR_STAT_REJ, 1, 0x34, 0, 1, 29, .RW1C, .any⟩]

/-- Rows of the register tables, part 3. -/
def fieldRows3 : List FieldRow := [
  ⟨.HOST_PWR_STAT_WAKE, 1, 0x34, 0, 1, 27, .RO, .any⟩,
  ⟨.HOST_RST_CTL_KEY, 1, 0x38, 0, 1, 16, .WO, .any⟩,
  ⟨.HOST_RST_CTL_CYCLE, 1, 0x38, 0, 1, 1, .WO, .any⟩,
  ⟨.HOST_RST_CTL_WARM, 1, 0x38, 0, 1, 0, .WO, .any⟩,
  ⟨.HOST_RST_STAT_LEVEL, 1, 0x3C, 0, 1, 28, .RO, .any⟩,
  ⟨.HOST_RST_STAT_CAUSE, 1, 0x3C, 0, 1, 20, .RO, .any⟩,
  ⟨.HOST_RST_STAT_WARMS, 1, 0x3C, 0, 1, 0, .RO, .any⟩,
  ⟨.HOST_QSPI_CTL_HOSTEN, 1, 0x40, 0, 1, 31, .RW, .any⟩,
  ⟨.HOST_QSPI_CTL_BUSY, 1, 0x40, 0, 1, 30, .RO, .any⟩,
  ⟨.HOST_QSPI_CTL_CMD, 1, 0x40, 0, 1, 16, .RW, .any⟩,
  ⟨.HOST_QSPI_CTL_LEN, 1, 0x40, 0, 1, 0, .RW, .range 0 256⟩,
  ⟨.HOST_QSPI_DATA_DATA, 1, 0x44, 0, 1, 0, .RW, .any⟩,
  ⟨.HOST_QSPI_ADDR_ADDR, 1, 0x48, 0, 1, 0, .RW, .any⟩,
  ⟨.HOST_ERRVEC_EN, 1, 0x4C, 0, 1, 6, .RW, .any⟩,
  ⟨.HOST_ERRVEC_VEC, 1, 0x4C, 0, 1, 0, .RW, .any⟩,
  ⟨.HOST_CR_BASE_LO_BASE, 1, 0x1000, 32, 8, 0, .RW, .low 12⟩,
  ⟨.HOST_CR_BASE_HI_BASE, 1, 0x1004, 32, 8, 0, .RW, .any⟩,
  ⟨.HOST_CR_CFG_EN, 1, 0x1008, 32, 8, 31, .RW, .any⟩,
  ⟨.HOST_CR_CFG_LOG2, 1, 0x1008, 32, 8, 16, .RW, .range 4 16⟩,
  ⟨.HOST_CR_TAIL_TAIL, 1, 0x100C, 32, 8, 0, .RW, .any⟩,
  ⟨.HOST_CR_HEAD_HEAD, 1, 0x1010, 32, 8, 0, .RO, .any⟩,
  ⟨.HOST_CR_SEQ_SEQ, 1, 0x1014, 32, 8, 0, .RW, .any⟩,
  ⟨.HOST_CR_STAT_HALT, 1, 0x1018, 32, 8, 31, .RO, .any⟩,
  ⟨.HOST_CR_STAT_TXN, 1, 0x1018, 32, 8, 29, .RO, .any⟩,
  ⟨.HOST_CR_STAT_SLOT, 1, 0x1018, 32, 8, 26, .RO, .any⟩,
  ⟨.HOST_CR_STAT_PROGS, 1, 0x1018, 32, 8, 0, .RC, .any⟩,
  ⟨.HOST_CQ_BASE_LO_BASE, 1, 0x1100, 32, 8, 0, .RW, .low 12⟩,
  ⟨.HOST_CQ_BASE_HI_BASE, 1, 0x1104, 32, 8, 0, .RW, .any⟩,
  ⟨.HOST_CQ_CFG_EN, 1, 0x1108, 32, 8, 31, .RW, .any⟩,
  ⟨.HOST_CQ_CFG_LOG2, 1, 0x1108, 32, 8, 16, .RW, .range 4 16⟩,
  ⟨.HOST_CQ_CFG_IRQ, 1, 0x1108, 32, 8, 11, .RW, .any⟩,
  ⟨.HOST_CQ_CFG_VEC, 1, 0x1108, 32, 8, 0, .RW, .any⟩,
  ⟨.HOST_CQ_TAIL_TAIL, 1, 0x110C, 32, 8, 0, .RO, .any⟩,
  ⟨.HOST_CQ_HEAD_HEAD, 1, 0x1110, 32, 8, 0, .RW, .any⟩,
  ⟨.HOST_EV_BASE_LO_BASE, 1, 0x1200, 0, 1, 0, .RW, .low 12⟩,
  ⟨.HOST_EV_BASE_HI_BASE, 1, 0x1204, 0, 1, 0, .RW, .any⟩,
  ⟨.HOST_EV_CFG_EN, 1, 0x1208, 0, 1, 31, .RW, .any⟩,
  ⟨.HOST_EV_CFG_LOG2, 1, 0x1208, 0, 1, 16, .RW, .range 4 16⟩,
  ⟨.HOST_EV_CFG_IRQ, 1, 0x1208, 0, 1, 11, .RW, .any⟩,
  ⟨.HOST_EV_CFG_VEC, 1, 0x1208, 0, 1, 0, .RW, .any⟩]

/-- Rows of the register tables, part 4. -/
def fieldRows4 : List FieldRow := [
  ⟨.HOST_EV_TAIL_TAIL, 1, 0x120C, 0, 1, 0, .RO, .any⟩,
  ⟨.HOST_EV_HEAD_HEAD, 1, 0x1210, 0, 1, 0, .RW, .any⟩,
  ⟨.HOST_EV_LOST_LOST, 1, 0x1214, 0, 1, 0, .RC, .any⟩,
  ⟨.HOST_STAGE_BASE_LO_BASE, 1, 0x1300, 0, 1, 0, .RW, .low 20⟩,
  ⟨.HOST_STAGE_BASE_HI_BASE, 1, 0x1304, 0, 1, 0, .RW, .any⟩,
  ⟨.HOST_SCENE_BASE_LO_BASE, 1, 0x1308, 0, 1, 0, .RW, .low 20⟩,
  ⟨.HOST_SCENE_BASE_HI_BASE, 1, 0x130C, 0, 1, 0, .RW, .any⟩,
  ⟨.HOST_SCENE_SIZE_SIZE, 1, 0x1310, 0, 1, 0, .RW, .range 0 16384⟩,
  ⟨.HOST_TXN_CFG_IDLE, 1, 0x1314, 0, 1, 0, .RW, .range 1 65535⟩,
  ⟨.HOST_TXN_STAT_ACKED, 1, 0x1318, 0, 1, 8, .RO, .any⟩,
  ⟨.HOST_TXN_STAT_USED, 1, 0x1318, 0, 1, 0, .RO, .any⟩,
  ⟨.HOST_PARAM_BASE_BASE, 1, 0x1320, 4, 4, 0, .RW, .low 12⟩,
  ⟨.HOST_PARAM_SIZE_SIZE, 1, 0x1330, 4, 4, 0, .RW, .low 12⟩,
  ⟨.HOST_PARAM_ACT_MIRROR, 1, 0x1340, 0, 1, 4, .RO, .any⟩,
  ⟨.HOST_PARAM_ACT_ACT, 1, 0x1340, 0, 1, 0, .RO, .any⟩,
  ⟨.SCHED_MODE_PREFETCH, 2, 0x4, 0, 1, 0, .RW, .any⟩,
  ⟨.SCHED_STAT_OVFL, 2, 0x8, 0, 1, 16, .RC, .any⟩,
  ⟨.SCHED_STAT_CNTERR, 2, 0x8, 0, 1, 15, .RW1C, .any⟩,
  ⟨.SCHED_STAT_ITEMS, 2, 0x8, 0, 1, 0, .RO, .any⟩,
  ⟨.SCHED_DLMISS_DLMISS, 2, 0xC, 0, 1, 0, .RC, .any⟩,
  ⟨.SCHED_QDEPTH_MAX, 2, 0x10, 4, 5, 16, .RC, .any⟩,
  ⟨.SCHED_QDEPTH_NOW, 2, 0x10, 4, 5, 0, .RO, .any⟩,
  ⟨.SCHED_PREF_STAT_STEALS, 2, 0x24, 0, 1, 16, .RC, .any⟩,
  ⟨.SCHED_PREF_STAT_RECALLS, 2, 0x24, 0, 1, 0, .RC, .any⟩,
  ⟨.SCHED_HIST_COUNT, 2, 0x100, 4, 128, 0, .RC, .any⟩,
  ⟨.SCHED_BUSY_ODD, 2, 0x400, 4, 128, 16, .RO, .any⟩,
  ⟨.SCHED_BUSY_EVEN, 2, 0x400, 4, 128, 0, .RO, .any⟩,
  ⟨.SCHED_LOAD_PEAK, 2, 0x600, 4, 4, 16, .RC, .any⟩,
  ⟨.SCHED_LOAD_LAST, 2, 0x600, 4, 4, 0, .RO, .any⟩,
  ⟨.SCHED_UTIL0_SUM, 2, 0x610, 0, 1, 16, .RO, .any⟩,
  ⟨.SCHED_UTIL0_BRIDGE, 2, 0x610, 0, 1, 0, .RO, .any⟩,
  ⟨.SCHED_UTIL1_DMA, 2, 0x614, 0, 1, 16, .RO, .any⟩,
  ⟨.SCHED_UTIL1_METER, 2, 0x614, 0, 1, 0, .RO, .any⟩,
  ⟨.SCHED_SNAP_CFG_EN, 2, 0x620, 0, 1, 16, .RW, .any⟩,
  ⟨.SCHED_SNAP_CFG_N, 2, 0x620, 0, 1, 0, .RW, .range 1 65535⟩,
  ⟨.SCHED_ADM_CFG_UMAX, 2, 0x800, 0, 1, 0, .RW, .range 500 920⟩,
  ⟨.SCHED_ADM_BOUND_BOUND, 2, 0x804, 0, 1, 0, .RO, .any⟩,
  ⟨.SCHED_ADM_WORST_PART, 2, 0x808, 0, 1, 20, .RO, .any⟩,
  ⟨.SCHED_ADM_WORST_SHARE, 2, 0x808, 0, 1, 0, .RO, .any⟩,
  ⟨.XBAR_MQOS_CAP, 3, 0x0, 4, 40, 4, .RW, .any⟩]

/-- Rows of the register tables, part 5. -/
def fieldRows5 : List FieldRow := [
  ⟨.XBAR_MQOS_QOS, 3, 0x0, 4, 40, 0, .RW, .any⟩,
  ⟨.XBAR_STAT_MAXUSE, 3, 0x100, 0, 1, 16, .RC, .any⟩,
  ⟨.XBAR_STAT_INUSE, 3, 0x100, 0, 1, 0, .RO, .any⟩,
  ⟨.XBAR_ERR_VALID, 3, 0x104, 0, 1, 31, .RC, .any⟩,
  ⟨.XBAR_ERR_CODE, 3, 0x104, 0, 1, 28, .RO, .any⟩,
  ⟨.XBAR_ERR_MASTER, 3, 0x104, 0, 1, 22, .RO, .any⟩,
  ⟨.XBAR_ERR_TARGET, 3, 0x104, 0, 1, 18, .RO, .any⟩,
  ⟨.XBAR_ERRADDR_LO_ADDR, 3, 0x108, 0, 1, 0, .RO, .any⟩,
  ⟨.XBAR_ERRADDR_HI_ADDR, 3, 0x10C, 0, 1, 0, .RO, .any⟩,
  ⟨.XBAR_ERRCNT_NODEST, 3, 0x110, 0, 1, 16, .RC, .any⟩,
  ⟨.XBAR_ERRCNT_TIMEOUT, 3, 0x110, 0, 1, 8, .RC, .any⟩,
  ⟨.XBAR_ERRCNT_PARITY, 3, 0x110, 0, 1, 0, .RC, .any⟩,
  ⟨.XBAR_TGT_WAITMAX, 3, 0x200, 4, 16, 16, .RC, .any⟩,
  ⟨.XBAR_MEMSTAT_CE, 3, 0x300, 4, 16, 16, .RC, .any⟩,
  ⟨.XBAR_MEMSTAT_UE, 3, 0x300, 4, 16, 0, .RC, .any⟩,
  ⟨.DDRC_CFG_EN, 4, 0x0, 0, 1, 31, .RW, .any⟩,
  ⟨.DDRC_CFG_RANKS, 4, 0x0, 0, 1, 30, .RW, .any⟩,
  ⟨.DDRC_CFG_DENS, 4, 0x0, 0, 1, 28, .RW, .range 0 1⟩,
  ⟨.DDRC_STAT_STATE, 4, 0x4, 0, 1, 29, .RO, .any⟩,
  ⟨.DDRC_STAT_HOT, 4, 0x4, 0, 1, 28, .RO, .any⟩,
  ⟨.DDRC_STAT_WARM, 4, 0x4, 0, 1, 27, .RO, .any⟩,
  ⟨.DDRC_STAT_SENSFAIL, 4, 0x4, 0, 1, 26, .RO, .any⟩,
  ⟨.DDRC_STAT_QNOW, 4, 0x4, 0, 1, 16, .RO, .any⟩,
  ⟨.DDRC_STAT_QMAX, 4, 0x4, 0, 1, 8, .RC, .any⟩,
  ⟨.DDRC_REF_DEBT, 4, 0x8, 0, 1, 28, .RO, .any⟩,
  ⟨.DDRC_REF_CATCHUPS, 4, 0x8, 0, 1, 16, .RC, .any⟩,
  ⟨.DDRC_REF_MAXHOLD, 4, 0x8, 0, 1, 0, .RC, .any⟩,
  ⟨.DDRC_TEMP_SRC, 4, 0xC, 0, 1, 31, .RW, .any⟩,
  ⟨.DDRC_TEMP_HOSTVAL, 4, 0xC, 0, 1, 16, .RW, .any⟩,
  ⟨.DDRC_TEMP_LAST, 4, 0xC, 0, 1, 8, .RO, .any⟩,
  ⟨.DDRC_TEMP_ADDR, 4, 0xC, 0, 1, 0, .RW, .any⟩,
  ⟨.DDRC_TEMPCFG_TWARM, 4, 0x10, 0, 1, 0, .RW, .range 70 84⟩,
  ⟨.DDRC_SR_SREN, 4, 0x14, 0, 1, 31, .RW, .any⟩,
  ⟨.DDRC_SR_IDLE, 4, 0x14, 0, 1, 0, .RW, .range 1 65535⟩,
  ⟨.DDRC_CE_CECNT, 4, 0x18, 0, 1, 16, .RC, .any⟩,
  ⟨.DDRC_CE_CERATE, 4, 0x18, 0, 1, 0, .RO, .any⟩,
  ⟨.DDRC_CETHR_CETHR, 4, 0x1C, 0, 1, 0, .RW, .any⟩,
  ⟨.DDRC_UE_UE, 4, 0x20, 0, 1, 16, .RC, .any⟩,
  ⟨.DDRC_UE_CARETRY, 4, 0x20, 0, 1, 8, .RC, .any⟩,
  ⟨.DDRC_UE_WCRETRY, 4, 0x20, 0, 1, 0, .RC, .any⟩]

/-- Rows of the register tables, part 6. -/
def fieldRows6 : List FieldRow := [
  ⟨.DDRC_SCRUB_EN, 4, 0x24, 0, 1, 31, .RW, .any⟩,
  ⟨.DDRC_SCRUB_PASSES, 4, 0x24, 0, 1, 0, .RO, .any⟩,
  ⟨.DDRC_BANKCONF_BANKCONF, 4, 0x28, 0, 1, 0, .RC, .any⟩,
  ⟨.DDRC_LOGIDX_COUNT, 4, 0x30, 0, 1, 16, .RO, .any⟩,
  ⟨.DDRC_LOGIDX_OVERWR, 4, 0x30, 0, 1, 8, .RC, .any⟩,
  ⟨.DDRC_LOGIDX_RD, 4, 0x30, 0, 1, 0, .RW, .any⟩,
  ⟨.DDRC_LOG_ADDR_LO_ADDR, 4, 0x34, 0, 1, 0, .RO, .any⟩,
  ⟨.DDRC_LOG_ADDR_HI_ADDR, 4, 0x38, 0, 1, 0, .RO, .any⟩,
  ⟨.DDRC_LOG_INFO_KIND, 4, 0x3C, 0, 1, 29, .RO, .any⟩,
  ⟨.DDRC_LOG_INFO_MASTER, 4, 0x3C, 0, 1, 23, .RO, .any⟩,
  ⟨.DDRC_LOG_INFO_RANK, 4, 0x3C, 0, 1, 22, .RO, .any⟩,
  ⟨.DDRC_LOG_INFO_BEAT, 4, 0x3C, 0, 1, 16, .RO, .any⟩,
  ⟨.DDRC_LOG_INFO_SYNDROME, 4, 0x3C, 0, 1, 8, .RO, .any⟩,
  ⟨.DDRC_LOG_FRAME_LO_FRAME, 4, 0x40, 0, 1, 0, .RO, .any⟩,
  ⟨.DDRC_LOG_FRAME_HI_FRAME, 4, 0x44, 0, 1, 0, .RO, .any⟩,
  ⟨.CLK_SEL_MODE, 5, 0x0, 0, 1, 30, .RO, .any⟩,
  ⟨.CLK_SEL_FORCE, 5, 0x0, 0, 1, 27, .RO, .any⟩,
  ⟨.CLK_SEL_QLTHR, 5, 0x0, 0, 1, 20, .RO, .any⟩,
  ⟨.CLK_SEL_HOQL, 5, 0x0, 0, 1, 16, .RO, .any⟩,
  ⟨.CLK_SEL_OSCQL, 5, 0x0, 0, 1, 12, .RO, .any⟩,
  ⟨.CLK_SEL_SWMODE, 5, 0x0, 0, 1, 11, .RO, .any⟩,
  ⟨.CLK_SEL_SLEW, 5, 0x0, 0, 1, 8, .RO, .any⟩,
  ⟨.CLK_STAT_STATE, 5, 0x4, 0, 1, 29, .RO, .any⟩,
  ⟨.CLK_STAT_PHASE, 5, 0x4, 0, 1, 27, .RO, .any⟩,
  ⟨.CLK_STAT_SEL, 5, 0x4, 0, 1, 24, .RO, .any⟩,
  ⟨.CLK_STAT_SELV, 5, 0x4, 0, 1, 23, .RO, .any⟩,
  ⟨.CLK_STAT_PENDING, 5, 0x4, 0, 1, 20, .RO, .any⟩,
  ⟨.CLK_STAT_PENDV, 5, 0x4, 0, 1, 19, .RO, .any⟩,
  ⟨.CLK_STAT_OUTQL, 5, 0x4, 0, 1, 15, .RO, .any⟩,
  ⟨.CLK_STAT_HOVALID, 5, 0x4, 0, 1, 14, .RO, .any⟩,
  ⟨.CLK_STAT_HOSEC, 5, 0x4, 0, 1, 0, .RO, .any⟩,
  ⟨.CLK_FREQ_FREQ, 5, 0x8, 0, 1, 0, .RO, .any⟩,
  ⟨.CLK_PHERR_PHERR, 5, 0xC, 0, 1, 0, .RO, .any⟩,
  ⟨.CLK_BUILDOUT_BUILDOUT, 5, 0x10, 0, 1, 0, .RO, .any⟩,
  ⟨.CLK_HOFREQ_HOFREQ, 5, 0x14, 0, 1, 0, .RO, .any⟩,
  ⟨.CLK_DRIFT_SOFT, 5, 0x20, 0, 1, 24, .RO, .any⟩,
  ⟨.CLK_DRIFT_HARD, 5, 0x20, 0, 1, 16, .RO, .any⟩,
  ⟨.CLK_DRIFT_RATE, 5, 0x20, 0, 1, 8, .RO, .any⟩,
  ⟨.CLK_OSC_F10, 5, 0x24, 0, 1, 31, .RO, .any⟩,
  ⟨.CLK_OSC_TRIM, 5, 0x24, 0, 1, 0, .RO, .any⟩]

/-- Rows of the register tables, part 7. -/
def fieldRows7 : List FieldRow := [
  ⟨.CLK_AESQL_GRADE1, 5, 0x28, 0, 1, 4, .RO, .any⟩,
  ⟨.CLK_AESQL_GRADE2, 5, 0x28, 0, 1, 0, .RO, .any⟩,
  ⟨.CLK_VIDCFG_FRATE, 5, 0x2C, 0, 1, 29, .RO, .any⟩,
  ⟨.CLK_VIDCFG_LINES, 5, 0x2C, 0, 1, 27, .RO, .any⟩,
  ⟨.CLK_VIDCFG_FEDGE, 5, 0x2C, 0, 1, 26, .RO, .any⟩,
  ⟨.CLK_VIDCFG_OFFSET, 5, 0x2C, 0, 1, 0, .RO, .any⟩,
  ⟨.CLK_OUTCFG_MCLKEN, 5, 0x30, 0, 1, 31, .RO, .any⟩,
  ⟨.CLK_OUTCFG_MCLKDIV, 5, 0x30, 0, 1, 29, .RO, .any⟩,
  ⟨.CLK_OUTCFG_MCLKFAM, 5, 0x30, 0, 1, 28, .RO, .any⟩,
  ⟨.CLK_OUTCFG_WC0EN, 5, 0x30, 0, 1, 27, .RO, .any⟩,
  ⟨.CLK_OUTCFG_WC0RATE, 5, 0x30, 0, 1, 25, .RO, .any⟩,
  ⟨.CLK_OUTCFG_WC1EN, 5, 0x30, 0, 1, 24, .RO, .any⟩,
  ⟨.CLK_OUTCFG_WC1RATE, 5, 0x30, 0, 1, 22, .RO, .any⟩,
  ⟨.CLK_OUTCFG_FPEN, 5, 0x30, 0, 1, 21, .RO, .any⟩,
  ⟨.CLK_OUTCFG_FPSRC, 5, 0x30, 0, 1, 20, .RO, .any⟩,
  ⟨.CLK_CAD_N, 5, 0x34, 0, 1, 24, .RO, .any⟩,
  ⟨.CLK_CAD_IDX, 5, 0x34, 0, 1, 16, .RO, .any⟩,
  ⟨.CLK_CAD_LEN, 5, 0x34, 0, 1, 0, .RO, .any⟩,
  ⟨.CLK_PTPQL_EN, 5, 0x40, 4, 16, 31, .RO, .any⟩,
  ⟨.CLK_PTPQL_CLASS, 5, 0x40, 4, 16, 16, .RO, .any⟩,
  ⟨.CLK_PTPQL_ACCMAX, 5, 0x40, 4, 16, 8, .RO, .any⟩,
  ⟨.CLK_PTPQL_QL, 5, 0x40, 4, 16, 0, .RO, .any⟩,
  ⟨.CLK_REFCFG_EN, 5, 0x100, 16, 8, 31, .RO, .any⟩,
  ⟨.CLK_REFCFG_TYPE, 5, 0x100, 16, 8, 28, .RO, .any⟩,
  ⟨.CLK_REFCFG_INST, 5, 0x100, 16, 8, 24, .RO, .any⟩,
  ⟨.CLK_REFCFG_MULT, 5, 0x100, 16, 8, 22, .RO, .any⟩,
  ⟨.CLK_REFCFG_QLSRC, 5, 0x100, 16, 8, 21, .RO, .any⟩,
  ⟨.CLK_REFCFG_QLPROV, 5, 0x100, 16, 8, 17, .RO, .any⟩,
  ⟨.CLK_REFCFG_PRIO, 5, 0x100, 16, 8, 13, .RO, .any⟩,
  ⟨.CLK_REFCFG_WTR, 5, 0x100, 16, 8, 3, .RO, .any⟩,
  ⟨.CLK_REFCFG_BW, 5, 0x100, 16, 8, 0, .RO, .any⟩,
  ⟨.CLK_REFSTAT_PRESENT, 5, 0x104, 16, 8, 31, .RO, .any⟩,
  ⟨.CLK_REFSTAT_QUAL, 5, 0x104, 16, 8, 30, .RO, .any⟩,
  ⟨.CLK_REFSTAT_ELIG, 5, 0x104, 16, 8, 29, .RO, .any⟩,
  ⟨.CLK_REFSTAT_SOFT, 5, 0x104, 16, 8, 28, .RO, .any⟩,
  ⟨.CLK_REFSTAT_LOSS, 5, 0x104, 16, 8, 27, .RW1C, .any⟩,
  ⟨.CLK_REFSTAT_HARDS, 5, 0x104, 16, 8, 26, .RW1C, .any⟩,
  ⟨.CLK_REFSTAT_EQL, 5, 0x104, 16, 8, 22, .RO, .any⟩,
  ⟨.CLK_REFSTAT_BQL, 5, 0x104, 16, 8, 18, .RO, .any⟩,
  ⟨.CLK_REFSTAT_WTRREM, 5, 0x104, 16, 8, 0, .RO, .any⟩]

/-- Rows of the register tables, part 8. -/
def fieldRows8 : List FieldRow := [
  ⟨.CLK_REFOFS_OFS, 5, 0x108, 16, 8, 0, .RO, .any⟩,
  ⟨.CLK_REFRATE_CAUSE, 5, 0x10C, 16, 8, 28, .RO, .any⟩,
  ⟨.CLK_REFRATE_RATE, 5, 0x10C, 16, 8, 0, .RO, .any⟩,
  ⟨.PTP_TIME_SL_SL, 6, 0x0, 0, 1, 0, .RO, .any⟩,
  ⟨.PTP_TIME_SH_SH, 6, 0x4, 0, 1, 0, .RO, .any⟩,
  ⟨.PTP_TIME_NS_NS, 6, 0x8, 0, 1, 0, .RO, .any⟩,
  ⟨.PTP_TIME_FR_FR, 6, 0xC, 0, 1, 0, .RO, .any⟩,
  ⟨.PTP_INCR_HI_INCR, 6, 0x10, 0, 1, 0, .RO, .any⟩,
  ⟨.PTP_INCR_LO_INCR, 6, 0x14, 0, 1, 0, .RO, .any⟩,
  ⟨.PTP_STAT_DISC, 6, 0x18, 0, 1, 30, .RO, .any⟩,
  ⟨.PTP_STAT_TKV, 6, 0x18, 0, 1, 29, .RO, .any⟩,
  ⟨.PTP_STAT_TK, 6, 0x18, 0, 1, 28, .RO, .any⟩,
  ⟨.PTP_STAT_STATE0, 6, 0x18, 0, 1, 20, .RO, .any⟩,
  ⟨.PTP_STAT_STATE1, 6, 0x18, 0, 1, 12, .RO, .any⟩,
  ⟨.PTP_STAT_STEPS, 6, 0x18, 0, 1, 11, .RW1C, .any⟩,
  ⟨.PTP_OFS_OFS, 6, 0x20, 4, 2, 0, .RO, .any⟩,
  ⟨.PTP_SERVO_SLEW, 6, 0x28, 0, 1, 28, .RO, .any⟩,
  ⟨.PTP_SERVO_MAPLIM, 6, 0x28, 0, 1, 0, .RO, .any⟩,
  ⟨.PTP_MAP_N0_LO_N0, 6, 0x30, 0, 1, 0, .RO, .any⟩,
  ⟨.PTP_MAP_N0_HI_N0, 6, 0x34, 0, 1, 0, .RO, .any⟩,
  ⟨.PTP_MAP_T0_SL_T0, 6, 0x38, 0, 1, 0, .RO, .any⟩,
  ⟨.PTP_MAP_T0_NS_T0, 6, 0x3C, 0, 1, 0, .RO, .any⟩,
  ⟨.PTP_MAPERR_MAPERR, 6, 0x40, 0, 1, 0, .RO, .any⟩,
  ⟨.PTP_CAP_S_CAP, 6, 0x80, 8, 4, 0, .RC, .any⟩,
  ⟨.PTP_CAP_NS_CAP, 6, 0x84, 8, 4, 0, .RC, .any⟩,
  ⟨.PTP_PULSE_ACT, 6, 0xA0, 0, 1, 0, .RO, .any⟩,
  ⟨.NET_PORTCFG_EN, 7, 0x0, 4, 3, 31, .RW, .any⟩,
  ⟨.NET_PORTCFG_SPEED, 7, 0x0, 4, 3, 29, .RW, .range 0 2⟩,
  ⟨.NET_PORTCFG_FEC, 7, 0x0, 4, 3, 27, .RW, .range 0 2⟩,
  ⟨.NET_PORTSTAT_LINK, 7, 0x10, 4, 3, 31, .RO, .any⟩,
  ⟨.NET_PORTSTAT_DOWNS, 7, 0x10, 4, 3, 30, .RW1C, .any⟩,
  ⟨.NET_PORTSTAT_FECUNC, 7, 0x10, 4, 3, 8, .RC, .any⟩,
  ⟨.NET_PORTSTAT_FECCOR, 7, 0x10, 4, 3, 0, .RC, .any⟩,
  ⟨.NET_STAT_DROP, 7, 0x20, 0, 1, 24, .RC, .any⟩,
  ⟨.NET_STAT_HRXDROP, 7, 0x20, 0, 1, 16, .RC, .any⟩,
  ⟨.NET_STAT_LATE, 7, 0x20, 0, 1, 0, .RC, .any⟩,
  ⟨.NET_MACLO_MAC, 7, 0x40, 8, 3, 0, .RW, .any⟩,
  ⟨.NET_MACHI_MAC, 7, 0x44, 8, 3, 0, .RW, .any⟩,
  ⟨.NET_MCFILT_MCFILT, 7, 0x80, 4, 16, 0, .RW, .any⟩,
  ⟨.NET_HRX_BASE_LO_BASE, 7, 0x100, 0, 1, 0, .RW, .low 12⟩]

/-- Rows of the register tables, part 9. -/
def fieldRows9 : List FieldRow := [
  ⟨.NET_HRX_BASE_HI_BASE, 7, 0x104, 0, 1, 0, .RW, .any⟩,
  ⟨.NET_HRX_CFG_EN, 7, 0x108, 0, 1, 31, .RW, .any⟩,
  ⟨.NET_HRX_CFG_LOG2, 7, 0x108, 0, 1, 16, .RW, .range 4 16⟩,
  ⟨.NET_HRX_CFG_IRQ, 7, 0x108, 0, 1, 11, .RW, .any⟩,
  ⟨.NET_HRX_CFG_VEC, 7, 0x108, 0, 1, 0, .RW, .any⟩,
  ⟨.NET_HRX_TAIL_TAIL, 7, 0x10C, 0, 1, 0, .RW, .any⟩,
  ⟨.NET_HRX_HEAD_HEAD, 7, 0x110, 0, 1, 0, .RO, .any⟩,
  ⟨.NET_HTX_BASE_LO_BASE, 7, 0x120, 0, 1, 0, .RW, .low 12⟩,
  ⟨.NET_HTX_BASE_HI_BASE, 7, 0x124, 0, 1, 0, .RW, .any⟩,
  ⟨.NET_HTX_CFG_EN, 7, 0x128, 0, 1, 31, .RW, .any⟩,
  ⟨.NET_HTX_CFG_LOG2, 7, 0x128, 0, 1, 16, .RW, .range 4 16⟩,
  ⟨.NET_HTX_CFG_IRQ, 7, 0x128, 0, 1, 11, .RW, .any⟩,
  ⟨.NET_HTX_CFG_VEC, 7, 0x128, 0, 1, 0, .RW, .any⟩,
  ⟨.NET_HTX_TAIL_TAIL, 7, 0x12C, 0, 1, 0, .RW, .any⟩,
  ⟨.NET_HTX_HEAD_HEAD, 7, 0x130, 0, 1, 0, .RO, .any⟩,
  ⟨.NET_RXSTAT_STATE, 7, 0x1000, 8, 512, 30, .RO, .any⟩,
  ⟨.NET_RXSTAT_PATHS, 7, 0x1000, 8, 512, 28, .RO, .any⟩,
  ⟨.NET_RXSTAT_PMIS, 7, 0x1000, 8, 512, 0, .RC, .any⟩,
  ⟨.NET_RXCNT_MISS, 7, 0x1004, 8, 512, 16, .RC, .any⟩,
  ⟨.NET_RXCNT_LATE, 7, 0x1004, 8, 512, 8, .RC, .any⟩,
  ⟨.NET_RXCNT_EARLY, 7, 0x1004, 8, 512, 0, .RC, .any⟩,
  ⟨.NET_TXSTAT_RUN, 7, 0x2000, 4, 512, 31, .RO, .any⟩,
  ⟨.NET_TXSTAT_SEQ, 7, 0x2000, 4, 512, 0, .RO, .any⟩,
  ⟨.PORT_SAPCFG_EN, 8, 0x0, 4, 32, 31, .RO, .any⟩,
  ⟨.PORT_SAPCFG_MASTER, 8, 0x0, 4, 32, 30, .RO, .any⟩,
  ⟨.PORT_SAPCFG_FMT, 8, 0x0, 4, 32, 28, .RO, .any⟩,
  ⟨.PORT_SAPCFG_W, 8, 0x0, 4, 32, 26, .RO, .any⟩,
  ⟨.PORT_SAPCFG_SLOTS, 8, 0x0, 4, 32, 21, .RO, .any⟩,
  ⟨.PORT_SAPCFG_DOM, 8, 0x0, 4, 32, 19, .RO, .any⟩,
  ⟨.PORT_SAPCFG_FN, 8, 0x0, 4, 32, 15, .RO, .any⟩,
  ⟨.PORT_SAPCFG_FSINV, 8, 0x0, 4, 32, 14, .RO, .any⟩,
  ⟨.PORT_SAPCFG_BEDGE, 8, 0x0, 4, 32, 13, .RO, .any⟩,
  ⟨.PORT_SAPCFG_FSW, 8, 0x0, 4, 32, 12, .RO, .any⟩,
  ⟨.PORT_SAPCFG_DLY, 8, 0x0, 4, 32, 11, .RO, .any⟩,
  ⟨.PORT_SAPCFG_GROUP, 8, 0x0, 4, 32, 7, .RO, .any⟩,
  ⟨.PORT_SAPCFG_QUAL, 8, 0x0, 4, 32, 0, .RO, .any⟩,
  ⟨.PORT_PDMCFG_EN, 8, 0x80, 4, 8, 31, .RO, .any⟩,
  ⟨.PORT_PDMCFG_RATIO, 8, 0x80, 4, 8, 28, .RO, .any⟩,
  ⟨.PORT_PDMCFG_MINPH, 8, 0x80, 4, 8, 27, .RO, .any⟩,
  ⟨.PORT_PDMCFG_DCB, 8, 0x80, 4, 8, 26, .RO, .any⟩]

/-- Rows of the register tables, part 10. -/
def fieldRows10 : List FieldRow := [
  ⟨.PORT_PDMCFG_GROUP, 8, 0x80, 4, 8, 7, .RO, .any⟩,
  ⟨.PORT_AESCFG_EN, 8, 0xA0, 4, 16, 31, .RO, .any⟩,
  ⟨.PORT_AESCFG_TXEN, 8, 0xA0, 4, 16, 30, .RO, .any⟩,
  ⟨.PORT_AESCFG_DOM, 8, 0xA0, 4, 16, 19, .RO, .any⟩,
  ⟨.PORT_AESCFG_FN, 8, 0xA0, 4, 16, 15, .RO, .any⟩,
  ⟨.PORT_AESCFG_CSAUTO, 8, 0xA0, 4, 16, 14, .RO, .any⟩,
  ⟨.PORT_AESCFG_VTX, 8, 0xA0, 4, 16, 13, .RO, .any⟩,
  ⟨.PORT_AESCFG_GROUP, 8, 0xA0, 4, 16, 7, .RO, .any⟩,
  ⟨.PORT_AESCFG_QUAL, 8, 0xA0, 4, 16, 0, .RO, .any⟩,
  ⟨.PORT_MADICFG_EN, 8, 0xE0, 4, 4, 31, .RO, .any⟩,
  ⟨.PORT_MADICFG_TXEN, 8, 0xE0, 4, 4, 30, .RO, .any⟩,
  ⟨.PORT_MADICFG_CH, 8, 0xE0, 4, 4, 28, .RO, .any⟩,
  ⟨.PORT_MADICFG_DOM, 8, 0xE0, 4, 4, 19, .RO, .any⟩,
  ⟨.PORT_MADICFG_FN, 8, 0xE0, 4, 4, 15, .RO, .any⟩,
  ⟨.PORT_MADICFG_CSAUTO, 8, 0xE0, 4, 4, 14, .RO, .any⟩,
  ⟨.PORT_MADICFG_GROUP, 8, 0xE0, 4, 4, 7, .RO, .any⟩,
  ⟨.PORT_MADICFG_QUAL, 8, 0xE0, 4, 4, 0, .RO, .any⟩,
  ⟨.PORT_STAT_STATE, 8, 0x100, 4, 60, 29, .RO, .any⟩,
  ⟨.PORT_STAT_LOSTS, 8, 0x100, 4, 60, 28, .RW1C, .any⟩,
  ⟨.PORT_STAT_MISMS, 8, 0x100, 4, 60, 27, .RW1C, .any⟩,
  ⟨.PORT_STAT_QUALD, 8, 0x100, 4, 60, 26, .RO, .any⟩,
  ⟨.PORT_STAT_THETA, 8, 0x100, 4, 60, 16, .RO, .any⟩,
  ⟨.PORT_STAT_RATEOFS, 8, 0x100, 4, 60, 0, .RO, .any⟩,
  ⟨.PORT_SLIP_SLIPS, 8, 0x200, 4, 60, 0, .RC, .any⟩,
  ⟨.PORT_XRUN_XRUN, 8, 0x300, 4, 60, 16, .RC, .any⟩,
  ⟨.PORT_XRUN_GLITCH, 8, 0x300, 4, 60, 0, .RC, .any⟩,
  ⟨.PORT_AESSTAT_LOCK, 8, 0x400, 4, 16, 31, .RO, .any⟩,
  ⟨.PORT_AESSTAT_PRO, 8, 0x400, 4, 16, 30, .RO, .any⟩,
  ⟨.PORT_AESSTAT_GRADE, 8, 0x400, 4, 16, 28, .RO, .any⟩,
  ⟨.PORT_AESSTAT_FS, 8, 0x400, 4, 16, 24, .RO, .any⟩,
  ⟨.PORT_AESSTAT_VA, 8, 0x400, 4, 16, 23, .RO, .any⟩,
  ⟨.PORT_AESSTAT_VB, 8, 0x400, 4, 16, 22, .RO, .any⟩,
  ⟨.PORT_AESSTAT_CSDIFF, 8, 0x400, 4, 16, 21, .RO, .any⟩,
  ⟨.PORT_AESSTAT_CRCERR, 8, 0x400, 4, 16, 8, .RC, .any⟩,
  ⟨.PORT_AESSTAT_PARERR, 8, 0x400, 4, 16, 0, .RC, .any⟩,
  ⟨.PORT_AESCS_CS, 8, 0x800, 4, 128, 0, .RO, .any⟩,
  ⟨.ROUTE_CFG_REVERT_HOLD, 9, 0x0, 0, 1, 24, .RW, .range 1 255⟩,
  ⟨.ROUTE_CFG_REJ, 9, 0x0, 0, 1, 11, .RW1C, .any⟩,
  ⟨.ROUTE_CFG_DRATIO, 9, 0x0, 0, 1, 8, .RW, .range 1 2⟩,
  ⟨.ROUTE_CFG_ZC_TIMEOUT, 9, 0x0, 0, 1, 0, .RW, .range 1 200⟩]

/-- Rows of the register tables, part 11. -/
def fieldRows11 : List FieldRow := [
  ⟨.ROUTE_STAT_FB_SWITCHES, 9, 0x4, 0, 1, 16, .RC, .any⟩,
  ⟨.ROUTE_STAT_ZC_TIMEOUTS, 9, 0x4, 0, 1, 0, .RC, .any⟩,
  ⟨.ROUTE_DLY_BASE_BASE, 9, 0x10, 4, 4, 0, .RW, .low 12⟩,
  ⟨.ROUTE_DLY_SIZE_SIZE, 9, 0x20, 4, 4, 0, .RW, .low 12⟩,
  ⟨.ROUTE_FN_CFG_EN, 9, 0x100, 4, 16, 31, .RW, .any⟩,
  ⟨.ROUTE_FN_CFG_SRC, 9, 0x100, 4, 16, 28, .RW, .range 0 4⟩,
  ⟨.ROUTE_FN_CFG_INDEX, 9, 0x100, 4, 16, 16, .RW, .any⟩,
  ⟨.ROUTE_FN_CFG_NOM, 9, 0x100, 4, 16, 0, .RW, .range 0 6⟩,
  ⟨.ROUTE_FN_STAT_PRESENT, 9, 0x140, 4, 16, 31, .RO, .any⟩,
  ⟨.ROUTE_FN_STAT_LOST, 9, 0x140, 4, 16, 30, .RW1C, .any⟩,
  ⟨.ROUTE_FN_STAT_OFFSET, 9, 0x140, 4, 16, 0, .RO, .any⟩,
  ⟨.ROUTE_BRCFG_EN, 9, 0x400, 4, 256, 31, .RW, .any⟩,
  ⟨.ROUTE_BRCFG_FN, 9, 0x400, 4, 256, 24, .RW, .any⟩,
  ⟨.ROUTE_BRCFG_KIND, 9, 0x400, 4, 256, 0, .RW, .range 1 6⟩,
  ⟨.ROUTE_BRSTAT_STATE, 9, 0x800, 4, 256, 30, .RO, .any⟩,
  ⟨.ROUTE_BRSTAT_UNLK, 9, 0x800, 4, 256, 29, .RW1C, .any⟩,
  ⟨.ROUTE_BRSTAT_OCT, 9, 0x800, 4, 256, 27, .RO, .any⟩,
  ⟨.ROUTE_BRSTAT_DLYOFS, 9, 0x800, 4, 256, 24, .RO, .any⟩,
  ⟨.ROUTE_BRSTAT_RATIO, 9, 0x800, 4, 256, 0, .RO, .any⟩,
  ⟨.SUM_GP_CFG_TIMEOUT, 10, 0x0, 0, 1, 16, .RW, .range 1 200⟩,
  ⟨.SUM_GP_CFG_RAMP, 10, 0x0, 0, 1, 0, .RW, .range 16 1024⟩,
  ⟨.SUM_STAT_GP_TIMEOUTS, 10, 0x4, 0, 1, 16, .RC, .any⟩,
  ⟨.SUM_STAT_GP_SAT, 10, 0x4, 0, 1, 0, .RC, .any⟩,
  ⟨.SUM_PEND_NOW, 10, 0x8, 0, 1, 0, .RO, .any⟩,
  ⟨.SUM_PEND_MAX_MAX, 10, 0xC, 0, 1, 0, .RC, .any⟩,
  ⟨.SUM_DEFER_DEFER, 10, 0x10, 0, 1, 0, .RC, .any⟩,
  ⟨.SUM_MIX_BASE_BASE, 10, 0x20, 4, 4, 0, .RW, .low 12⟩,
  ⟨.SUM_MIX_SIZE_SIZE, 10, 0x30, 4, 4, 0, .RW, .low 12⟩,
  ⟨.SUM_METER_SEQ_SEQ, 10, 0x40, 0, 1, 0, .RO, .any⟩,
  ⟨.SUM_METER_STAT_K, 10, 0x44, 0, 1, 0, .RO, .any⟩,
  ⟨.SUM_LOUD_RUN_RUN, 10, 0x50, 4, 2, 0, .RW, .any⟩,
  ⟨.SUM_LOUD_RESET_RESET, 10, 0x58, 4, 2, 0, .WO, .any⟩,
  ⟨.SUM_DUCK_ACT_ACT, 10, 0x60, 0, 1, 0, .RO, .any⟩,
  ⟨.SUM_AMIX_HOLD_HOLD, 10, 0x64, 0, 1, 0, .RO, .any⟩,
  ⟨.SUM_GEN_STAT_RUN, 10, 0x68, 0, 1, 0, .RO, .any⟩,
  ⟨.SUM_BUSCFG_SHARED, 10, 0x1000, 4, 256, 29, .RW, .range 0 2⟩,
  ⟨.SUM_BUSCFG_LIM_EN, 10, 0x1000, 4, 256, 28, .RW, .any⟩,
  ⟨.SUM_BUSCFG_LOOK, 10, 0x1000, 4, 256, 26, .RW, .range 0 2⟩,
  ⟨.SUM_LIMA_CEIL, 10, 0x1400, 4, 256, 16, .RW, .range 1 2000⟩,
  ⟨.SUM_LIMA_ATTACK, 10, 0x1400, 4, 256, 0, .RW, .range 1 10000⟩]

/-- Rows of the register tables, part 12. -/
def fieldRows12 : List FieldRow := [
  ⟨.SUM_LIMR_RELEASE, 10, 0x1800, 4, 256, 0, .RW, .range 1 5000⟩,
  ⟨.SUM_BUSSTAT_GR, 10, 0x1C00, 4, 256, 16, .RO, .any⟩,
  ⟨.SUM_BUSSTAT_SATCNT, 10, 0x1C00, 4, 256, 0, .RC, .any⟩,
  ⟨.SUM_BUSN_N, 10, 0x2000, 4, 32, 0, .RO, .any⟩,
  ⟨.FAB_NODE_INFAB, 11, 0x0, 0, 1, 31, .RO, .any⟩,
  ⟨.FAB_NODE_ROOT, 11, 0x0, 0, 1, 30, .RO, .any⟩,
  ⟨.FAB_NODE_TM, 11, 0x0, 0, 1, 29, .RO, .any⟩,
  ⟨.FAB_NODE_FLOCK, 11, 0x0, 0, 1, 28, .RO, .any⟩,
  ⟨.FAB_NODE_ROOTADDR, 11, 0x0, 0, 1, 22, .RO, .any⟩,
  ⟨.FAB_NODE_TMADDR, 11, 0x0, 0, 1, 16, .RO, .any⟩,
  ⟨.FAB_NODE_NODES, 11, 0x0, 0, 1, 8, .RO, .any⟩,
  ⟨.FAB_NODE_ADDR, 11, 0x0, 0, 1, 0, .RO, .any⟩,
  ⟨.FAB_NODECFG_FID, 11, 0x4, 0, 1, 16, .RO, .any⟩,
  ⟨.FAB_NODECFG_RPRIO, 11, 0x4, 0, 1, 8, .RO, .any⟩,
  ⟨.FAB_NODECFG_TMPRIO, 11, 0x4, 0, 1, 4, .RO, .any⟩,
  ⟨.FAB_NODECFG_TMCAND, 11, 0x4, 0, 1, 3, .RO, .any⟩,
  ⟨.FAB_PREF_PREFV, 11, 0x8, 0, 1, 6, .RO, .any⟩,
  ⟨.FAB_PREF_PREF, 11, 0x8, 0, 1, 0, .RO, .any⟩,
  ⟨.FAB_SERIAL_LO_SERIAL, 11, 0xC, 0, 1, 0, .RO, .any⟩,
  ⟨.FAB_SERIAL_HI_SERIAL, 11, 0x10, 0, 1, 0, .RO, .any⟩,
  ⟨.FAB_FRAMEOFS_LO_FRAMEOFS, 11, 0x14, 0, 1, 0, .RO, .any⟩,
  ⟨.FAB_FRAMEOFS_HI_FRAMEOFS, 11, 0x18, 0, 1, 0, .RO, .any⟩,
  ⟨.FAB_GEN_GEN, 11, 0x1C, 0, 1, 0, .RO, .any⟩,
  ⟨.FAB_LINK_CFG_EN, 11, 0x100, 32, 4, 31, .RO, .any⟩,
  ⟨.FAB_LINK_CFG_ASYM, 11, 0x100, 32, 4, 0, .RO, .any⟩,
  ⟨.FAB_LINK_STAT_STATE, 11, 0x104, 32, 4, 29, .RO, .any⟩,
  ⟨.FAB_LINK_STAT_FAILS, 11, 0x104, 32, 4, 28, .RW1C, .any⟩,
  ⟨.FAB_LINK_STAT_SUSPECT, 11, 0x104, 32, 4, 27, .RO, .any⟩,
  ⟨.FAB_LINK_STAT_CAUSE, 11, 0x104, 32, 4, 23, .RO, .any⟩,
  ⟨.FAB_LINK_STAT_PEER, 11, 0x104, 32, 4, 17, .RO, .any⟩,
  ⟨.FAB_LINK_STAT_PEERLINK, 11, 0x104, 32, 4, 15, .RO, .any⟩,
  ⟨.FAB_LINK_DLY_DLY, 11, 0x108, 32, 4, 0, .RO, .any⟩,
  ⟨.FAB_LINK_LOAD_TXCH, 11, 0x10C, 32, 4, 16, .RO, .any⟩,
  ⟨.FAB_LINK_LOAD_RXCH, 11, 0x10C, 32, 4, 0, .RO, .any⟩,
  ⟨.FAB_LINK_CNT_RETRY, 11, 0x110, 32, 4, 16, .RC, .any⟩,
  ⟨.FAB_LINK_CNT_CRCERR, 11, 0x110, 32, 4, 0, .RC, .any⟩,
  ⟨.FAB_ROUTE_VALID, 11, 0x400, 4, 64, 31, .RO, .any⟩,
  ⟨.FAB_ROUTE_PLINK, 11, 0x400, 4, 64, 29, .RO, .any⟩,
  ⟨.FAB_ROUTE_AVALID, 11, 0x400, 4, 64, 28, .RO, .any⟩,
  ⟨.FAB_ROUTE_ALINK, 11, 0x400, 4, 64, 26, .RO, .any⟩]

/-- Rows of the register tables, part 13. -/
def fieldRows13 : List FieldRow := [
  ⟨.FAB_ROUTE_PHOPS, 11, 0x400, 4, 64, 20, .RO, .any⟩,
  ⟨.FAB_ROUTE_AHOPS, 11, 0x400, 4, 64, 14, .RO, .any⟩,
  ⟨.FAB_RXSTAT_STATE, 11, 0x2000, 4, 2048, 30, .RO, .any⟩,
  ⟨.FAB_RXSTAT_PROT, 11, 0x2000, 4, 2048, 29, .RO, .any⟩,
  ⟨.FAB_RXSTAT_ONALT, 11, 0x2000, 4, 2048, 28, .RO, .any⟩,
  ⟨.FAB_RXSTAT_SRC, 11, 0x2000, 4, 2048, 22, .RO, .any⟩,
  ⟨.FAB_RXSTAT_LP, 11, 0x2000, 4, 2048, 16, .RO, .any⟩,
  ⟨.FAB_RXSTAT_CONCEAL, 11, 0x2000, 4, 2048, 0, .RC, .any⟩,
  ⟨.FAB_TXSTAT_RES, 11, 0x4000, 4, 2048, 31, .RO, .any⟩,
  ⟨.FAB_TXSTAT_PROT, 11, 0x4000, 4, 2048, 30, .RO, .any⟩,
  ⟨.FAB_TXSTAT_ONALT, 11, 0x4000, 4, 2048, 29, .RO, .any⟩,
  ⟨.FAB_TXSTAT_DST, 11, 0x4000, 4, 2048, 23, .RO, .any⟩,
  ⟨.FAB_TXSTAT_RCH, 11, 0x4000, 4, 2048, 12, .RO, .any⟩,
  ⟨.FAB_TXSTAT_LP, 11, 0x4000, 4, 2048, 6, .RO, .any⟩,
  ⟨.PAIR_CFG_MODE, 12, 0x0, 0, 1, 30, .RO, .any⟩,
  ⟨.PAIR_CFG_SIDE, 12, 0x0, 0, 1, 29, .RO, .any⟩,
  ⟨.PAIR_CFG_LINK, 12, 0x0, 0, 1, 27, .RO, .any⟩,
  ⟨.PAIR_CFG_LEAD, 12, 0x0, 0, 1, 23, .RO, .any⟩,
  ⟨.PAIR_CFG_AUTOHAND, 12, 0x0, 0, 1, 22, .RO, .any⟩,
  ⟨.PAIR_CFG_CONV, 12, 0x0, 0, 1, 0, .RO, .any⟩,
  ⟨.PAIR_PEER_LO_PEER, 12, 0x4, 0, 1, 0, .RO, .any⟩,
  ⟨.PAIR_PEER_HI_PEER, 12, 0x8, 0, 1, 0, .RO, .any⟩,
  ⟨.PAIR_STAT_ROLE, 12, 0xC, 0, 1, 30, .RO, .any⟩,
  ⟨.PAIR_STAT_PSTATE, 12, 0xC, 0, 1, 28, .RO, .any⟩,
  ⟨.PAIR_STAT_FORMED, 12, 0xC, 0, 1, 27, .RO, .any⟩,
  ⟨.PAIR_STAT_TIDE_OK, 12, 0xC, 0, 1, 26, .RO, .any⟩,
  ⟨.PAIR_STAT_LINK_OK, 12, 0xC, 0, 1, 25, .RO, .any⟩,
  ⟨.PAIR_STAT_LINE, 12, 0xC, 0, 1, 24, .RO, .any⟩,
  ⟨.PAIR_STAT_LTOK, 12, 0xC, 0, 1, 23, .RO, .any⟩,
  ⟨.PAIR_STAT_AUTO, 12, 0xC, 0, 1, 22, .RO, .any⟩,
  ⟨.PAIR_STAT_TAKEN, 12, 0xC, 0, 1, 21, .RW1C, .any⟩,
  ⟨.PAIR_STAT_EPAGE, 12, 0xC, 0, 1, 0, .RO, .any⟩,
  ⟨.PAIR_CNT_TIDEMISS, 12, 0x10, 0, 1, 16, .RC, .any⟩,
  ⟨.PAIR_CNT_HBMISS, 12, 0x10, 0, 1, 0, .RC, .any⟩,
  ⟨.PAIR_CRCMIS_CRCMIS, 12, 0x14, 0, 1, 0, .RC, .any⟩,
  ⟨.PAIR_GRP_INSYNC, 12, 0x18, 4, 2, 0, .RO, .any⟩,
  ⟨.PAIR_EPOCH_LAST, 12, 0x20, 0, 1, 16, .RO, .any⟩,
  ⟨.PAIR_EPOCH_ABANDONED, 12, 0x20, 0, 1, 8, .RC, .any⟩,
  ⟨.PAIR_STATE_BASE_BASE, 12, 0x40, 4, 4, 0, .RW, .low 12⟩,
  ⟨.PAIR_STATE_SIZE_SIZE, 12, 0x50, 4, 4, 0, .RW, .low 12⟩]

/-- Every row of every register table. -/
def fieldRows : List FieldRow :=
  fieldRows0 ++ fieldRows1 ++ fieldRows2 ++ fieldRows3 ++ fieldRows4 ++ fieldRows5 ++ fieldRows6 ++ fieldRows7 ++ fieldRows8 ++ fieldRows9 ++ fieldRows10 ++ fieldRows11 ++ fieldRows12 ++ fieldRows13

end Sys2Proof.Machine
end

