-- ==== Sys2Proof/Machine/SMap.lean ====
section
/-! DEFINITION. Sparse tables in one canonical form: the list of the entries that differ from the table's default, keys strictly
rising. Equal tables are equal lists. -/
namespace Sys2Proof.Machine

/-- A sparse table of values by number. -/
abbrev Table (α : Type) := List (Nat × α)

/-- The entry `i`; an entry that is not listed reads as `d`. -/
def tget {α : Type} (d : α) : Table α → Nat → α
  | [], _ => d
  | p :: t, i => if p.1 = i then p.2 else tget d t i

/-- The table without entry `i`. -/
def terase {α : Type} : Table α → Nat → Table α
  | [], _ => []
  | p :: t, i => if p.1 = i then terase t i else p :: terase t i

/-- Puts an entry before the first larger key. -/
def tinsert {α : Type} : Table α → Nat → α → Table α
  | [], i, v => [(i, v)]
  | p :: t, i, v => if i < p.1 then (i, v) :: p :: t else p :: tinsert t i v

/-- Writes entry `i`; writing the default removes the entry. -/
def tput {α : Type} [DecidableEq α] (d : α) (t : Table α) (i : Nat) (v : α) : Table α :=
  if v = d then terase t i else tinsert (terase t i) i v

/-- Every key of the table is above `lo`, and the keys rise strictly. -/
def tsortedFrom {α : Type} : Nat → Table α → Bool
  | _, [] => true
  | lo, p :: t => decide (lo ≤ p.1) && tsortedFrom (p.1 + 1) t

/-- No entry is the default. -/
def tdense {α : Type} [DecidableEq α] (d : α) : Table α → Bool
  | [] => true
  | p :: t => !decide (p.2 = d) && tdense d t

/-- The canonical form. -/
def twf {α : Type} [DecidableEq α] (d : α) (t : Table α) : Bool := tsortedFrom 0 t && tdense d t

end Sys2Proof.Machine
end

