-- ==== Sys2Proof/Machine/State.lean ====
section
/-! DEFINITION. The state of the MV640: every register, table, queue and pin the spec gives the engine, as plain data, the queue of
waiting commands, the reasons a step can stop, and the state right after reset. -/
namespace Sys2Proof.Machine

/-- No step of this model faults: the spec reports every error as state (error responses, flags, events). The one constructor is
raised by nobody. -/
inductive Fault where
  | none_
  deriving DecidableEq, Repr

/-- Why a command is refused. -/
inductive Refusal where
  /-- Raised by an arm of `exec` whose command has no meaning yet. Safe: nothing is claimed of it. -/
  | notModelled (mnemonic : String)
  /-- Raised by every meaning when an operand names something outside its table (a cell above 255, a ring above 7): no such command
  exists. Safe: the engine has no such command to carry out. -/
  | illFormed (mnemonic : String)
  deriving DecidableEq, Repr

/-! ### The compute cell -/

/-- One hardware loop level of a bank (R144–R147): start, end, executions left, and the stages of a LOOPR (0 for LOOP). A level whose
count is 0 closes before the next bundle issues. -/
structure LoopLevel where
  s : Nat
  e : Nat
  cnt : Nat
  stages : Nat
  deriving DecidableEq, Repr

/-- One register bank (R81, Table 3.1); every register is 0 and every predicate 1 at item start (R83). Registers of lane `l` are numbered
32·l + r (D) and 4·l + a (accumulators); scalar registers are numbered by their scalar code. `acc` and `pin` are what a bundle sees,
`accM` and `pinM` what a MAC-class operation sees (R127). -/
structure Bank where
  d : Table Word
  acc : Table Acc80
  accM : Table Acc80
  pin : Table Bool
  pinM : Table Bool
  ov : BitVec 4
  sat : BitVec 4
  s : Table Scalar
  /-- Predicates that are 0. -/
  p : Table Bool
  lc : BitVec 16
  rbase : BitVec 4
  pc : BitVec 12
  /-- Open loop levels, innermost first. -/
  loops : List LoopLevel
  /-- Taken branches whose delay has not issued: the bundle number of the target's issue, and the target (R105). -/
  brs : List (Nat × Nat)
  deriving DecidableEq, Repr

/-- The bank as an item starts it (R83), the argument pointer in A0 and the PC at `entry`. -/
def Bank.start (arg : Scalar) (entry : BitVec 12) : Bank :=
  { d := [], acc := [], accM := [], pin := [], pinM := [], ov := 0, sat := 0, s := tput 0 [] 0 arg, p := [], lc := 0, rbase := 0,
    pc := entry, loops := [], brs := [] }

/-- Where a result lands (R101): a physical D register of a lane, an accumulator as all see it or as MAC-class operations see it, a
scalar register, a predicate, the sticky flags of a lane, a flag clear (R149), or the ECC double-bit interrupt in place of a load's
result (R106). -/
inductive Dest where
  | d (idx : Nat) (v : Word)
  | acc (idx : Nat) (v : Acc80) (pin : Bool)
  | accM (idx : Nat) (v : Acc80) (pin : Bool)
  | s (code : Nat) (v : Scalar)
  | p (idx : Nat) (v : Bool)
  | flags (lane : Nat) (ov sat : Bool)
  | clrf (lanes : BitVec 4) (ov sat : Bool)
  | ecc
  deriving DecidableEq, Repr

/-- A result in flight: it becomes visible at the start of bundle `due`, in the shadow bank when `shadow` (R101, R107). -/
structure Flight where
  due : Nat
  shadow : Bool
  dest : Dest
  deriving DecidableEq, Repr

/-- A store waiting for its commit in bundle `due` (R101, R104). -/
structure StoreWait where
  due : Nat
  addr : Nat
  bytes : List Byte
  done : Bool
  deriving DecidableEq, Repr

/-- One of the 256 cells. -/
structure Cell where
  prim : Bank
  shad : Bank
  /-- The item that the cell runs; none when it waits in WAITW. -/
  item : Option Nat
  /-- The WAITW of the item has issued (R148). -/
  ended : Bool
  /-- The cause of the handler in progress (Table 3.6). -/
  handler : Option Nat
  /-- Handler bundles issued. -/
  hcnt : Nat
  /-- The handler bundle in which RETI issued; the bank switch takes effect after bundle max(k + 2, 4) (R109). -/
  reti : Option Nat
  /-- Bundles issued since the item started, of either bank: the count that latencies are stated in. -/
  now : Nat
  /-- The budget counter (R112). -/
  count : Nat
  budget : Nat
  /-- From the program header (R125). -/
  hentry : BitVec 12
  hpres : Bool
  dshared : BitVec 3
  trapen : Bool
  flights : List Flight
  stores : List StoreWait
  /-- A BIQ occupies the M slot of the next bundle (R128). -/
  biq : Bool
  /-- Lanes whose flag went from 0 to 1 under TRAPEN, the trap not yet taken (R100). -/
  trap : BitVec 4
  /-- The ECC double-bit interrupt of a load has fallen due (R106). -/
  ecc : Bool
  /-- A debug break has been raised and not taken. -/
  brk : Bool
  /-- The frame abort is held by a debug handler (R111). -/
  frameAbort : Bool
  /-- ns from the tick to the assignment of the item (R174). -/
  from_ : Nat
  /-- Busy time of the frame so far, in ns (R174). -/
  busy : Nat
  /-- `SYS_CELLn_STAT.CAUSE` as it stood when the debug break was taken: the cause of the last aborted item (R119). -/
  wasCause : Nat
  deriving DecidableEq, Repr

/-- A cell that waits in WAITW after power-good. -/
def Cell.idle : Cell :=
  { prim := Bank.start 0 0, shad := Bank.start 0 0, item := none, ended := false, handler := none, hcnt := 0, reti := none, now := 0,
    count := 0, budget := 0, hentry := 0, hpres := false, dshared := 0, trapen := false, flights := [], stores := [], biq := false,
    trap := 0, ecc := false, brk := false, frameAbort := false, from_ := 0, busy := 0, wasCause := 0 }

/-! ### Graphs and the scheduler -/

/-- Four 64-bit words: a descriptor (Table 5.2) or a transfer entry (Table 5.4). -/
structure Quad where
  w0 : Word64
  w1 : Word64
  w2 : Word64
  w3 : Word64
  deriving DecidableEq, Repr

/-- A successor entry (R151): at most 32 indices and the next entry of its chain. -/
structure SuccEntry where
  succ : List Nat
  next : Option Nat
  deriving DecidableEq, Repr

/-- A graph: the tables that `DEF_ITEM`, `LINK`, `SET_SEND` and `ALIGN` edit (R261). The admitted graph also holds what it took at its
`ADMIT`: the limiter settings of the buses (R218) and the delay rings (R196). -/
structure Graph where
  /-- Descriptors with VALID = 1, by index. -/
  items : Table Quad
  xfers : Table (Option Quad)
  succs : Table (Option SuccEntry)
  /-- Send lists by bus: entries of Table 7.1. -/
  sends : Table (List Word64)
  /-- Alignment mode by bus (R195): 0 OFF, 1 AUTO, 2 MANUAL. -/
  align : Table Nat
  /-- Limiter lookahead by bus, plus 1; 0 when the limiter is off (R218). -/
  lim : Table Nat
  /-- Delay ring of a source: base address and words (R196). -/
  rings : Table (Nat × Nat)
  /-- Where the send list and the gain points of a bus lie in the mix areas: engine address and bytes (R210). -/
  mixAt : Table (Nat × Nat)
  /-- Base and size of the parameter, pair state and mix areas as the `ADMIT` of the graph took them from their registers. -/
  areas : Table Nat
  deriving DecidableEq, Repr

def Graph.empty : Graph :=
  { items := [], xfers := [], succs := [], sends := [], align := [], lim := [], rings := [], mixAt := [], areas := [] }

/-- Where an item of the admitted graph stands in the frame. -/
inductive ItemSt where
  | waiting | parked | queued | overflow | slot | held | running | done | aborted | late
  deriving DecidableEq, Repr

/-- The run-time state of an item (R157–R169). -/
structure ItemRun where
  cnt : Nat
  fr : Nat
  fc : Nat
  st : ItemSt
  /-- The cell, unit or channel that the item is assigned to, or in whose slot it waits. -/
  exec : Nat
  /-- Bound under R159: not stolen, not recalled. -/
  bound : Bool
  /-- ns from the tick to the release (R175). -/
  relAt : Nat
  /-- ns from the tick to the start. -/
  startAt : Nat
  /-- The cell on which the item ran in the current frame (R156). -/
  ran : Option Nat
  /-- An access of the item met an error response or poison (Table 5.7). -/
  err : Bool
  deriving DecidableEq, Repr

def ItemRun.start : ItemRun :=
  { cnt := 0, fr := 0, fc := 0, st := .waiting, exec := 0, bound := false, relAt := 0, startAt := 0, ran := none, err := false }

/-- Concealment state of a signal or sink (R77): the last sample of its last good frame, how many frames in a row it has been
concealed, and whether the frame in progress is concealed, in which mode. -/
structure Conceal where
  h : Int
  run : Nat
  now : Bool
  mute : Bool
  deriving DecidableEq, Repr

def Conceal.clear : Conceal := { h := 0, run := 0, now := false, mute := false }

/-- A capacity change waiting for the next frame boundary (R22, R23). -/
inductive Cap where
  | cell (c cause : Nat)
  | block (b cause : Nat)
  | sum (u cause : Nat)
  | dma (c cause : Nat)
  | range (r idx : Nat)
  deriving DecidableEq, Repr

/-- Snapshot accumulators (Table 5.8). -/
structure Snap where
  late : Nat
  depth : Table Nat
  ovfl : Nat
  steals : Nat
  recalls : Nat
  load : Table Nat
  util : Table Nat
  deriving DecidableEq, Repr

structure Sched where
  edit : Graph
  adm : Graph
  /-- The admitted graph runs (power state Run, R473). -/
  running : Bool
  run : Table ItemRun
  /-- Items now shed (R173), and those that leave or return at the next frame boundary. -/
  shed : List Nat
  shedNext : List Nat
  restoreNext : List Nat
  /-- Items on overflow lists, in release order (R162). -/
  overflow : List Nat
  /-- The first dispatch of the frame has come (R157). -/
  first : Bool
  /-- Items late or aborted in the frame, with the cause of event 0x0104. -/
  faults : List (Nat × Nat)
  /-- Capacity changes decided in the frame. -/
  caps : List Cap
  /-- Output signals of each item, as its last completion delivered them. -/
  outs : Table (Option (List Nat))
  /-- Busy ns of the frame: summing units at u, bridge channels at 32 + n, DMA channels at 288 + c, the metering service at 296. -/
  busy : Table Nat
  /-- Concealment of each source signal (R76). -/
  conc : Table Conceal
  /-- Items whose cell was fenced before they started (R169). -/
  orphans : List Nat
  snap : Snap
  /-- A decrement found a zero counter in the frame in progress (R158), and the frames in a row in which one has (Table 15.8). -/
  cntErr : Bool
  cntErrRun : Nat
  /-- No graph has been admitted since the reset, or a change of F or of the house rate invalidated it (R53). -/
  stale : Bool
  /-- Base and size of the parameter, pair state and mix areas that the graph in use brought with it ("Used from the next `ADMIT`"), at r + 4·j with j = 0 to 5 for parameter base and size, state base and size, mix base and size of region r. -/
  areas : Table Nat
  deriving DecidableEq, Repr

def Sched.reset : Sched :=
  { edit := Graph.empty, adm := Graph.empty, running := false, run := [], shed := [], shedNext := [], restoreNext := [],
    overflow := [], first := false, faults := [], caps := [], outs := [], busy := [], conc := [], orphans := [],
    snap := { late := 0, depth := [], ovfl := 0, steals := 0, recalls := 0, load := [], util := [] }, cntErr := false, cntErrRun := 0, stale := true, areas := [] }

/-- Fault containment and pace (chapters 1–3). -/
structure Health where
  /-- Quarantined ranges: region · 65536 + range (R20). -/
  quar : List Nat
  /-- Containment records of immediate actions that `SYS_CONTAIN_LAST` shows at the next boundary (R48): level, cause, identifier, frame. -/
  recs : List (Nat × Nat × Nat × Nat)
  /-- Regions that have escalated for their quarantined ranges (R21). -/
  escal : List Nat
  /-- State and parity errors of the hour: summing units at u, DMA channels at 32 + c (R27). -/
  unitErr : Table Nat
  /-- Corrected errors of the second in progress, by cell (R117). -/
  corr : Table Nat
  /-- Words found with a single-bit error on the last scrub pass (R92): engine addresses. -/
  suspect : List Nat
  /-- Words counted as stuck (R92). -/
  stuck : List Nat
  /-- The cell under rotating self-test (R116). -/
  bist : Option Nat
  /-- Pace monitors: value reported, at 4 · region + monitor. -/
  mon : Table Nat
  /-- Excluded monitors (R69). -/
  excl : List Nat
  /-- Regions with two excluded monitors. -/
  floorOnly : List Nat
  /-- Pace value and VCMD of the last decision (R72). -/
  lastPace : Nat
  lastV : Nat
  /-- The value of the last PMBus write, while it is in progress or waits to be retried (R71). -/
  pmbus : Option Nat
  pmbusBusy : Bool
  nackRun : Nat
  /-- The loop is halted by three unacknowledged writes (R71). -/
  avsHalt : Bool
  /-- The pace value at the last shed (R73). -/
  shedPace : Option Nat
  /-- Admission has to be rerun (R22). -/
  readmit : Bool
  /-- Domains, as bits of `SYS_DOMAIN_STAT`, that have lost lock or stopped since the last frame boundary, which shows them (R48). -/
  domLost : Nat
  deriving DecidableEq, Repr

def Health.reset : Health :=
  { quar := [], recs := [], escal := [], unitErr := [], corr := [], suspect := [], stuck := [], bist := none, mon := [], excl := [], floorOnly := [], lastPace := 0,
    lastV := 0, pmbus := none, pmbusBusy := false, nackRun := 0, avsHalt := false, shedPace := none, readmit := false, domLost := 0 }

/-! ### Routing and mixing -/

/-- States of a sink (Table 6.4). -/
inductive SinkSt where
  | steady | zcwait | fade | fbfade | fbact
  deriving DecidableEq, Repr

/-- What a fade takes a side from: a constant (the held sample h), or a source. -/
inductive Feed where
  | const (v : Int)
  | src (s : Nat)
  deriving DecidableEq, Repr

/-- A route request (R264): new source, mode 0 CUT_ZC, 1 linear, 2 equal-power, length code, and where its end is reported. -/
structure Req where
  src : Nat
  mode : Nat
  len : Nat
  ring : Nat
  tag : Nat
  notify : Bool
  deriving DecidableEq, Repr

/-- A sink entry (R183, Table 6.16) with the samples of the frame rendered so far. -/
structure Sink where
  cur : Nat
  fb : Nat
  out : Nat
  st : SinkSt
  /-- The request that waits: in ZCWAIT for its crossing, in FADE and FBFADE for the end of the change. -/
  pend : Option Req
  /-- The request whose fade is in progress. -/
  act : Option Req
  mode : Nat
  len : Nat
  pos : Nat
  revert : Bool
  concN : Nat
  dom : Nat
  fn : Nat
  /-- The sides of a move in FBFADE. -/
  fromF : Feed
  toF : Feed
  /-- The state and the carried source after FBFADE. -/
  after : SinkSt
  /-- The source carried in FBACT: FB, or 0x3FFF for the silence of R192. -/
  carry : Nat
  /-- A new FB waits for the end of FBFADE (R508). -/
  newFb : Bool
  /-- CUR was lost and its recovery has not been reported (R193). -/
  curLost : Bool
  /-- Consecutive frames in which CUR counts as concealed; that cause of Table 6.5 holds for CUR; and the frames in a row, while the sink is
  on its fallback, in which CUR, and FB, were free of every loss cause (R192, R193). -/
  curConc : Nat
  curTaint : Bool
  curClean : Nat
  fbClean : Nat
  /-- Output samples of the frame so far, before a bound gain point; and the last one of the previous frame. -/
  y : List Int
  last : Int
  /-- What the sink carries in the frame, its gain point and concealment applied, once the window has ended. -/
  z : List Int
  /-- Sources read for the frame so far. -/
  used : List Nat
  /-- `now`: the last frame judged was concealed at the sink (R75). -/
  conc : Conceal
  /-- Concealed frames (R79). -/
  count : Nat
  deriving DecidableEq, Repr

/-- A sink after reset (R183): silence, no request, no fallback, STEADY. -/
def Sink.silent : Sink :=
  { cur := 0x3FFF, fb := 0x3FFF, out := 0x3FFF, st := .steady, pend := none, act := none, mode := 0, len := 0, pos := 0, revert := false,
    concN := 0, dom := 0, fn := 0, fromF := .src 0x3FFF, toF := .src 0x3FFF, after := .steady, carry := 0x3FFF, newFb := false,
    curLost := false, curConc := 0, curTaint := false, curClean := 0, fbClean := 0, y := [], last := 0, z := [], used := [], conc := Conceal.clear, count := 0 }

/-- States of a gain point (Table 7.5). -/
inductive GpSt where
  | steady | zcwait | ramp
  deriving DecidableEq, Repr

/-- A gain point (R219–R226, Table 7.19); gains are Q4.28. -/
structure Gp where
  h : Nat
  g : Nat
  t : Nat
  m : Nat
  st : GpSt
  next : Option Nat
  defer : Bool
  timeout : Nat
  ramp : Nat
  pos : Nat
  g0 : Nat
  /-- Bound sink, or 0xFFFF. -/
  bind : Nat
  /-- Gains at the sample positions of the frame so far. -/
  traj : List Nat
  deriving DecidableEq, Repr

/-- A gain point after power-good and warm reset (R507). -/
def Gp.unity : Gp :=
  { h := 0x10000000, g := 0x10000000, t := 0x10000000, m := 0x10000000, st := .steady, next := none, defer := false, timeout := 0,
    ramp := 0, pos := 0, g0 := 0x10000000, bind := 0xFFFF, traj := [] }

/-- A bus's limiter (R217): smoothed gain with 48 fraction bits, and the last values of v, newest first. -/
structure Limiter where
  g : Nat
  vs : List Int
  /-- Old lookahead and position of the crossfade of R218. -/
  oldLook : Nat
  xpos : Nat
  deriving DecidableEq, Repr

def Limiter.off : Limiter := { g := 2 ^ 48, vs := [], oldLook := 0, xpos := 32 }

/-- A send that moves between two taps (R197): the old tap and the fade position. -/
structure TapMove where
  old : Nat
  pos : Nat
  deriving DecidableEq, Repr

/-- An automix group (R236). -/
structure AmGroup where
  thr : Nat
  depth : Nat
  actDb : Nat
  deriving DecidableEq, Repr

structure AmMember where
  group : Nat
  det : Nat
  gp : Nat
  weight : Int
  /-- Level E, Q62 mean square. -/
  e : Nat
  /-- Factor A, Q4.28. -/
  a : Nat
  /-- Milliseconds that the activity word stays 1 (R238). -/
  hold : Nat
  deriving DecidableEq, Repr

/-- A mix-minus feed (R240). -/
structure MinusFeed where
  bus : Nat
  excl : Nat
  gp : Nat
  talk : Nat
  talkGp : Nat
  deriving DecidableEq, Repr

/-- A duck rule (R241). -/
structure Duck where
  trig : Nat
  thr : Nat
  depth : Nat
  hold : Nat
  prio : Nat
  gps : List Nat
  /-- Tick at which the rule becomes inactive. -/
  until_ : Nat
  active : Bool
  /-- Its hold has expired: the rule ends at the tick `until_`. -/
  ending : Bool
  deriving DecidableEq, Repr

/-- A channel of a loudness meter (R232): the last two inputs of its K-weighting filter, outputs of the first and of the second stage (47
fraction bits, the newer first), its last 11 samples, newest first, and the sum of squares (Q62) and the number of samples of the 100 ms step. -/
structure LoudChan where
  x : Int × Int
  u : Int × Int
  v : Int × Int
  last : List Int
  acc : Nat
  n : Nat
  deriving DecidableEq, Repr

def LoudChan.zero : LoudChan := ⟨(0, 0), (0, 0), (0, 0), [], 0, 0⟩

/-- A loudness meter (R231–R235). -/
structure Loud where
  mask : Nat
  weights : Nat
  chans : Table LoudChan
  /-- Mean squares (weighted sum over channels, Q62) of the last 100 ms steps, newest first, at most 30. -/
  steps : List Nat
  /-- Block loudness histograms in 0.01 LU bins: 400 ms blocks (I) and short-term values (LRA), by hundredths of LUFS + 7000. -/
  hist : Table Nat
  lra : Table Nat
  m : Option Int
  s : Option Int
  i : Option Int
  lraV : Option Int
  tp : Nat
  tpMax : Nat
  secs : Nat
  tenths : Nat
  reset : Bool
  wasReset : Bool
  deriving DecidableEq, Repr

/-- A generator (R244): `mode` is the waveform that plays; `on` is false while a disable ramps out. -/
structure Gen where
  on : Bool
  mode : Nat
  level : Nat
  inc : Nat
  seed : Nat
  phase : Nat
  /-- House samples since the configuration applied. -/
  age : Nat
  /-- Level ramped from, in linear Q32, and the ramp position. -/
  from_ : Nat
  rpos : Nat
  deriving DecidableEq, Repr

/-- Peak and sum of squares of a metered signal over the block period so far (R228). -/
structure Meter where
  peak : Nat
  sq : Nat
  n : Nat
  deriving DecidableEq, Repr

structure Mix where
  sinks : Table Sink
  gps : Table Gp
  /-- Samples that a source carries in the frame in progress, for the sources that have no buffer of their own in memory. -/
  sig : Table (List Int)
  /-- Words captured at a port input and not yet committed, in position order (R287). -/
  fifo : Table (List Word)
  /-- Words of a Foreign-domain port that belong to the frame after the next (R287). -/
  fifoNext : Table (List Word)
  /-- Network transmit buffers: what the sink of each transmit channel carried in the last frame assembled (R52). -/
  netTx : Table (List Int)
  lims : Table Limiter
  taps : Table TapMove
  /-- Services: groups, members, feeds, duck rules, loudness meters, generators. -/
  groups : Table (Option AmGroup)
  members : Table (Option AmMember)
  feeds : Table (Option MinusFeed)
  ducks : Table (Option Duck)
  louds : Table (Option Loud)
  gens : Table (Option Gen)
  /-- Meters of the block period in progress: a source's at its number, a tap's at 0x10000 + its sink number (R228, R230). -/
  meters : Table Meter
  /-- METER_CFG: buffers A and B, bytes, vector, event enable, ranges (R269). -/
  meterA : Nat
  meterB : Nat
  meterBytes : Nat
  meterVec : Nat
  meterEv : Bool
  ranges : List (Nat × Nat)
  /-- The next block goes to buffer B; the frames of the period so far; the block of the period that ended, until it is written (R229). -/
  meterToB : Bool
  meterFrames : Nat
  meterDue : Option (List Byte)
  /-- Output samples of each bridge channel so far. -/
  brPos : Table Nat
  /-- Sources now declared lost (Table 6.5), and those declared so since the last frame boundary (R189). -/
  lost : List Nat
  newLost : List Nat
  /-- The last sample of each source in the previous frame (R185). -/
  prevSrc : Table Int
  /-- Rate domain and Foreign index of network receive and transmit channels, as their streams give, and the domain of strips (R182). -/
  rxDom : Table (Nat × Nat)
  txDom : Table (Nat × Nat)
  stripDom : Table Nat
  /-- N of each bus in the frame in progress (R216). -/
  busN : Table Nat
  /-- The last accumulator sample of each bus, and at 0x1000 + k the last value of feed k before its gain: of this frame's run, and of the
  previous frame (R185, Table 7.4). -/
  accLast : Table Int
  accPrev : Table Int
  /-- Gain points whose host target or factor changed and that step 4 of R227 has still to judge. -/
  gpDirty : List Nat
  /-- Fade position of an ASRC channel (R205), 32 when no fade runs, and the held last output. -/
  asrcFade : Table (Nat × Int)
  /-- Input samples of each bridge channel before the frame in progress, newest first (R203). -/
  brHist : Table (List Int)
  /-- A change of state of an ASRC channel that waits for the frame boundary: the new state plus 1, and the measured ratio (R205). -/
  asrcDue : Table (Nat × Nat)
  /-- Sinks whose route closes a cycle in the frame in progress, and what the signals that they read carried in the previous one (R59). -/
  cyc : List Nat
  prevSig : Table (List Int)
  deriving DecidableEq, Repr

def Mix.reset : Mix :=
  { sinks := [], gps := [], sig := [], fifo := [], fifoNext := [], netTx := [], lims := [], taps := [], groups := [], members := [], feeds := [],
    ducks := [], louds := [], gens := [], meters := [], meterA := 0, meterB := 0, meterBytes := 0, meterVec := 0xFFFF, meterEv := false,
    ranges := [], meterToB := false, meterFrames := 0, meterDue := none, brPos := [], lost := [], newLost := [], prevSrc := [], rxDom := [], txDom := [], stripDom := [], busN := [], accLast := [], accPrev := [], gpDirty := [],
    asrcFade := [], brHist := [], asrcDue := [], cyc := [], prevSig := [] }

/-! ### Directives, transactions and scenes -/

/-- A directive that has executed and applies at a tick, or that a transaction holds. `n` is its place in the order of execution. -/
structure Staged where
  op : Nat
  ring : Nat
  tag : Nat
  flags : Nat
  /-- The real payload, indirection resolved. -/
  words : List Word64
  n : Nat
  deriving DecidableEq, Repr

/-- The commit of a transaction (R271), or the directive that is a transaction by itself (R261, R268): its opcode, tag and flags, the words
1 to 5 of `TXN_COMMIT`, and its place in the order of execution. -/
structure Commit where
  op : Nat
  tag : Nat
  flags : Nat
  w1 : Word64
  w2 : Word64
  w3 : Word64
  w4 : Word64
  w5 : Word64
  n : Nat
  deriving DecidableEq, Repr

/-- Where a transaction stands: open, under validation, prepared across the fabric, in doubt (R281), acknowledged. -/
inductive TxnSt where
  | open_ | validating | prepared | doubt | acked
  deriving DecidableEq, Repr

/-- A transaction in its staging slot (R270–R276). -/
structure Txn where
  slot : Nat
  ring : Nat
  /-- Tag of the directive that opened it. -/
  tag : Nat
  staged : List Staged
  bytes : Nat
  writes : Nat
  /-- Tag of the first refused directive. -/
  failed : Option Nat
  st : TxnSt
  commit : Option Commit
  apply : Nat
  /-- Admission runs of its `ADMIT` directives: none before `ADMISSION_RESULT`; then the first status that is not 0, or 0. -/
  admitted : Option Nat
  /-- [63:32] B, [31:16] failed tests, [15:0] worst share, of its last run (Table 8.6). -/
  admRes : Nat
  /-- The graph that its last `ADMIT` accepted. -/
  graph : Option Graph
  /-- Frames after the other nodes, of a transaction in doubt that applies late (R281). -/
  late : Option Nat
  deriving DecidableEq, Repr

/-- A stored scene (R277). -/
structure Scene where
  staged : List Staged
  writes : Nat
  bytes : Nat
  frame : Nat
  /-- Its place in the order of execution, which a deletion must follow (R257). -/
  n : Nat
  deriving DecidableEq, Repr

/-- The directive whose completion a ring waits for: a fence, a query, a commit, an admission, a function reset, a handover. `n` is its
place in the order of execution, `all` the scope of a fence, and `graph` the edit graph that a dry admission tests. -/
structure Hold where
  op : Nat
  tag : Nat
  flags : Nat
  words : List Word64
  n : Nat
  all : Bool
  graph : Option Graph
  deriving DecidableEq, Repr

/-- A command ring's execution state (R249–R253). -/
structure Ring where
  /-- A program is in progress: its sequence number, its words with the program word, and those that remain. -/
  active : Bool
  seq : Nat
  len : Nat
  words : List Word64
  /-- Completions posted for the program in progress. -/
  comps : List (Word64 × Word64)
  /-- Stored completions of the last programs, newest first, at most 64 (R250). -/
  past : List (Nat × List (Word64 × Word64))
  hold : Option Hold
  /-- Directives up to the closing one complete with 0x0308 (R276). -/
  skip : Bool
  deriving DecidableEq, Repr

def Ring.idle : Ring :=
  { active := false, seq := 0, len := 0, words := [], comps := [], past := [], hold := none, skip := false }

/-- What a directive that has applied set in motion (R256, R259): gain points that step, sinks whose requests carry its tag, sinks in a
fallback move, generators that ramp, and the taps of a new graph. `after` names, by their places, other effects that it waits for. -/
structure Effect where
  n : Nat
  ring : Nat
  tag : Nat
  notify : Bool
  gps : List Nat
  sinks : List Nat
  moves : List Nat
  gens : List Nat
  taps : Bool
  after : List Nat
  deriving DecidableEq, Repr

/-- A fabric-wide transaction as its coordinator sees it (R280): participants, those that have answered PREPARED, apply frame, ring. -/
structure Coord where
  mask : Nat
  prepared : Nat
  p : Nat
  ring : Nat
  done : Bool
  deriving DecidableEq, Repr

structure Ctl where
  rings : Table Ring
  /-- Directives executed so far: the next place in the order of execution. -/
  count : Nat
  /-- Non-transactional directives executed in the frame, in order; they apply at the next tick (R257, R275). -/
  deferred : List Staged
  /-- Directives of a pair that apply at a stated frame on both members (R414): local frame and directive. -/
  later : List (Nat × Staged)
  /-- Transactions, oldest first; acknowledged ones in the order of their acknowledgement. -/
  txns : List Txn
  scenes : Table (Option Scene)
  /-- Phase of the completion rings 0–7 and of the event ring at 8: true while the current pass writes PHASE = 0. -/
  phase : Table Bool
  /-- Entries not consumed: completion rings 0–7, the event ring at 8 (R253, R254). -/
  used : Table Nat
  /-- Completions that wait for a free entry: ring and words without PHASE. -/
  owed : List (Nat × Word64 × Word64)
  /-- MSI-X vectors with a source fired since their last message (R459). -/
  msi : Table Bool
  /-- Next event sequence number. -/
  eseq : Nat
  /-- Events discarded that event 0x0406 has not reported (R254). -/
  lost : Nat
  /-- Parameter writes that wait for their mirror (R268): region, offset and bytes; and the last frame of each region's mirror. -/
  mirror : List (Nat × Nat × List Byte)
  mirrorLast : Table Nat
  /-- Regions whose parameter area flips at the tick in progress (R268). -/
  flips : List Nat
  coords : Table (Option Coord)
  /-- Fabric-wide transactions that this node has applied or will apply, by id (R281). -/
  outcomes : List Nat
  /-- RESET_FN in progress: function, index, tag, ring. -/
  resetFn : List (Nat × Nat × Nat × Nat)
  /-- Effects of applied directives that have not ended. -/
  effects : List Effect
  deriving DecidableEq, Repr

def Ctl.reset : Ctl :=
  { rings := [], count := 0, deferred := [], later := [], txns := [], scenes := [], phase := [], used := [], owed := [], msi := [], eseq := 0,
    lost := 0, mirror := [], mirrorLast := [], flips := [], coords := [], outcomes := [], resetFn := [], effects := [] }

/-! ### Audio ports -/

/-- One port (chapter 9); its state, counters and configuration are fields of the register table. -/
structure Port where
  /-- θ in 1/256 sample (R303). -/
  theta : Int
  /-- The port has been started and enters RUN at the first tick at which it is qualified or a master (R298, R300). -/
  want : Bool
  /-- Faults of Table 9.6 that fall due at the next tick. -/
  stop : Bool
  mism : Option Int
  glitch : Bool
  /-- A re-phase is due at the tick after the next one: a glitch was taken (Table 9.6). -/
  rephase : Bool
  /-- The elastic store overruns (incoming words are discarded) or underruns until the next tick (R305). -/
  overran : Bool
  under : Bool
  /-- `RESET_FN` takes the port to CLOCKED at the next tick (R297, Table 15.9). -/
  reset : Bool
  /-- Slips and glitches since the last event 0x0501, and the frame of that event plus 1; the same for re-phases and 0x0502. -/
  slips : Nat
  slipAt : Nat
  phases : Nat
  phaseAt : Nat
  /-- Samples that the last re-phase dropped (above 0) or repeated (Table 9.8). -/
  phShift : Int
  /-- Frame at which the sample index is 0 (R300). -/
  start : Nat
  /-- Samples that the output repeats (above 0) or drops in the frame that starts (R304). -/
  shift : Int
  deriving DecidableEq, Repr

def Port.idle : Port :=
  { theta := 0, want := false, stop := false, mism := none, glitch := false, rephase := false, overran := false, under := false, reset := false,
    slips := 0, slipAt := 0, phases := 0, phaseAt := 0, phShift := 0, start := 0, shift := 0 }

/-- What a group waits for (R300): a frame, or an edge on START_SYNC, rising or not, from a frame on. -/
inductive Trig where
  | frame (n : Nat)
  | sync (rising : Bool)
  deriving DecidableEq, Repr

/-- An alignment group (R300–R302). -/
structure Group where
  start : Option Trig
  stop : Option Trig
  running : Bool
  startAt : Nat
  deriving DecidableEq, Repr

def Group.idle : Group := { start := none, stop := none, running := false, startAt := 0 }

/-- What a transmitter sends beside the audio words (R295, R296): the validity bit and the channel-status block. -/
structure TxStatus where
  v : Bool
  /-- V, U and C of each subframe of the frame, where an AM824 stream passes them (R351); they stand for `v` and `cs` then. -/
  vuc : List Nat
  cs : List Byte
  deriving DecidableEq, Repr

structure PortSt where
  port : Table Port
  groups : Table Group
  /-- The words that each output signal puts on its pins in the frame, as signed values of its word width (R286). -/
  pins : Table (List Int)
  /-- The last word captured for a source. -/
  capLast : Table Word
  /-- The bits of each microphone, newest first (R291), and the input and output of its 4 Hz high-pass filter (R292). -/
  pdmBits : Table (List Bool)
  pdmDc : Table (Int × Int)
  /-- What goes with the words of an AES3 or MADI output in the frame; nothing while it does not transmit. -/
  sent : Table (Option TxStatus)
  /-- The channel-status bytes to transmit by AES transceiver, and by MADI interface from 16 on; the last good received block of subframe B, by
  AES transceiver. -/
  csTx : Table (List Byte)
  csB : Table (List Byte)
  /-- The V, U and C bits that an AM824 stream passes to AES3 output 2n + subframe (R351), plus 1. -/
  vuc : Table (List Nat)
  deriving DecidableEq, Repr

def PortSt.reset : PortSt := { port := [], groups := [], pins := [], capLast := [], pdmBits := [], pdmDc := [], sent := [], csTx := [], csB := [], vuc := [] }

/-! ### Clock and references -/

/-- What a reference slot holds beside its registers (R320–R323). -/
structure RefSlot where
  /-- Disqualified with cause 4 until its signal has been lost and has returned. -/
  acqFail : Bool
  /-- The wait-to-restore timer runs. -/
  waiting : Bool
  /-- House sample at which the timer started, and its seconds (R323). -/
  wtrFrom : Nat
  wtrLen : Nat
  /-- Offsets of the last 11 gates, newest first, in 0.001 ppm (R321). -/
  ofs : List Int
  deriving DecidableEq, Repr

def RefSlot.idle : RefSlot := { acqFail := false, waiting := false, wtrFrom := 0, wtrLen := 0, ofs := [] }

/-- What a transition started with (R333): build-out or slew, the slew in ppm, and the type and MULT of its target. -/
structure TransPlan where
  build : Bool
  slew : Nat
  ty : Nat
  mult : Nat
  deriving DecidableEq, Repr

/-- The clock outputs (R334): the frequency of MCLK_OUT and of each WCLK_OUT in Hz as a fraction, 0 for a pin driven low; and the sample positions of
the frame at which FPULSE_OUT is high. -/
structure ClkOut where
  mclk : Nat × Nat
  wclk0 : Nat × Nat
  wclk1 : Nat × Nat
  fpulse : List Nat
  deriving DecidableEq, Repr

def ClkOut.low : ClkOut := { mclk := (0, 1), wclk0 := (0, 1), wclk1 := (0, 1), fpulse := [] }

structure ClkSt where
  slots : Table RefSlot
  /-- Tracked frequency of each second of LOCKED, newest first, at most 61, in 10^-12 (R331). -/
  hist : List Int
  /-- EQL of the last locked slot when it was last locked (R319). -/
  lastEql : Nat
  /-- Event 0x0604 has been posted in this transition (R325). -/
  pendSeen : Bool
  /-- House sample index at which cadence frame 0 starts (R336). -/
  cad0 : Nat
  /-- QL carried in the fabric sync frames (Table 10.2). -/
  fabQl : Nat
  plan : TransPlan
  /-- The frequency that the output is moving to without a step (R328), in 10^-12. -/
  goal : Option Int
  /-- Frequency of a transition's target as ACQ found it, in 10^-12 (R329). -/
  target : Int
  /-- Bandwidth of the tracking stage in mHz, 0 while it tracks nothing (Table 10.4, Table 10.6). -/
  bw : Nat
  out : ClkOut
  deriving DecidableEq, Repr

def ClkSt.reset : ClkSt :=
  { slots := [], hist := [], lastEql := 0, pendSeen := false, cad0 := 0, fabQl := 15, plan := { build := false, slew := 5, ty := 0, mult := 0 }, goal := none,
    target := 0, bw := 0, out := ClkOut.low }

/-! ### Network media and time -/

/-- A receive stream (R344–R349): its record (Table 11.5) and what arrived. -/
structure RxS where
  rec_ : List Word64
  /-- Samples placed and not yet committed: key 64 · (stream sample index + 2^40) + channel. -/
  buf : Table (Option Int)
  /-- V, U and C of the AM824 subframes placed, by the same keys: the bits + 1 (R351). -/
  labels : Table Nat
  /-- RTP sequence number, timestamp and path of the last packets used, newest first, at most 64. -/
  seqs : List (Nat × Nat × Nat)
  /-- Stream sample index of a packet's first sample modulo P, and the last packet slot counted as missing (R347). -/
  slotOfs : Int
  missAt : Int
  /-- The stream recovers at the next tick (R348). -/
  recover : Bool
  deriving DecidableEq, Repr

/-- A transmit stream (R350). -/
structure TxS where
  rec_ : List Word64
  /-- Frame from whose emission the stream sends. -/
  start : Nat
  /-- Packets built so far. -/
  j : Nat
  /-- Samples emitted and not yet in a packet, by channel, and the stream sample index of the first of them. -/
  q : List (List Int)
  at_ : Int
  /-- The paths on which the next packet has left, and the packet (R350). -/
  sent : Nat
  built : List Byte
  deriving DecidableEq, Repr

/-- The transmitter of an Ethernet port (R343, R352, R353), times in 1/100 ns of the local clock: the end of the last frame on the wire with its
inter-frame gap, the first moment at which the host's share lets a further host frame start, and the entry held to its launch time. -/
structure Xmit where
  busy : Int
  share : Int
  held : Option Nat
  deriving DecidableEq, Repr

def Xmit.idle : Xmit := ⟨0, 0, none⟩

structure NetSt where
  rx : Table (Option RxS)
  tx : Table (Option TxS)
  /-- The last frame of the host or of PTP that each Ethernet port put on the wire; the last frame that each transmit stream launched on each path,
and its scheduled start in 1/100 ns (R343), at 2 × stream + path. -/
  wire : Table (List Byte)
  pkt : Table (List Byte)
  starts : Table Int
  xmit : Table Xmit
  /-- Host frames dropped since the last event 0x0706, and the frame of that event plus 1 (R352). -/
  drops : Nat
  dropAt : Nat
  deriving DecidableEq, Repr

def NetSt.reset : NetSt := { rx := [], tx := [], wire := [], pkt := [], starts := [], xmit := [], drops := 0, dropAt := 0 }

/-- A PTP instance (R358): its instance record, its latency corrections and the master that it follows. -/
structure PtpInst where
  /-- The second in which the last Delay_Req was answered, the answers in it, and the slaves answered (Table 11.4). -/
  dreqSec : Nat
  dreqs : Nat
  slaves : List Nat
  w0 : Word64
  w1 : Word64
  ingress : Int
  egress : Int
  master : Option Announce
  /-- The last offset was above 1 ms (R362). -/
  big : Bool
  /-- Sequence numbers of the messages sent, by message type. -/
  seqs : Table Nat
  /-- The follow-up messages that a two-step instance owes, oldest first (R358). -/
  follow : List (List Byte)
  deriving DecidableEq, Repr

def PtpInst.off : PtpInst := { dreqSec := 0, dreqs := 0, slaves := [], w0 := 0, w1 := 0, ingress := 0, egress := 0, master := none, big := false, seqs := [], follow := [] }

/-- A pulse channel (R357): start and next edge in ns, PERIOD and WIDTH. -/
structure Pulse where
  start : Nat
  next : Nat
  period : Nat
  width : Nat
  deriving DecidableEq, Repr

structure PtpSt where
  /-- The local clock at the last frame tick, in 2^-32 ns (R354), and the ticks of TM counted up to it. -/
  time : Nat
  tm : Nat
  /-- The media-to-PTP mapping: n₀ and t₀ in 2^-32 ns (R360); the old one during the receive grace (R364). -/
  n0 : Nat
  t0 : Nat
  old : Option (Nat × Nat)
  /-- House sample of the last rewrite. -/
  oldAt : Nat
  /-- What the last rewrite left of its step, in 2^-32 ns (R363). -/
  oldRes : Int
  mapped : Bool
  /-- The servo or DPLL reports the local clock locked, and it has been locked since engine start (R311, R360). -/
  locked : Bool
  everLocked : Bool
  inst : Table PtpInst
  /-- A step in ns that two Syncs have confirmed (R362), and the step whose mapping rewrite waits for the next tick (R363). -/
  step : Option Int
  rewrite : Option Int
  /-- Event 0x0705 has been posted and |MAPERR| has not fallen below MAPLIM / 2 (R361). -/
  mapHigh : Bool
  pulses : Table (Option Pulse)
  /-- The last pulse of each pulse channel on its pin: from and to, in ns of the local clock (R357). -/
  fired : Table (Nat × Nat)
  deriving DecidableEq, Repr

def PtpSt.reset : PtpSt :=
  { time := 0, tm := 0, n0 := 0, t0 := 0, old := none, oldAt := 0, oldRes := 0, mapped := false, locked := false, everLocked := false, inst := [], step := none, rewrite := none,
    mapHigh := false, pulses := [], fired := [] }

/-! ### Thofer link fabric -/

/-- A transmit path (R381–R390). -/
structure TxPath where
  dst : Nat
  r : Nat
  prot : Bool
  lp : Nat
  /-- First link of the primary and of the alternate route, with their hop counts. -/
  pri : Nat
  priHops : Nat
  alt : Option (Nat × Nat)
  /-- Routes that have failed. -/
  priDown : Bool
  altDown : Bool
  /-- A twin path is reserved from the pair's peer (R415, R416). -/
  twin : Bool
  deriving DecidableEq, Repr

/-- What a slot of a link's receive direction leads to (R381): a receive channel, or a slot of another link. -/
inductive SlotTo where
  | rx (r : Nat)
  | fwd (link ch : Nat)
  deriving DecidableEq, Repr

/-- A reliable message held for its hop acknowledgement (R375). -/
structure OutMsg where
  link : Nat
  origin : Nat
  dest : Nat
  seq : Nat
  tries : Nat
  body : MsgBody
  deriving DecidableEq, Repr

/-- A node as the root knows it. -/
structure FabNode where
  addr : Nat
  serial : Nat
  excluded : Bool
  tmprio : Nat
  tmcand : Bool
  deriving DecidableEq, Repr

structure FabSt where
  tx : Table (Option TxPath)
  /-- Slots by link · 4096 + channel. -/
  slots : Table (Option SlotTo)
  /-- Blocks that have arrived for a receive channel: channel and the frame in which they play. -/
  arrived : List (Nat × Nat)
  /-- Blocks received in the frame that a transit node forwards at the next tick: link, channel, block. -/
  fwd : List (Nat × IsoBlock)
  /-- The burst of the frame: link and block (R374). -/
  burst : List (Nat × IsoBlock)
  /-- Transmit channels that switch to their other route with the first output assembly that begins from now on, and those whose assembly
  has begun: they switch at the next tick (R389). -/
  switch : List Nat
  switchNow : List Nat
  /-- The node's own sync block set of the last tick, which every UP link carries, and the hellos of the links in HELLO, sent each
  millisecond (R375, R376). -/
  syncOut : Option SyncSet
  helloOut : List Hello
  /-- Serial number at the far end of each link, and whether a sync set came since the last tick's judgement; misses in a row. -/
  peer : Table Nat
  miss : Table Nat
  /-- Reliable control: held messages, next sequence number by destination, next expected by origin, messages held for a gap. -/
  out : List OutMsg
  seqTx : Table Nat
  seqRx : Table Nat
  gap : List RelMsg
  /-- The last sequence number acknowledged to each link. -/
  acked : Table Nat
  nodes : List FabNode
  /-- Serial number and priority of the root; a root election is under way (R392). -/
  rootSerial : Nat
  rootPrio : Nat
  electing : Bool
  /-- Frames since a sync naming the root's generation came (R392). -/
  noRoot : Nat
  deriving DecidableEq, Repr

def FabSt.reset : FabSt :=
  { tx := [], slots := [], arrived := [], fwd := [], burst := [], switch := [], switchNow := [], syncOut := none, helloOut := [], peer := [], miss := [], out := [], seqTx := [],
    seqRx := [], gap := [], acked := [], nodes := [], rootSerial := 0, rootPrio := 0, electing := false, noRoot := 0 }

/-! ### Redundant pairs -/

structure PairSt where
  /-- ECL_OUT drives the line low, and ECL_SEL is high (Table 13.1). -/
  eclLow : Bool
  eclSel : Bool
  /-- Network and fabric transmit are muted. -/
  muted : Bool
  /-- Ticks in a row at which ECLIPSE was sampled low, and high. -/
  lowRun : Nat
  highRun : Nat
  /-- The member decides its role (R399). -/
  deciding : Bool
  /-- TIDE: an edge in the frame, frames without one, frames with one in a row; level of TIDE_OUT (R405). -/
  tideSeen : Bool
  tideMiss : Nat
  tideRun : Nat
  tideOut : Bool
  /-- Link heartbeat: a valid block since the last tick, misses and valid blocks in a row, the last SEQ received and sent (R406). -/
  hbSeen : Bool
  hbMiss : Nat
  hbRun : Nat
  hbSeq : Option Nat
  seqOut : Nat
  peer : Option Heartbeat
  /-- Frame of the last line-test pulse seen, and pulses seen at consecutive ticks (R408, R410). -/
  pulseAt : Option Nat
  pulseRun : Nat
  /-- The active's own check failed at the last pulse (R401). -/
  lineBad : Bool
  /-- Handover frame, or 0 (R411). -/
  hand : Nat
  /-- Output groups, the CRC of the last assembled frame of each, and ticks in a row at which both members agreed (R417). -/
  groups : Table (Option (Nat × Nat))
  crcs : Table Nat
  agree : Table Nat
  /-- A fault occurred in the frame in progress, and in the frame before; fault records of the last two frames that ended (R418). -/
  fault : Bool
  faultPrev : Bool
  rec0 : Bool
  rec1 : Bool
  /-- A hot sync is in progress (R419); the active has asked for one, which starts at the next tick. -/
  syncing : Bool
  resync : Bool
  /-- MODE that the active takes at its next epoch frame (R424). -/
  modeNext : Option Nat
  /-- Frame of the epoch in transfer, and of the last complete epoch (R421, R422). -/
  epochNow : Option Nat
  epochAt : Option Nat
  /-- The image of the epoch in transfer: region and bytes. -/
  image : List (Nat × List Byte)
  /-- An epoch whose flip falls due at the next tick. -/
  flip : Bool
  /-- Active halves of the pair state areas, a bit per region. -/
  act : Nat
  /-- The last output value of each sink that the epoch recorded, and the tick of a warm takeover (R423). -/
  held : Table Int
  heldNext : Table Int
  warmT : Option Nat
  /-- The heartbeat block sent at the last tick (R406). -/
  hbOut : Option Heartbeat
  /-- A replicated directive was lost or late: only a resync restores qualification (R414). -/
  replLost : Bool
  /-- Ring and tag of the `PAIR_SYNC` handover that completes at its frame (R425). -/
  handBy : Option (Nat × Nat)
  /-- A heartbeat with role ACTIVE has arrived since the member began to decide its role, or was released (R399, R404). -/
  heard : Bool
  deriving DecidableEq, Repr

def PairSt.reset : PairSt :=
  { eclLow := false, eclSel := false, muted := false, lowRun := 0, highRun := 0, deciding := false, tideSeen := false,
    tideMiss := 0, tideRun := 0, tideOut := false, hbSeen := false, hbMiss := 0, hbRun := 0, hbSeq := none, seqOut := 0, peer := none,
    pulseAt := none, pulseRun := 0, lineBad := false, hand := 0, groups := [], crcs := [], agree := [], fault := false, faultPrev := false, rec0 := false, rec1 := false,
    syncing := false, resync := false, modeNext := none, epochNow := none, epochAt := none, image := [], flip := false, act := 0, held := [], heldNext := [],
    warmT := none, hbOut := none, replLost := false, handBy := none, heard := false }

/-! ### Host interface, boot, power and recovery -/

/-- An outstanding crossbar transaction at its target (R434–R437). -/
structure XReq where
  m : Nat
  id : Nat
  wr : Bool
  addr : Nat
  len : Nat
  data : List Byte
  /-- At the DDR target: it has entered the queue; its entries that have not completed; the worst code so far and the data read. -/
  queued : Bool
  left : Nat
  code : Nat
  got : List Byte
  /-- The crossbar has answered it already, after 20 µs. -/
  dead : Bool
  deriving DecidableEq, Repr

/-- A DDR queue entry: one 64-byte burst (R441). -/
structure DdrEntry where
  m : Nat
  /-- Offset of the burst. -/
  off : Nat
  wr : Bool
  /-- Place in the burst of the bytes read or written, and how many are read. -/
  at_ : Nat
  len : Nat
  data : List Byte
  /-- A read that a partial write runs before its write. -/
  rmw : Bool
  /-- The read of a partial write returned POISON: the write is not made. -/
  bad : Bool
  /-- Re-issued once already after a CA parity error, after a write CRC error (R448). -/
  retried : Bool
  crc : Bool
  deriving DecidableEq, Repr

/-- An entry of the DRAM error log (R450). -/
structure LogEntry where
  off : Nat
  kind : Nat
  m : Nat
  rank : Nat
  beat : Nat
  syn : Nat
  frame : Nat
  deriving DecidableEq, Repr

/-- The crossbar and the DDR4 controller (chapter 14). -/
structure Xmem where
  /-- Granted transactions at each target, oldest first. -/
  open_ : Table (List XReq)
  /-- Parked master of each target, plus 1 (R434). -/
  park : Table Nat
  ddrq : List DdrEntry
  debt : Nat
  /-- Failed sensor reads in a row, and readings below 83 °C in a row (R445). -/
  noSens : Nat
  cool : Nat
  log : List LogEntry
  ceSec : Nat
  scrubAt : Nat
  /-- Frames of the last failed CA retries (R475). -/
  caFails : List Nat
  /-- Per cent of the correction range that each rank's drift used at its last measurement (R447). -/
  drift : Table Nat
  /-- The last 15 entries queued: bank, and whether it opened a new row; and the last row of each bank, plus 1 (R442). -/
  recent : List (Nat × Bool)
  rows : Table Nat
  /-- Writes posted in the peripheral bridge: address and word (R438). -/
  posted : List (Nat × Nat)
  /-- What the last response to each master carried: code (0 DONE, 1 NODEST, 2 TFAIL, 3 POISON) and data (Table 14.5). -/
  resp : Table (Nat × List Byte)
  deriving DecidableEq, Repr

def Xmem.reset : Xmem :=
  { open_ := [], park := [], ddrq := [], debt := 0, noSens := 0, cool := 0, log := [], ceSec := 0, scrubAt := 0, caFails := [],
    drift := [], recent := [], rows := [], posted := [], resp := [] }

/-- The keep set (R479): register fields by number and index, the PTP instances and the output groups of the pair. -/
structure Keep where
  regs : Table Nat
  inst : Table PtpInst
  groups : Table (Option (Nat × Nat))
  deriving DecidableEq, Repr

/-- The host link, boot, power states and the recovery ladder (chapter 15). -/
structure HostIf where
  /-- What the last read of the host returned, and its PCIe completion: 0 done, 1 Unsupported Request, 2 Completer Abort, 3 poisoned. -/
  rd : List Byte
  rdStatus : Nat
  /-- PCIe configuration space by double word; MSI-X table by word (Table 15.1). -/
  cfg : Table Nat
  msix : Table Nat
  /-- A keyed request or a criterion of Table 15.8 for a warm reset (its cause) or a power cycle. -/
  warmReq : Option Nat
  cycleReq : Option Nat
  /-- `RESET_FN` runs: function, index, second of the always-on counter, failed. -/
  fnLog : List (Nat × Nat × Nat × Bool)
  /-- Seconds at which warm resets started. -/
  warmAt : List Nat
  /-- The power state requested for the next tick (R473). -/
  pwrReq : Option Nat
  /-- FAIL_N and CORE_ON pins: driven low, high. -/
  failN : Bool
  coreOn : Bool
  /-- A manifest is under verification; the valid manifest's entries: first bundle, count, hash (R470). -/
  manBusy : Bool
  manifest : List (Nat × Nat × Nat)
  /-- GO started the verification of a host-pushed image (R471). -/
  pushed : Bool
  /-- The 256-byte FIFO of `HOST_QSPI_DATA`, oldest byte first. -/
  qfifo : List Byte
  /-- Staged always-on counter low word (writing HI commits both). -/
  aoLo : Nat
  /-- An event 0x0B01 or 0x0B03 that waits for the event ring: code and word 2. -/
  owedEvents : List (Nat × Nat)
  /-- The thermal alarm of R499 is raised; THERM_N is low then and while a thermal trip holds. -/
  hot : Bool
  /-- The engine writes nothing to the host (R458), until the host takes the link or a ring up again. -/
  linkOff : Bool
  /-- A non-fatal error has been reported through AER (R456). -/
  aer : Bool
  /-- The last MSI-X message sent: vector, address and data. -/
  msiOut : Option (Nat × Nat × Nat)
  /-- The keep set as the supervisor last wrote it to DRAM, once a reset has begun and while DRAM keeps it. -/
  keep : Option Keep
  /-- VBAT was lost since the last power-up (R474). -/
  vbLost : Bool
  /-- The boot in progress leaves Retain. -/
  retained : Bool
  /-- Acknowledged transactions that the last warm reset lost. -/
  ackLost : Nat
  /-- The UART is enabled by the boot configuration (R467), and the text that it has sent. -/
  uart : Bool
  uartOut : List Byte
  deriving DecidableEq, Repr

def HostIf.reset : HostIf :=
  { rd := [], rdStatus := 0, cfg := [], msix := [], warmReq := none, cycleReq := none, fnLog := [], warmAt := [], pwrReq := none,
    failN := false, coreOn := true, manBusy := false, manifest := [], pushed := false, qfifo := [], aoLo := 0,
    owedEvents := [], hot := false, linkOff := false, aer := false, msiOut := none, keep := none, vbLost := false,
    retained := false, ackLost := 0, uart := false, uartOut := [] }

/-! ### The engine -/

/-- Everything but the queue of commands. -/
structure Engine where
  /-- Register fields by number and index; an unlisted one holds its reset value (`Fld.reset`). -/
  regs : Table Nat
  /-- Register fields written and not yet in effect: they take effect at the next frame tick (R170, R202, R247). -/
  regsNext : Table Nat
  /-- Latched words of split counters (R80). -/
  latch : Table Nat
  /-- Every byte of the engine address space; an unlisted byte reads 0. -/
  mem : List Host.Cell
  /-- ECC state of the granules in error, by address: 1 single-bit, 2 uncorrectable, 3 the DRAM poison code word (R448). -/
  ecc : Table Nat
  cells : Table Cell
  sched : Sched
  health : Health
  mix : Mix
  ports : PortSt
  clk : ClkSt
  net : NetSt
  ptp : PtpSt
  fab : FabSt
  pair : PairSt
  ctl : Ctl
  xmem : Xmem
  host : HostIf
  /-- House samples counted from engine start at the tick of the frame in progress (R49). -/
  sample : Nat
  /-- Why the engine is held in reset, as a bit set: 0 OSC_IN, 1 thermal trip, 2 power cycle, 3 RST_N or PWR_GOOD, 4 test mode, 5 FX, 6 Retain; 0 when it runs. -/
  held : Nat
  /-- Free values read so far (`Config.freeValue`): the model's own field. -/
  free : Nat
  deriving DecidableEq, Repr

def Engine.reset : Engine :=
  { regs := [], regsNext := [], latch := [], mem := [], ecc := [], cells := [], sched := Sched.reset, health := Health.reset,
    mix := Mix.reset, ports := PortSt.reset, clk := ClkSt.reset, net := NetSt.reset, ptp := PtpSt.reset,
    fab := FabSt.reset, pair := PairSt.reset, ctl := Ctl.reset, xmem := Xmem.reset, host := HostIf.reset, sample := 0, held := 0, free := 0 }

/-- The block: the queue of the commands that wait, first in first out, and the engine. -/
structure State where
  pending : List Instr
  e : Engine
  deriving DecidableEq, Repr

/-- The machine right after reset: no command waits. -/
def State.reset : State := { pending := [], e := Engine.reset }

end Sys2Proof.Machine
end

