-- ==== Sys2Proof/Machine/Ops.lean ====
section
/-! DEFINITION. The named operations over the engine's state: register fields, memory, events, completions, and how a command's
effect becomes a step. -/
namespace Sys2Proof.Machine

/-! ### Register fields -/

/-- The number of a field's instance in the register table. -/
def fkey (f : Fld) (i : Nat) : Nat := f.ctorIdx + 1024 * i

/-- The value a field holds. -/
def getF (f : Fld) (i : Nat) (e : Engine) : Nat := tget (f.reset i) e.regs (fkey f i)

/-- Sets a field, at its width. -/
def setF (f : Fld) (i v : Nat) (e : Engine) : Engine :=
  { e with regs := tput (f.reset i) e.regs (fkey f i) (v % 2 ^ f.width) }

/-- Adds to a counter, which saturates at its maximum (R12). -/
def bumpF (f : Fld) (i n : Nat) (e : Engine) : Engine := setF f i (min (getF f i e + n) (2 ^ f.width - 1)) e

/-- Adds to a counter whose description lets it wrap. -/
def wrapF (f : Fld) (i n : Nat) (e : Engine) : Engine := setF f i (getF f i e + n) e

/-- Raises an extreme-value field to at least `v`. -/
def maxF (f : Fld) (i v : Nat) (e : Engine) : Engine := if getF f i e < v then setF f i v e else e

/-- A field as a flag. -/
def isF (f : Fld) (i : Nat) (e : Engine) : Bool := getF f i e != 0

/-- Bit `b` of a field. -/
def bitF (f : Fld) (i b : Nat) (e : Engine) : Bool := getF f i e / 2 ^ b % 2 == 1

/-- `v` with bit `b` set or cleared. -/
def setBit (v b : Nat) (on : Bool) : Nat :=
  if on then (if v / 2 ^ b % 2 == 1 then v else v + 2 ^ b) else (if v / 2 ^ b % 2 == 1 then v - 2 ^ b else v)

/-- Sets or clears bit `b` of a field. -/
def setBitF (f : Fld) (i b : Nat) (on : Bool) (e : Engine) : Engine := setF f i (setBit (getF f i e) b on) e

/-- Number of 1 bits among the low `n` bits. -/
def popcount (v : Nat) : Nat → Nat
  | 0 => 0
  | n + 1 => popcount v n + v / 2 ^ n % 2

/-- The frame number (R49). -/
def frameNo (e : Engine) : Nat := 2 ^ 32 * getF .SYS_FRAME_CNT_HI_FRAME 0 e + getF .SYS_FRAME_CNT_LO_FRAME 0 e

/-- F, the house samples of a frame (Table 2.7). -/
def frameLen (e : Engine) : Nat := 2 ^ getF .SYS_FRAME_CFG_FLOG 0 e

/-- The nominal house rate in Hz (Table 2.7). -/
def houseHz (e : Engine) : Nat :=
  match getF .SYS_FRAME_CFG_RATE 0 e with
  | 0 => 44100
  | 1 => 48000
  | 2 => 88200
  | _ => 96000

/-- The pull factor of the house rate as a fraction (R315). -/
def pullOf (e : Engine) : Nat × Nat :=
  match getF .SYS_FRAME_CFG_PULL 0 e with
  | 1 => (1001, 1000)
  | 2 => (1000, 1001)
  | _ => (1, 1)

/-- The frame time in ns, as a fraction: F samples at the pulled house rate (R50, R315). -/
def frameTime (e : Engine) : Nat × Nat :=
  let p := pullOf e
  (1000000000 * frameLen e * p.2, houseHz e * p.1)

/-- The frame time in whole ns. -/
def frameNs (e : Engine) : Nat := let t := frameTime e; t.1 / t.2

/-- The end of the usable window, in ns from the tick: 6 µs before the next one (R54). -/
def windowEnd (e : Engine) : Nat := frameNs e - 6000

/-- The engine is in the power state Run, 0 of `HOST_PWR_STAT.STATE` (R473). -/
def inRun (e : Engine) : Bool := getF .HOST_PWR_STAT_STATE 0 e == 0
/-- The engine is in the power state Quiescent. -/
def inQuiescent (e : Engine) : Bool := getF .HOST_PWR_STAT_STATE 0 e == 1

/-- The next free value, and the engine that has read it. -/
def takeFree (e : Engine) : BitVec 64 × Engine := (Config.freeValue e.free, { e with free := e.free + 1 })

/-- A fault of R418 occurs in the frame in progress. -/
def markFault (e : Engine) : Engine := { e with pair := { e.pair with fault := true } }

/-! ### Memory -/

/-- The canonical form of a memory: addresses strictly rising, and no entry that an unlisted address reads as, 0. -/
def Memory.wf (m : List Host.Cell) : Bool := twf 0 m

/-- One byte of the address space. -/
def readByte (e : Engine) (a : Nat) : Byte := tget 0 e.mem a

def writeByte (a : Nat) (v : Byte) (e : Engine) : Engine := { e with mem := tput 0 e.mem a v }

/-- `n` bytes from `a`. -/
def readBytes (e : Engine) (a : Nat) : Nat → List Byte
  | 0 => []
  | n + 1 => readByte e a :: readBytes e (a + 1) n

def writeBytes (a : Nat) : List Byte → Engine → Engine
  | [], e => e
  | b :: bs, e => writeBytes (a + 1) bs (writeByte a b e)

/-- Little-endian bytes as a number (R505). -/
def leNat : List Byte → Nat
  | [] => 0
  | b :: bs => b.toNat + 256 * leNat bs

/-- The `n` little-endian bytes of a number. -/
def leBytes (v : Nat) : Nat → List Byte
  | 0 => []
  | n + 1 => BitVec.ofNat 8 v :: leBytes (v / 256) n

def read32 (e : Engine) (a : Nat) : Nat := leNat (readBytes e a 4)
def read64 (e : Engine) (a : Nat) : Word64 := BitVec.ofNat 64 (leNat (readBytes e a 8))
def write32 (a v : Nat) (e : Engine) : Engine := writeBytes a (leBytes v 4) e
def write64 (a : Nat) (v : Word64) (e : Engine) : Engine := writeBytes a (leBytes v.toNat 8) e

/-- `n` 64-bit words from `a`. -/
def readWords (e : Engine) (a : Nat) : Nat → List Word64
  | 0 => []
  | n + 1 => read64 e a :: readWords e (a + 8) n

def writeWords (a : Nat) : List Word64 → Engine → Engine
  | [], e => e
  | w :: ws, e => writeWords (a + 8) ws (write64 a w e)

/-- The size of the ECC granule that holds an address: 4 bytes of cell data memory, 16 of program memory, 8 elsewhere (Table 14.1, R450). -/
def granSize (a : Nat) : Nat :=
  if a < 0x10000000 then (if a % 0x100000 < 0x30000 then 4 else 16) else 8

/-- The first address of the granule of `a`. -/
def gran (a : Nat) : Nat := a / granSize a * granSize a

/-- ECC state of the granule of `a`: 0 clean, 1 single-bit, 2 uncorrectable. -/
def eccAt (e : Engine) (a : Nat) : Nat := tget 0 e.ecc (gran a)

def setEcc (a v : Nat) (e : Engine) : Engine := { e with ecc := tput 0 e.ecc (gran a) v }

/-- The worst ECC state over the granules that `n` bytes from `a` touch. -/
def eccWorst (e : Engine) (a : Nat) : Nat → Nat
  | 0 => 0
  | n + 1 => max (eccAt e a) (eccWorst e (a + 1) n)

/-- A write of `n` bytes from `a` makes every granule that it covers whole a new word with good check bits. -/
def clearEcc (a n : Nat) : Nat → Engine → Engine
  | 0, e => e
  | k + 1, e =>
    let g := gran (a + k)
    let e := if a ≤ g ∧ g + granSize g ≤ a + n then { e with ecc := tput 0 e.ecc g 0 } else e
    clearEcc a n k e

/-- Stores bytes with good check bits. -/
def store (a : Nat) (bs : List Byte) (e : Engine) : Engine := clearEcc a bs.length bs.length (writeBytes a bs e)

/-- The engine address of a host bus address, when it lies in the 128 GB that `HOST_OUTB_BASE` opens (R457). -/
def hostAt (e : Engine) (h n : Nat) : Option Nat :=
  let base := 2 ^ 32 * getF .HOST_OUTB_BASE_HI_OUTB 0 e + 2 ^ 12 * getF .HOST_OUTB_BASE_LO_OUTB 0 e
  if base ≤ h ∧ h + n ≤ base + 0x2000000000 then some (0x2000000000 + (h - base)) else none

/-! ### Events, completions and interrupts (R252–R254, R459) -/

/-- A source fires on an MSI-X vector. -/
def fireMsi (v : Nat) (e : Engine) : Engine := { e with ctl := { e.ctl with msi := tput false e.ctl.msi v true } }

/-- The ring size of an event or completion ring. -/
def evSize (e : Engine) : Nat := 2 ^ getF .HOST_EV_CFG_LOG2 0 e
def cqSize (e : Engine) (k : Nat) : Nat := 2 ^ getF .HOST_CQ_CFG_LOG2 k e

/-- The words of an event entry, with its sequence number and PHASE (Table 8.2). -/
def eventWords (code : Nat) (payload : List Nat) (eseq : Nat) (phase : Nat) (frame : Nat) : List Word64 :=
  BitVec.ofNat 64 (2 ^ 48 * code + 2 ^ 32 * payload.length + eseq % 2 ^ 31 * 2 + phase)
    :: BitVec.ofNat 64 frame :: (payload ++ List.replicate (6 - payload.length) 0).map (BitVec.ofNat 64)

/-- Writes the words of a ring entry to the host, when the entry lies in the window that `HOST_OUTB_BASE` opens; else it counts. -/
def putEntry (h n : Nat) (ws : List Word64) (e : Engine) : Engine :=
  match hostAt e h n with
  | some a => writeWords a ws e
  | none => bumpF .HOST_PCIE_STAT_OUTRNG 0 1 e

/-- One more entry of ring `k` is in use, after the entry `tail` of `size`: at the ring's end the phase changes. -/
def useEntry (k tail size : Nat) (e : Engine) : Engine :=
  let inv := tget false e.ctl.phase k
  { e with ctl := { e.ctl with used := tput 0 e.ctl.used k (tget 0 e.ctl.used k + 1),
                               phase := tput false e.ctl.phase k (if tail + 1 ≥ size then !inv else inv) } }

/-- Fires a source on its vector when `on`. -/
def fireIf (on : Bool) (v : Nat) (e : Engine) : Engine := if on then fireMsi v e else e

/-- The address of the event ring's entry at its tail. -/
def evEntry (e : Engine) : Nat :=
  2 ^ 32 * getF .HOST_EV_BASE_HI_BASE 0 e + getF .HOST_EV_BASE_LO_BASE 0 e + 64 * getF .HOST_EV_TAIL_TAIL 0 e

/-- Writes an event entry at the ring's tail; the caller has checked that an entry is free. -/
def writeEvent (code : Nat) (payload : List Nat) (e : Engine) : Engine :=
  let tail := getF .HOST_EV_TAIL_TAIL 0 e
  let size := evSize e
  let ws := eventWords code payload e.ctl.eseq (if tget false e.ctl.phase 8 then 0 else 1) (frameNo e)
  let e := useEntry 8 tail size (putEntry (evEntry e) 64 ws e)
  let e := { e with ctl := { e.ctl with eseq := (e.ctl.eseq + 1) % 2 ^ 31 } }
  let e := setF .HOST_EV_TAIL_TAIL 0 (if tail + 1 ≥ size then 0 else tail + 1) e
  let e := fireIf (isF .HOST_EV_CFG_IRQ 0 e) (getF .HOST_EV_CFG_VEC 0 e) e
  fireIf (isF .HOST_ERRVEC_EN 0 e && (code / 256 == 5 || code == 0x0B05)) (getF .HOST_ERRVEC_VEC 0 e) e

/-- The event ring has a free entry. -/
def evFree (e : Engine) : Bool := isF .HOST_EV_CFG_EN 0 e && !e.host.linkOff && decide (tget 0 e.ctl.used 8 < evSize e)

/-- Event 0x0406 with the number of events lost, when an entry is free (R254). -/
def reportLost (e : Engine) : Engine :=
  if e.ctl.lost != 0 && evFree e then writeEvent 0x0406 [e.ctl.lost] { e with ctl := { e.ctl with lost := 0 } } else e

/-- Posts an event (R254): after the report of those lost, when an entry is free; else it is discarded and counted. -/
def postEvent (code : Nat) (payload : List Nat) (e : Engine) : Engine :=
  let e := reportLost e
  if evFree e then writeEvent code payload e
  else bumpF .HOST_EV_LOST_LOST 0 1 { e with ctl := { e.ctl with lost := e.ctl.lost + 1 } }

/-- The first word of a completion without PHASE (Table 8.1). -/
def compWord (tag status op : Nat) (replay : Bool) : Word64 :=
  BitVec.ofNat 64 (2 ^ 32 * (tag % 2 ^ 32) + 2 ^ 16 * (status % 2 ^ 16) + op % 256 * 256 + (if replay then 4 else 0))

/-- The completion ring k has a free entry. -/
def cqFree (e : Engine) (k : Nat) : Bool := isF .HOST_CQ_CFG_EN k e && !e.host.linkOff && decide (tget 0 e.ctl.used k < cqSize e k)

/-- Writes a completion at the tail of CQk; the caller has checked that an entry is free. -/
def writeComp (k : Nat) (w0 w1 : Word64) (e : Engine) : Engine :=
  let tail := getF .HOST_CQ_TAIL_TAIL k e
  let size := cqSize e k
  let base := 2 ^ 32 * getF .HOST_CQ_BASE_HI_BASE k e + getF .HOST_CQ_BASE_LO_BASE k e
  let w0 := if tget false e.ctl.phase k then w0 else w0 + 1
  let e := useEntry k tail size (putEntry (base + 16 * tail) 16 [w0, w1] e)
  let e := setF .HOST_CQ_TAIL_TAIL k (if tail + 1 ≥ size then 0 else tail + 1) e
  fireIf (isF .HOST_CQ_CFG_IRQ k e) (getF .HOST_CQ_CFG_VEC k e) e

/-- Posts a completion on CQk, after those that wait for a free entry (R253). -/
def pushComp (k : Nat) (w0 w1 : Word64) (e : Engine) : Engine :=
  if cqFree e k && !(e.ctl.owed.any fun p => p.1 == k) then writeComp k w0 w1 e
  else { e with ctl := { e.ctl with owed := e.ctl.owed ++ [(k, w0, w1)] } }

/-! ### Containment records (R24) -/

/-- `SYS_CONTAIN_LAST` as a word (Table 1.14). -/
def containWord (level cause ident : Nat) (subsumed : Bool) : Nat :=
  2 ^ 29 * level + 2 ^ 28 * subsumed.toNat + 2 ^ 24 * cause + ident

/-- Shows a record in `SYS_CONTAIN_LAST` and `SYS_CONTAIN_FRAME`. -/
def showContain (level cause ident fr : Nat) (e : Engine) : Engine :=
  let e := setF .SYS_CONTAIN_LAST_LEVEL 0 level e
  let e := setF .SYS_CONTAIN_LAST_CAUSE 0 cause e
  let e := setF .SYS_CONTAIN_LAST_IDENT 0 ident e
  let e := setF .SYS_CONTAIN_FRAME_LO_FRAME 0 (fr % 2 ^ 32) e
  setF .SYS_CONTAIN_FRAME_HI_FRAME 0 (fr / 2 ^ 32) e

/-- Records an action of Table 1.2 that takes effect at a frame boundary and posts its event (R24). -/
def contain (level cause ident : Nat) (subsumed : Bool) (e : Engine) : Engine :=
  let e := showContain level cause ident (frameNo e) e
  let e := if subsumed then setF .SYS_CONTAIN_LAST_SUBSUMED 0 1 e else e
  postEvent 0x0001 [containWord level cause ident subsumed] e

/-- Posts the event of an immediate action; the registers show it at the next boundary (R48). -/
def containNow (level cause ident : Nat) (e : Engine) : Engine :=
  postEvent 0x0001 [containWord level cause ident false]
    { e with health := { e.health with recs := e.health.recs ++ [(level, cause, ident, frameNo e)] } }

/-! ### Recovery ladder (R475) -/

/-- A criterion of level 3 of Table 15.8 is met: the warm reset is requested with its cause. -/
def requestWarm (cause : Nat) (e : Engine) : Engine :=
  if e.host.warmReq.isSome then e else { e with host := { e.host with warmReq := some cause } }

/-- `RESET_FN` of a function and index is in progress. -/
def resetting (e : Engine) (fn idx : Nat) : Bool := e.ctl.resetFn.any fun r => r.1 == fn && r.2.1 == idx

/-- The seconds counter of the always-on domain (R474). -/
def aoSec (e : Engine) : Nat := 2 ^ 32 * getF .SYS_AO_SEC_HI_SEC 0 e + getF .SYS_AO_SEC_LO_SEC 0 e

def setAoSec (v : Nat) (e : Engine) : Engine := setF .SYS_AO_SEC_HI_SEC 0 (v / 2 ^ 32) (setF .SYS_AO_SEC_LO_SEC 0 (v % 2 ^ 32) e)

/-- A second of the always-on domain passes (R474): the counter, a counter under R12, rises, and the alarm fires when it reaches ALARM. -/
def aoTick (e : Engine) : Engine :=
  let n := min (aoSec e + 1) (2 ^ 40 - 1)
  let e := setAoSec n e
  if isF .SYS_AO_CFG_ALEN 0 e && n % 2 ^ 32 == getF .SYS_AO_ALARM_ALARM 0 e then setF .SYS_AO_STAT_ALARMED 0 1 e else e

/-- A re-initialisation of the function is under way: one that failed has left its mark under ring 9, and keeps the state "during". -/
def resetBusy (e : Engine) (fn idx : Nat) : Bool := e.ctl.resetFn.any fun r => r.1 == fn && r.2.1 == idx && r.2.2.2 != 9

/-- Starts a `RESET_FN` (R476): the function goes to its state "during" of Table 15.9. Tag and ring name the directive; ring 8 is the
supervisor. The fourth start of one function within 60 s requests a warm reset with cause 0x04. -/
def beginReset (fn idx tag ring : Nat) (e : Engine) : Engine :=
  if resetBusy e fn idx then { e with ctl := { e.ctl with resetFn := e.ctl.resetFn ++ [(fn, idx, tag, ring)] } }
  else
    let e := { e with ctl := { e.ctl with resetFn := e.ctl.resetFn.filter fun r => !(r.1 == fn && r.2.1 == idx) } }
    let e := maxF .HOST_RST_STAT_LEVEL 0 2 e
    let now := aoSec e
    let recent := e.host.fnLog.filter fun r => decide (now ≤ r.2.2.1 + 60)
    let e := { e with host := { e.host with fnLog := recent ++ [(fn, idx, now, false)] },
                      ctl := { e.ctl with resetFn := e.ctl.resetFn ++ [(fn, idx, tag, ring)] } }
    let e := if 3 ≤ (recent.filter fun r => r.1 == fn && r.2.1 == idx && !r.2.2.2).length then requestWarm 0x04 e else e
    match fn with
    | 0x01 => { e with ports := { e.ports with port := tput Port.idle e.ports.port idx { tget Port.idle e.ports.port idx with reset := true } } }
    | 0x04 => setF .FAB_LINK_STAT_STATE idx 1 e
    | 0x06 => setF .DDRC_STAT_STATE 0 6 e
    | _ => e

/-- The UART sends an entry of the boot and fault log as text, when the boot configuration has enabled it (R467). -/
def uartSend (entry : List Byte) (e : Engine) : Engine :=
  if e.host.uart then { e with host := { e.host with uartOut := e.host.uartOut ++ Config.logText entry } } else e

/-- Appends an entry to the always-on log (Table 15.7); bytes 30 and 31 hold the CRC-16, whose polynomial the spec does not give. -/
def aoLog (code cause : Nat) (detail : List Byte) (e : Engine) : Engine :=
  let p := takeFree e
  let e := p.2
  let k := getF .SYS_AO_STAT_HEAD 0 e
  let bytes := leBytes (aoSec e) 5 ++ [BitVec.ofNat 8 code] ++ leBytes cause 2 ++ leBytes (frameNo e) 8
    ++ (detail ++ List.replicate 14 0).take 14 ++ leBytes p.1.toNat 2
  let e := (List.range 8).foldl (fun e j => setF .SYS_AO_LOG_LOG (8 * k + j) (leNat ((bytes.drop (4 * j)).take 4)) e) e
  uartSend bytes (setF .SYS_AO_STAT_HEAD 0 ((k + 1) % 32) e)

/-! ### How a command runs -/

/-- A command with the mnemonic `m` whose operands are in their tables (`ok`) has its effect; another is refused. -/
def run (m : String) (ok : Bool) (eff : Engine → Engine) (s : State) : Host.Outcome State Fault Refusal :=
  if ok then .next { s with e := eff s.e } else .refused (.illFormed m)

/-- A command that the engine carries out only while it is not held in reset: held, it has no effect. -/
def runLive (m : String) (ok : Bool) (eff : Engine → Engine) (s : State) : Host.Outcome State Fault Refusal :=
  run m ok (fun e => if e.held = 0 then eff e else e) s

end Sys2Proof.Machine
end

