-- ==== Sys2Proof/Machine/Flags.lean ====
section
/-! DEFINITION. Flag computations of the cell: saturation with SAT (R95, R96) and accumulation with pinning and OV (R97, R98). -/
namespace Sys2Proof.Machine

/-- A Q1.31 result saturated, and whether SAT sets (R96). -/
def satWord (v : Int) : Word × Bool :=
  let p := satTo 32 v
  (BitVec.ofInt 32 p.1, p.2)

/-- The high half of a word as a signed Q1.15, and the low half. -/
def hiHalf (w : Word) : Int := (w.extractLsb' 16 16).toInt
def loHalf (w : Word) : Int := (w.extractLsb' 0 16).toInt

/-- Two Q1.15 results, each saturated on its own; SAT sets when either saturates (R96). -/
def satPair (hi lo : Int) : Word × Bool :=
  let h := satTo 16 hi
  let l := satTo 16 lo
  (BitVec.ofInt 16 h.1 ++ BitVec.ofInt 16 l.1, h.2 || l.2)

/-- An accumulator's value with its PIN bit. -/
structure AccVal where
  v : Acc80
  pin : Bool
  deriving DecidableEq, Repr

/-- Adds a product to an accumulator (R97, R98): the new value and whether OV sets. A pinned accumulator stays as it is. -/
def accumulate (a : AccVal) (prod : Int) : AccVal × Bool :=
  if a.pin then (a, false)
  else
    let s := a.v.toInt + prod
    if (2 ^ 79 : Nat) - 1 < s then (⟨BitVec.ofNat 80 (2 ^ 79 - 1), true⟩, true)
    else if s < -(2 ^ 79 : Nat) then (⟨BitVec.ofNat 80 (2 ^ 79), true⟩, true)
    else (⟨BitVec.ofInt 80 s, false⟩, false)

/-- Extraction with shift `s`, RNE or truncation (R95): the result and whether SAT sets. -/
def extract (a : AccVal) (s : Int) (trunc : Bool) : Word × Bool :=
  if a.pin then (if 0 < a.v.toInt then BitVec.ofNat 32 (2 ^ 31 - 1) else BitVec.ofNat 32 (2 ^ 31), true)
  else
    let k := (31 - s).toNat
    satWord (if trunc then a.v.toInt / (2 ^ k : Nat) else rne a.v.toInt k)

/-- MPYD (R129): the product over 2^31, RNE, saturated. -/
def mulRound (x y : Word) : Word × Bool := satWord (rne (x.toInt * y.toInt) 31)

/-- SHLV (R132). -/
def shiftVar (a : Word) (n : Int) : Word × Bool :=
  if 0 < n then satWord (a.toInt * (2 ^ (min n.toNat 31) : Nat))
  else if n ≤ -32 then (if a.toInt < 0 then BitVec.ofInt 32 (-1) else 0, false)
  else (BitVec.ofInt 32 (a.toInt / (2 ^ (-n).toNat : Nat)), false)

/-- Redundant sign bits from bit `k` down (R132). -/
def signBits (a : Word) (s : Bool) : Nat → Nat
  | 0 => 0
  | k + 1 => if a.getLsbD k == s then 1 + signBits a s k else 0

/-- LSC (R132). -/
def countSign (a : Word) : Nat := signBits a a.msb 31

/-- 20 log10(|x|) of a Q1.31 word in Q9.23 (R133): the exact figures of R133 for 0 and −1, else within ±0.01 dB and rising with |x|. -/
def levelDb (x : Word) : Word :=
  if x = 0 then BitVec.ofNat 32 (2 ^ 31)
  else if x.toInt = -(2 ^ 31 : Nat) then 0
  else
    let mag := x.toInt.natAbs
    -- 20 log10(2) = 6.0205999132796239 dB per octave
    let exact := roundDiv (2 ^ 23 * (60205999132796239 * ((log2Q40 mag : Int) - 31 * 2 ^ 40))) (2 ^ 40 * 10 ^ 16)
    BitVec.ofInt 32 (risingWithin 0 31 mag (exact - 83885) (min 0 (exact + 83885)))

/-- The least and the greatest result that R133 allows where `v` is the exactly rounded one: ±1 LSB below 2^12 LSB, from there on ±0.01 dB; no
result above is less than one below, since the sequence is non-decreasing. -/
def linearBand (v : Int) : Int × Int :=
  if v = 0 then (0, 0)
  else if v < 4096 then (v - 1, v + 1)
  else (max 4094 (v - 1150 * v / 1000000), min ((2 ^ 31 : Nat) - 1) (v + 1150 * v / 1000000))

/-- 10^(d/20) of a Q9.23 word, in Q1.31 or Q4.28 (R133), with SAT: within ±0.01 dB from 2^12 LSB up, within 1 LSB below, rising with d. -/
def linearOf (d : Word) (q28 : Bool) : Word × Bool :=
  let sh := if q28 then 36 else 33
  let exact := exp2Q64 (33219280948873623478 * d.toInt) (20 * 2 ^ 23 * 10 ^ 19)
  if (2 ^ 31 - 1) * 2 ^ sh < exact then (BitVec.ofNat 32 (2 ^ 31 - 1), true)
  else
    let band := linearBand (min ((2 ^ 31 : Nat) - 1) (roundDiv (exact : Int) (2 ^ sh)))
    (BitVec.ofInt 32 (risingWithin (if q28 then 2 else 1) 32 (d.toInt + (2 ^ 31 : Nat)).toNat band.1 band.2), false)

/-- The word that an intermediate step of a conversion writes for word `w` (R133): a one-to-one mixing of the word's halves by the device's own
functions, so that the words of the sequence stand for its input (DESIGN CHOICE, log 147: two inputs never share an intermediate word). -/
def convWord (step : Nat) (w : Word) : Word :=
  let f := Config.convRound step
  let a := w.extractLsb' 16 16
  let b := w.extractLsb' 0 16
  let b := b + f 0 a
  let a := a + f 1 b
  let b := b + f 2 a
  (a + f 3 b) ++ b

/-- The word from which an intermediate step writes `w`. -/
def convBack (step : Nat) (w : Word) : Word :=
  let f := Config.convRound step
  let a := w.extractLsb' 16 16
  let b := w.extractLsb' 0 16
  let a := a - f 3 b
  let b := b - f 2 a
  let a := a - f 1 b
  a ++ (b - f 0 a)

/-- The input of the sequence whose third step wrote word `w`: `base` is 0 for LDB, 4 for DBL. -/
def convInput (base : Nat) (w : Word) : Word := convBack base (convBack (base + 1) (convBack (base + 2) w))

/-- A step of the conversions of R133 on a word: `step` is 0–3 for LDB0–LDB3 and 4–7 for DBL0–DBL3. A final step returns the documented result of
the input from which the sequence has formed its word. -/
def convert (step : Nat) (q28 : Bool) (w : Word) : Word × Bool :=
  if step = 3 then (levelDb (convInput 0 w), false)
  else if step = 7 then linearOf (convInput 4 w) q28
  else (convWord step w, false)

end Sys2Proof.Machine
end

