-- ==== Sys2Proof/Machine/Operands.lean ====
section
/-! DEFINITION. Operand forms: the bundle's slots and guards (chapter 4), register names of the cell, the address modes of the load and
store slots, and the fields of descriptors and transfer entries (chapter 5). -/
namespace Sys2Proof.Machine

/-- Bits [hi:lo] of a bundle or a slot. -/
def field (v hi lo : Nat) : Nat := v / 2 ^ lo % 2 ^ (hi - lo + 1)

/-! ### The slots of a bundle (Table 4.1) -/

def slotM (b : Nat) : Nat := field b 127 96
def slotX (b : Nat) : Nat := field b 95 68
def slotL0 (b : Nat) : Nat := field b 67 44
def slotL1 (b : Nat) : Nat := field b 43 20
def slotC (b : Nat) : Nat := field b 19 0

/-- The C slot holds an IMX (R142): its target and its immediate. -/
def imxOf (b : Nat) : Option (Nat × Nat) :=
  if field b 19 18 = 3 then some (field b 17 16, field b 15 0) else none

/-- The immediate aimed at the target, if any. -/
def imxFor (b tgt : Nat) : Option Nat :=
  match imxOf b with
  | some (t, v) => if t = tgt then some v else none
  | none => none

/-- The predicate Pp as the bank shows it. -/
def predOf (bk : Bank) (p : Nat) : Bool := tget true bk.p p

/-- The guard field of Table 4.2. -/
def guardOk (bk : Bank) (g : Nat) : Bool :=
  if g = 0 then true else if 8 ≤ g then predOf bk (g - 8) else !predOf bk g

/-! ### Register names -/

/-- The physical register behind a D name (R145). -/
def physD (bk : Bank) (r : Nat) : Nat := if r < 16 then r else 16 + (r - 16 + bk.rbase.toNat) % 16

/-- Dr of a lane. -/
def dReg (bk : Bank) (lane r : Nat) : Word := tget 0 bk.d (32 * lane + physD bk r)

/-- The index a result for Dr of a lane lands at. -/
def dIdx (bk : Bank) (lane r : Nat) : Nat := 32 * lane + physD bk r

/-- The scalar register named by a scalar code. -/
def sReg (bk : Bank) (code : Nat) : Scalar := tget 0 bk.s code

/-- A scalar register's value as 32 bits: sign-extended from an M register, zero-extended otherwise (R130, Table 4.9). -/
def sExt (bk : Bank) (code : Nat) : Word :=
  if code / 8 = 3 then (sReg bk code).signExtend 32 else (sReg bk code).zeroExtend 32

/-- An accumulator as a bundle sees it, and as a MAC-class operation sees it (R127). -/
def accOf (bk : Bank) (lane a : Nat) : AccVal := ⟨tget 0 bk.acc (4 * lane + a), tget false bk.pin (4 * lane + a)⟩
def accMOf (bk : Bank) (lane a : Nat) : AccVal := ⟨tget 0 bk.accM (4 * lane + a), tget false bk.pinM (4 * lane + a)⟩

/-- The raw part of an accumulator (ACCR, XRDA): part 3 is reserved. -/
def accPart (v : Acc80) (part : Nat) : Word :=
  if part = 0 then v.extractLsb' 0 32 else if part = 1 then v.extractLsb' 32 32 else (v.extractLsb' 64 16).signExtend 32

/-! ### Addresses of the load and store slots (R136–R141) -/

/-- Reverses the low `k` bits. -/
def revBits (v : Nat) : Nat → Nat
  | 0 => 0
  | k + 1 => v % 2 * 2 ^ k + revBits (v / 2) k

/-- The unit u of an L-slot operation (Table 4.9). -/
def lUnit (op : Nat) : Nat := if op = 1 ∨ op = 2 then 16 else if op = 5 then 2 else 4

/-- A signed 6-bit immediate times the unit. -/
def x6 (v op : Nat) : Int := signed 6 v * (lUnit op : Int)

/-- An after a linear step (R137). -/
def stepLinear (an : Scalar) (m : Int) : Scalar := BitVec.ofInt 18 (an.toNat + m)

/-- An after a circular step (R138). -/
def stepCircular (an bn ln : Scalar) (m : Int) : Scalar :=
  if ln = 0 then stepLinear an m
  else BitVec.ofInt 18 (bn.toNat + ((an.toNat : Int) - bn.toNat + m) % (ln.toNat : Int))

/-- An after a bit-reversed step (R139). The rule gives Ln = 1, a power of two with k = 0, no step: the model makes it linear (DESIGN CHOICE,
log 144). -/
def stepReversed (an bn ln mk : Scalar) : Scalar :=
  let k := Nat.log2 ln.toNat
  if ln.toNat = 0 ∨ ln.toNat ≠ 2 ^ k ∨ k < 1 ∨ 17 < k then stepLinear an mk.toInt
  else
    let o := ((an.toNat : Int) - bn.toNat) % (2 ^ k : Nat)
    let o := revBits ((revBits o.toNat k + revBits (mk.toNat % 2 ^ k) k) % 2 ^ k) k
    BitVec.ofNat 18 (bn.toNat + o)

/-- The access address before alignment, and An after the access, of an L slot (Table 4.10). -/
def lAddress (bk : Bank) (slot : Nat) (imm : Option Nat) : Scalar × Option Scalar :=
  let op := field slot 19 17
  let n := field slot 11 9
  let mode := field slot 8 6
  let x := field slot 5 0
  let an := sReg bk n
  let bn := sReg bk (8 + n)
  let ln := sReg bk (16 + n)
  let mk := sReg bk (24 + x % 8)
  match mode with
  | 0 => (an, none)
  | 1 => (an, some (stepLinear an mk.toInt))
  | 2 => (an, some (stepLinear an (x6 x op)))
  | 3 => (an, some (stepCircular an bn ln mk.toInt))
  | 4 => (an, some (stepCircular an bn ln (x6 x op)))
  | 5 => (an, some (stepReversed an bn ln mk))
  | 6 => (BitVec.ofNat 18 (imm.getD 0 * 4), none)
  | _ => (stepLinear an (x6 x op), none)

/-- The aligned access address (R85). -/
def lAlign (op : Nat) (a : Scalar) : Nat := a.toNat / lUnit op * lUnit op

/-! ### Descriptors and transfer entries (Tables 5.2–5.4) -/

def dKind (d : Quad) : Nat := bits d.w0 63 61
def dValid (d : Quad) : Bool := bit d.w0 60
def dPrio (d : Quad) : Nat := bits d.w0 59 57
def dConc (d : Quad) : Nat := bits d.w0 56 55
def dTrapEn (d : Quad) : Bool := bit d.w0 54
def dDeps (d : Quad) : Nat := bits d.w0 53 46
def dDeadline (d : Quad) : Nat := bits d.w0 45 30
def dBudget (d : Quad) : Nat := bits d.w0 29 0
def dAffinity (d : Quad) : Nat := bits d.w1 63 32
def dEntry (d : Quad) : Nat := bits d.w1 31 0
def dArg (d : Quad) : Nat := bits d.w2 39 0
def dFeeds (d : Quad) : Nat := bits d.w3 50 47
def dFeeder (d : Quad) : Bool := bit d.w3 46
def dFed (d : Quad) : Nat := bits d.w3 45 32
def dSValid (d : Quad) : Bool := bit d.w3 31
def dSucc (d : Quad) : Nat := bits d.w3 11 0

def xSrc (x : Quad) : Nat := bits x.w0 63 24
def xLen (x : Quad) : Nat := bits x.w0 23 0
def xDst (x : Quad) : Nat := bits x.w1 63 24
def xBind (x : Quad) : Nat := bits x.w2 63 62
def xPack (x : Quad) : Nat := bits x.w2 61 56
def xLast (x : Quad) : Bool := bit x.w2 55
def xNamed (x : Quad) : Nat := bits x.w2 13 0
def xNext (x : Quad) : Nat := bits x.w3 12 0

/-- The descriptor that holds nothing. -/
def Quad.zero : Quad := ⟨0, 0, 0, 0⟩

/-- A send entry (Table 7.1). -/
def sendSrc (w : Word64) : Nat := bits w 63 50
def sendAct (w : Word64) : Bool := bit w 49
def sendFollow (w : Word64) : Bool := bit w 48
def sendAlign (w : Word64) : Nat := bits w 47 36
def sendGp (w : Word64) : Nat := bits w 31 12

end Sys2Proof.Machine
end

