-- ==== Sys2Proof/Machine/Signals.lean ====
section
/-! DEFINITION. Signals (R77, R179–R182, R198–R200): their numbers, the rate domain of each, and the samples of a frame in a domain. -/
namespace Sys2Proof.Machine

/-- Inserts into an ascending list without repeats. -/
def insertNat (i : Nat) : List Nat → List Nat
  | [] => [i]
  | j :: t => if i < j then i :: j :: t else if i = j then j :: t else j :: insertNat i t

/-! ### Signals (R179–R182) -/

/-- A source number that Table 6.1 gives. -/
def sourceOk (s : Nat) : Bool :=
  decide (s < 0x1540) || (decide (0x1800 ≤ s) && decide (s < 0x3300)) || s == 0x3FFF

/-- A sink number that Table 6.2 gives. -/
def sinkOk (t : Nat) : Bool := decide (t < 0x1520) || (decide (0x1800 ≤ t) && decide (t < 0x3400))

/-- The configured domain (0 H, 1 D, 2 Foreign) and Foreign index of a port's signals (Table 6.1). -/
def portDom (e : Engine) (s : Nat) : Nat × Nat :=
  let at_ := fun (d f : Fld) (i : Nat) => let v := getF d i e; (v, if v = 2 then getF f i e else 0)
  if s < 0x1400 then at_ .PORT_SAPCFG_DOM .PORT_SAPCFG_FN ((s - 0x1000) / 32)
  else if s < 0x1420 then at_ .PORT_AESCFG_DOM .PORT_AESCFG_FN ((s - 0x1400) / 2)
  else if s < 0x1520 then at_ .PORT_MADICFG_DOM .PORT_MADICFG_FN ((s - 0x1420) / 64)
  else (0, 0)

/-- Domain of the input (`out` false) or output side of a bridge channel (Table 6.7). -/
def bridgeDom (e : Engine) (n : Nat) (out : Bool) : Nat × Nat :=
  let fn := getF .ROUTE_BRCFG_FN n e
  match getF .ROUTE_BRCFG_KIND n e with
  | 1 | 3 => (if out then 1 else 0, 0)
  | 2 | 4 => (if out then 0 else 1, 0)
  | 5 => if out then (0, 0) else (2, fn)
  | 6 => if out then (2, fn) else (0, 0)
  | _ => (0, 0)

/-- The rate domain of a source (R182, Table 6.1). A network channel of no stream and a bridge channel whose KIND is a reserved value lie in no
domain of the tables: the model takes them for H (DESIGN CHOICE, log 134). -/
def sourceDom (e : Engine) (s : Nat) : Nat × Nat :=
  if s < 0x1000 then tget (0, 0) e.mix.rxDom s
  else if s < 0x1800 then portDom e s
  else if s < 0x2000 then (0, 0)
  else if s < 0x3000 then (tget 0 e.mix.stripDom (s - 0x2000), 0)
  else if 0x3100 ≤ s ∧ s < 0x3200 then bridgeDom e (s - 0x3100) true
  else (0, 0)

/-- A strip's direct output (Table 6.1). -/
def isStripSource (s : Nat) : Bool := decide (0x2000 ≤ s) && decide (s < 0x3000)

/-- The input buffer of a port source (R285). -/
def inBuf (s : Nat) : Nat := 0x20000000 + (s - 0x1000) * 0x400
/-- The output buffer of a port sink (R285). -/
def outBuf (t : Nat) : Nat := 0x20180000 + (t - 0x1000) * 0x400

/-- The source is declared lost (R189). -/
def isLost (e : Engine) (s : Nat) : Bool := e.mix.lost.contains s

/-- Samples of a frame in the domain of a source or sink: F in H, k·F in D (R77, R199). -/
def domLen (e : Engine) (dom : Nat) : Nat :=
  if dom = 1 then frameLen e * 2 ^ getF .ROUTE_CFG_DRATIO 0 e else frameLen e

/-- Nominal rate of a Foreign domain in Hz by NOM (Table 6.12). -/
def nomHz (nom : Nat) : Nat := [32000, 44100, 48000, 88200, 96000, 176400, 192000].getD nom 48000

/-- The first port source of Foreign domain `fn` whose buffer of this frame records samples, as that number (R77, R285). -/
def portFrame (e : Engine) (fn : Nat) : Option Nat :=
  let firsts := (List.range 32).map (fun p => 0x1000 + 32 * p) ++ (List.range 16).map (fun p => 0x1400 + 2 * p) ++ (List.range 4).map fun p => 0x1420 + 64 * p
  firsts.findSome? fun s =>
    let n := read32 e (inBuf s + 1020)
    if portDom e s = (2, fn) ∧ !isLost e s ∧ n ≠ 0 then some (min 248 n) else none

/-- Samples of the frame in a Foreign domain: those that its port input delivers; without one, the whole number below or above the frame time
at the nominal rate, which the spec leaves open (DESIGN CHOICE, log 135). -/
def foreignLen (e : Engine) (fn : Nat) : Nat :=
  match portFrame e fn with
  | some n => n
  | none =>
    let f := frameTime e
    let a := f.1 * nomHz (getF .ROUTE_FN_CFG_NOM fn e)
    let n := a / (1000000000 * f.2)
    (clamp n (n + 1 : Nat) (within 17 (16 * frameNo e + fn : Nat) n 1)).toNat

/-- Samples of the frame in a domain and Foreign index (R77). -/
def spanOf (e : Engine) (d : Nat × Nat) : Nat := if d.1 = 2 then foreignLen e d.2 else domLen e d.1

end Sys2Proof.Machine
end

