-- ==== Sys2Proof/Machine/Sched.lean ====
section
/-! DEFINITION. The work scheduler's shared operations (chapter 5): partitions, release, completion, abort, delivery to prefetch slots,
and concealment of an item's signals (R76, R77). -/
namespace Sys2Proof.Machine

/-! ### Cells and executors -/

def getCell (e : Engine) (c : Nat) : Cell := tget Cell.idle e.cells c
def setCell (c : Nat) (v : Cell) (e : Engine) : Engine := { e with cells := tput Cell.idle e.cells c v }

def fencedCell (e : Engine) (c : Nat) : Bool := bitF .SYS_CELL_FENCED_FENCED (c / 32) (c % 32) e
def isolatedBlock (e : Engine) (b : Nat) : Bool := bitF .SYS_CELL_FENCED_FENCED 8 b e
def fencedSum (e : Engine) (u : Nat) : Bool := bitF .SYS_SUM_FENCED_SUMF 0 u e
def fencedDma (e : Engine) (c : Nat) : Bool := bitF .SYS_DMA_FENCED_DMAF 0 c e

/-- The summing unit that runs the items of unit `u` (R28). -/
def sumUnit (e : Engine) (u : Nat) : Nat := if fencedSum e u then u ^^^ 1 else u

/-- All four channels of a DMA master are fenced (R28). -/
def dmaMasterDown (e : Engine) (m : Nat) : Bool := [0, 1, 2, 3].all fun j => fencedDma e (4 * m + j)

/-- Executor `x` belongs to the healthy partition of an item (R61, R28). -/
def inPart (e : Engine) (d : Quad) (x : Nat) : Bool :=
  match dKind d with
  | 0 => decide (x < 256) && decide (dAffinity d / 2 ^ (x / 8) % 2 = 1) && !fencedCell e x && !(e.health.bist == some x)
  | 1 => x == sumUnit e (dAffinity d % 32) && !fencedSum e x
  | 2 => x == dAffinity d % 256
  | 3 =>
    let own := match dAffinity d % 4 with
      | 1 => if dmaMasterDown e 0 then true else decide (x < 4)
      | 2 => if dmaMasterDown e 1 then true else decide (4 ≤ x)
      | _ => true
    decide (x < 8) && own && !fencedDma e x
  | _ => x == 0

/-- The number of executors of a kind (Table 1.4). -/
def kindCount (k : Nat) : Nat := [256, 32, 256, 8, 1].getD k 1

/-- The executors of an item's partition, ascending. -/
def partOf (e : Engine) (d : Quad) : List Nat := (List.range (kindCount (dKind d))).filter (inPart e d)

/-- Two items lie in one partition. -/
def samePart (e : Engine) (a b : Quad) : Bool := dKind a == dKind b && partOf e a == partOf e b

/-! ### Items -/

def admItem (e : Engine) (i : Nat) : Quad := tget Quad.zero e.sched.adm.items i
def getRun (e : Engine) (i : Nat) : ItemRun := tget ItemRun.start e.sched.run i
def setRun (i : Nat) (r : ItemRun) (e : Engine) : Engine :=
  { e with sched := { e.sched with run := tput ItemRun.start e.sched.run i r } }

/-- The buses that a summing item runs, ascending (R207). -/
def busesOf (d : Quad) : List Nat :=
  ([0, 1, 2, 3, 4, 5, 6, 7].filter fun j => dEntry d / 2 ^ j % 2 == 1).map fun j => 8 * (dAffinity d % 32) + j

/-- The indices of the admitted graph's items, ascending. -/
def admIdx (e : Engine) : List Nat := e.sched.adm.items.map (·.1)

/-- The key of R161: earliest deadline, then lowest index. -/
def keyOf (e : Engine) (i : Nat) : Nat := 16384 * dDeadline (admItem e i) + i

/-- The sub-queue of an item (R161). -/
def subQueue (d : Quad) : Nat := if dKind d = 0 then Nat.log2 (max 1 (dAffinity d)) / 8 else 4

/-- The entry of least key in a list of items. -/
def leastKey (e : Engine) : List Nat → Option Nat
  | [] => none
  | i :: t => match leastKey e t with
    | none => some i
    | some j => if keyOf e i ≤ keyOf e j then some i else some j

/-- The entry of greatest key in a list of items. -/
def greatestKey (e : Engine) : List Nat → Option Nat
  | [] => none
  | i :: t => match greatestKey e t with
    | none => some i
    | some j => if keyOf e j ≤ keyOf e i then some i else some j

/-- Inserts by ascending key. -/
def insertKey (e : Engine) (i : Nat) : List Nat → List Nat
  | [] => [i]
  | j :: t => if keyOf e i ≤ keyOf e j then i :: j :: t else j :: insertKey e i t

def sortKey (e : Engine) : List Nat → List Nat
  | [] => []
  | i :: t => insertKey e i (sortKey e t)

/-- The items in a state, in ascending index. -/
def inState (e : Engine) (st : ItemSt) : List Nat := (e.sched.run.filter fun p => decide (p.2.st = st)).map (·.1)

/-- Some item holds executor `x` of kind `k`: it is assigned to it or runs on it. -/
def busyExec (e : Engine) (k x : Nat) : Bool :=
  e.sched.run.any fun p => (decide (p.2.st = .running) || decide (p.2.st = .held)) && p.2.exec == x && dKind (admItem e p.1) == k

/-- The item may not start while a `RESET_FN` of the scheduler, or of its region, is in progress (Table 15.9). -/
def blockedItem (e : Engine) (i : Nat) : Bool :=
  resetting e 7 0 || (dKind (admItem e i) == 0 && resetting e 5 (subQueue (admItem e i)))

/-- The item in the prefetch slot of a cell. -/
def slotOf (e : Engine) (c : Nat) : Option Nat :=
  (e.sched.run.find? fun p => decide (p.2.st = .slot) && p.2.exec == c).map (·.1)

/-- A cell is idle (R163): it waits in WAITW, holds no slot item and is not held. -/
def idleCell (e : Engine) (c : Nat) : Bool := !busyExec e 0 c && (slotOf e c).isNone && (getCell e c).item.isNone

/-- An executor of a kind is idle. -/
def idleExec (e : Engine) (k x : Nat) : Bool := if k = 0 then idleCell e x else !busyExec e k x

/-- A cell's block is in prefetch mode (R165). -/
def prefetches (e : Engine) (c : Nat) : Bool := bitF .SCHED_MODE_PREFETCH 0 (c / 8) e

/-- Brings the depth registers of the five sub-queues up to date (R178). -/
def refreshDepth (e : Engine) : Engine :=
  [0, 1, 2, 3, 4].foldl (fun e q =>
    let n := ((inState e .queued).filter fun i => subQueue (admItem e i) == q).length
    let e := maxF .SCHED_QDEPTH_MAX q n (setF .SCHED_QDEPTH_NOW q n e)
    { e with sched := { e.sched with snap := { e.sched.snap with
        depth := tput 0 e.sched.snap.depth q (max n (tget 0 e.sched.snap.depth q)) } } }) e

/-- Sub-queue entry or overflow list (R161, R162): 4096 entries are shared. -/
def toQueue (i : Nat) (e : Engine) : Engine :=
  if (inState e .queued).length < 4096 then setRun i { getRun e i with st := .queued } e
  else
    let e := setRun i { getRun e i with st := .overflow } e
    bumpF .SCHED_STAT_OVFL 0 1 { e with sched := { e.sched with overflow := e.sched.overflow ++ [i],
                                                                snap := { e.sched.snap with ovfl := e.sched.snap.ovfl + 1 } } }

/-- Heads of the overflow lists: the entries before which none of the same partition stands. -/
def overflowHeads (e : Engine) : List Nat → List Nat → List Nat
  | _, [] => []
  | seen, i :: t =>
    if seen.any fun j => samePart e (admItem e j) (admItem e i) then overflowHeads e seen t
    else i :: overflowHeads e (i :: seen) t

/-- An entry became free: the overflow head of lowest key moves into the heap (R162). -/
def refill (e : Engine) : Engine :=
  if 4096 ≤ (inState e .queued).length then e
  else
    match leastKey e (overflowHeads e [] e.sched.overflow) with
    | none => e
    | some i =>
      setRun i { getRun e i with st := .queued } { e with sched := { e.sched with overflow := e.sched.overflow.filter (· != i) } }

/-- The feeders of a fed item, ascending. -/
def feedersOf (e : Engine) (i : Nat) : List Nat :=
  (admIdx e).filter fun f => dKind (admItem e f) == 3 && dFeeder (admItem e f) && dFed (admItem e f) == i

/-- Feeder release (R159 step 3): the fed item is bound, and its parked feeders go to their DMA partition. -/
def bindFed (i t : Nat) (e : Engine) : Engine :=
  if dFeeds (admItem e i) = 0 then e
  else
    let e := setRun i { getRun e i with bound := true } e
    (feedersOf e i).foldl (fun e f =>
      if (getRun e f).st = .parked then toQueue f (setRun f { getRun e f with relAt := t } e) else e) e

/-- Places an item in the prefetch slot of a cell (R165); the entry that it leaves goes to the overflow before its feeders are released
(R159, R162). -/
def toSlot (i c t : Nat) (e : Engine) : Engine :=
  bindFed i t (refill (setRun i { getRun e i with st := .slot, exec := c } e))

/-- Cells of an item's partition that run an item with an empty slot in prefetch mode, ascending. -/
def emptySlots (e : Engine) (d : Quad) : List Nat :=
  (partOf e d).filter fun c => prefetches e c && (getCell e c).item.isSome && (slotOf e c).isNone

/-- Slot items of an item's partition that may be recalled or stolen (R167, R168). -/
def openSlots (e : Engine) (d : Quad) : List Nat :=
  (inState e .slot).filter fun j => !(getRun e j).bound && samePart e (admItem e j) d

/-- The slot item that a released item recalls: the one of highest key of its partition, when that is higher than its own (R167). -/
def recallFor (e : Engine) (i : Nat) : Option Nat :=
  match greatestKey e (openSlots e (admItem e i)) with
  | some j => if keyOf e i < keyOf e j then some j else none
  | none => none

/-- Item `i` takes the slot of item `j`, which returns to the sub-queue (R167). -/
def recallItem (i j t : Nat) (e : Engine) : Engine :=
  let c := (getRun e j).exec
  let e := bumpF .SCHED_PREF_STAT_RECALLS 0 1 (toQueue j e)
  let e := { e with sched := { e.sched with snap := { e.sched.snap with recalls := e.sched.snap.recalls + 1 } } }
  toSlot i c t e

/-- Release of an item (R158, R165, R167): it waits in its sub-queue while an idle executor can take it, else takes an empty slot, else
recalls a slot item of higher key, else waits. Before the first dispatch of the frame it only waits. -/
def release (i t : Nat) (e : Engine) : Engine :=
  let e := setRun i { getRun e i with relAt := t } e
  let d := admItem e i
  if !e.sched.first || dKind d != 0 then toQueue i e
  else if (partOf e d).any (idleCell e) then toQueue i e
  else
    match emptySlots e d with
    | c :: _ => toSlot i c t e
    | [] =>
      match recallFor e i with
      | some j => recallItem i j t e
      | none => toQueue i e

/-- The item may be released: its counters are 0 (R158). -/
def tryRelease (i t : Nat) (e : Engine) : Engine :=
  let r := getRun e i
  if r.st = .waiting ∧ r.cnt = 0 ∧ r.fr = 0 ∧ !e.sched.shed.contains i then release i t e else e

/-- A feeder whose count reached 0 is parked and counts toward its fed item (R159 steps 1, 2). When the fed item is bound already, the
feeder goes on to its partition. -/
def park (f t : Nat) (e : Engine) : Engine :=
  let fed := dFed (admItem e f)
  let e := setRun f { getRun e f with st := .parked } e
  let e := setRun fed { getRun e fed with fr := (getRun e fed).fr - 1 } e
  let e := tryRelease fed t e
  if (getRun e fed).bound && (getRun e f).st = .parked then toQueue f (setRun f { getRun e f with relAt := t } e) else e

/-- One decrement of a successor's counter (R158). -/
def decrement (j t : Nat) (e : Engine) : Engine :=
  let r := getRun e j
  if r.cnt = 0 then setF .SCHED_STAT_CNTERR 0 1 { e with sched := { e.sched with cntErr := true } }
  else
    let e := setRun j { r with cnt := r.cnt - 1 } e
    if r.cnt ≠ 1 then e
    else if dKind (admItem e j) = 3 && dFeeder (admItem e j) then
      (if r.st = .waiting ∧ !e.sched.shed.contains j then park j t e else e)
    else tryRelease j t e

/-- The successor indices along a chain (R158). -/
def chainOf (g : Graph) : Nat → Nat → List Nat
  | 0, _ => []
  | n + 1, x =>
    match tget none g.succs x with
    | none => []
    | some s => s.succ ++ (match s.next with | some y => chainOf g n y | none => [])

/-- The successors of an item, once for each appearance. -/
def succsOf (g : Graph) (d : Quad) : List Nat := if dSValid d then chainOf g 4096 (dSucc d) else []

/-- The slot of `Sched.busy` for an executor other than a cell. -/
def busySlot (k x : Nat) : Nat := if k = 1 then x else if k = 2 then 32 + x else if k = 3 then 288 + x else 296

/-- An idle cell with nothing to take steals (R168). -/
def steal (c t : Nat) (e : Engine) : Engine :=
  let cands := (inState e .slot).filter fun j =>
    !(getRun e j).bound && inPart e (admItem e j) c && (getRun e j).exec != c
  match leastKey e cands with
  | none => e
  | some j =>
    let waiting := (inState e .queued ++ e.sched.overflow).any fun i => samePart e (admItem e i) (admItem e j)
    if waiting || !idleCell e c then e
    else
      let e := setRun j { getRun e j with st := .held, exec := c } e
      let e := bumpF .SCHED_PREF_STAT_STEALS 0 1 e
      let e := { e with sched := { e.sched with snap := { e.sched.snap with steals := e.sched.snap.steals + 1 } } }
      setCell c { getCell e c with from_ := t } e

/-- The walk of a completed item's successors (R158), and the completion of a feeder (R159 step 4). -/
def walk (i t : Nat) (e : Engine) : Engine :=
  let d := admItem e i
  let e := if dKind d = 3 && dFeeder d then
      setRun (dFed d) { getRun e (dFed d) with fc := (getRun e (dFed d)).fc - 1 } e else e
  refreshDepth ((succsOf e.sched.adm d).foldl (fun e j => decrement j t e) e)

/-- A cell is free again: its busy time counts (R174). An item in its slot is assigned to it from now on. -/
def freeCell (c t : Nat) (e : Engine) : Engine :=
  let cl := getCell e c
  let e := setCell c { Cell.idle with busy := cl.busy + (t - cl.from_), from_ := t } e
  if fencedCell e c then e else setF .SYS_CELL_STAT_STATE c 0 e

/-- Frees the executor of an item that ended, ran on it or held it, as a slot item holds a cell that runs nothing. -/
def freeExec (i t : Nat) (e : Engine) : Engine :=
  let r := getRun e i
  let k := dKind (admItem e i)
  if k = 0 then
    (if (getCell e r.exec).item = some i ∨ r.st = .held ∨ (r.st = .slot ∧ (getCell e r.exec).item.isNone) then freeCell r.exec t e else e)
  else
    let b := busySlot k r.exec
    { e with sched := { e.sched with busy := tput 0 e.sched.busy b (tget 0 e.sched.busy b + (t - r.startAt)) } }

/-! ### Concealment of signals (R76, R77) -/

/-- A concealed frame of N samples (R77): hold-and-fade or mute from the held sample, 0 from the second frame on. Truncation is toward minus
infinity, as R95 says of the word. -/
def concealed (h : Int) (run : Nat) (mute : Bool) (n : Nat) : List Int :=
  (List.range n).map fun k => if mute || run != 0 then 0 else h * ((n - k : Nat) : Int) / (n : Int)

/-- The first good frame after a concealed one (R77). -/
def fadedIn (ys : List Int) : List Int :=
  ys.zipIdx.map fun p => p.1 * ((p.2 + 1 : Nat) : Int) / (ys.length : Int)

def getConc (e : Engine) (s : Nat) : Conceal := tget Conceal.clear e.sched.conc s
def setConc (s : Nat) (c : Conceal) (e : Engine) : Engine :=
  { e with sched := { e.sched with conc := tput Conceal.clear e.sched.conc s c } }

def getSig (e : Engine) (s : Nat) : List Int := tget [] e.mix.sig s
def setSig (s : Nat) (ys : List Int) (e : Engine) : Engine := { e with mix := { e.mix with sig := tput [] e.mix.sig s ys } }

/-- A source carries good samples in this frame. -/
def deliver (s : Nat) (ys : List Int) (e : Engine) : Engine :=
  let c := getConc e s
  let ys := if c.run = 0 then ys else fadedIn ys
  setConc s { h := ys.getLastD 0, run := 0, now := false, mute := false } (setSig s ys e)

/-- N of a signal that is concealed (R77): what it last delivered in a Foreign domain, the samples of the frame in its domain else. -/
def concealLen (e : Engine) (s : Nat) : Nat :=
  let d := sourceDom e s
  let n := (getSig e s).length
  if d.1 = 2 ∧ n ≠ 0 then n else spanOf e d

/-- A source is concealed in this frame. -/
def concealSig (mute : Bool) (e : Engine) (s : Nat) : Engine :=
  let c := getConc e s
  if c.now then e
  else
    let n := concealLen e s
    setConc s { c with run := c.run + 1, now := true, mute := mute } (setSig s (concealed c.h c.run mute n) e)

/-- The buses and mix-minus feeds of a summing item, the output of a bridge channel, and nothing of the metering service; of a cell or DMA
item, whose program alone knows its signals, those that its last completion delivered, and before one a free list of strip outputs
(DESIGN CHOICE, log 133). -/
def outsOf (e : Engine) (i : Nat) : List Nat :=
  let d := admItem e i
  match dKind d with
  | 1 => (busesOf d).flatMap fun b => (0x3000 + b) :: e.mix.feeds.filterMap fun p =>
      match p.2 with | some f => if f.bus = b then some (0x3220 + p.1) else none | none => none
  | 2 => [0x3100 + dAffinity d % 256]
  | 4 => []
  | _ => (tget none e.sched.outs i).getD ((Config.itemSignals d.w0 d.w1 d.w2 d.w3 i).filter isStripSource)

def concealItem (i : Nat) (e : Engine) : Engine :=
  (outsOf e i).foldl (concealSig (dConc (admItem e i) == 1)) e

/-! ### Completion and abort -/

/-- A completion after the item's deadline counts (R174); an item that is aborted completes as well (R158). -/
def countDeadline (i t : Nat) (e : Engine) : Engine :=
  let f := frameTime e
  if dDeadline (admItem e i) * f.1 < 65536 * t * f.2 then bumpF .SCHED_DLMISS_DLMISS 0 1 e else e

/-- An item ends normally (R158): its executor is free, a completion after the deadline counts (R174), its successors are released. -/
def completeItem (i t : Nat) (e : Engine) : Engine :=
  let c := (getRun e i).exec
  let isCell := dKind (admItem e i) == 0
  let e := freeExec i t e
  let e := setRun i { getRun e i with st := .done } e
  let e := walk i t (countDeadline i t e)
  if isCell then steal c t e else e

/-- An item is aborted within the window (R76): its signals are concealed and its successors released. -/
def abortItem (i cause t : Nat) (e : Engine) : Engine :=
  let e := freeExec i t e
  let e := setRun i { getRun e i with st := .aborted } e
  let e := { e with sched := { e.sched with faults := e.sched.faults ++ [(i, cause)] } }
  walk i t (countDeadline i t (concealItem i e))

end Sys2Proof.Machine
end

