-- ==== Sys2Proof/Machine/Contain.lean ====
section
/-! DEFINITION. Fault containment (R19–R28, R117, R118): fencing a cell, isolating a block, quarantining a range, fencing a summing unit
or DMA channel, and the effect of the capacity changes of a frame at its boundary. -/
namespace Sys2Proof.Machine

/-- A capacity change falls due at the next frame boundary (R23). -/
def dueCap (c : Cap) (e : Engine) : Engine :=
  if e.sched.caps.contains c then e else { e with sched := { e.sched with caps := e.sched.caps ++ [c] } }

def needReadmit (e : Engine) : Engine := { e with health := { e.health with readmit := true } }

/-- Sets a cell's fence bit and lowers the healthy count (R17, R48, R120). -/
def markCell (c : Nat) (e : Engine) : Engine :=
  if fencedCell e c then e
  else
    let e := setBitF .SYS_CELL_FENCED_FENCED (c / 32) (c % 32) true e
    let e := setF .SYS_HEALTH_CELLS 0 (getF .SYS_HEALTH_CELLS 0 e - 1) e
    needReadmit (setF .SYS_CELL_STAT_STATE c 3 e)

/-- Fenced cells of a block. -/
def fencedIn (e : Engine) (b : Nat) : Nat := ([0, 1, 2, 3, 4, 5, 6, 7].filter fun j => fencedCell e (8 * b + j)).length

/-- A fourth fenced cell isolates the block (cause 0xE of Table 1.14). -/
def checkBlock (b : Nat) (e : Engine) : Engine :=
  if 4 ≤ fencedIn e b ∧ !isolatedBlock e b then dueCap (.block b 0xE) e else e

/-- Items held by or in the slot of a cell that is fenced (R118, R169): a bound one is aborted with cause 0x8 and its feeders run on; an
unbound one returns to its sub-queue. -/
def dropHeld (c t : Nat) (e : Engine) : Engine :=
  refreshDepth <| (e.sched.run.filter fun p => (decide (p.2.st = .held) || decide (p.2.st = .slot)) && p.2.exec == c && dKind (admItem e p.1) == 0).foldl
    (fun e p =>
      if p.2.bound then abortItem p.1 8 t { e with sched := { e.sched with orphans := e.sched.orphans ++ [p.1] } }
      else toQueue p.1 e) e

/-- An immediate fence of a cell (R23, R38): it stops at once; the item that it runs is aborted. Cause 0x1 is an uncorrectable
program-memory error, 0x6 a handshake timeout. The cause that event 0x0104 gives the running item is in no table: a free value. -/
def fenceCellNow (c cause t : Nat) (e : Engine) : Engine :=
  if fencedCell e c then e
  else
    let e := markCell c e
    let e := match (getCell e c).item with
      | some i =>
        if (getRun e i).st = .running ∧ (getRun e i).exec = c then let p := takeFree e; abortItem i (p.1.toNat % 16) t p.2 else e
      | none => e
    let e := dropHeld c t e
    let e := setCell c { Cell.idle with busy := (getCell e c).busy } e
    checkBlock (c / 8) (containNow 2 cause (c / 8) e)

/-- A cell fenced at a boundary stops: it holds no item any more, not even under a debug handler (R118, R120). -/
def stopCell (c : Nat) (e : Engine) : Engine := if fencedCell e c then e else setCell c Cell.idle (markCell c e)

/-- Isolation of a block at a boundary (R20, R21): it counts as 8 fenced cells. The low half of a region's identifier names no range
here, and the spec leaves it open. The spec does not say when a region leaves service: the model lowers `SYS_HEALTH.REGIONS` when the last of
the region's 8 blocks is isolated (DESIGN CHOICE, log 131). -/
def isolateBlock (b cause : Nat) (subsumed : Bool) (e : Engine) : Engine :=
  if isolatedBlock e b then e
  else
    let e := [0, 1, 2, 3, 4, 5, 6, 7].foldl (fun e j => stopCell (8 * b + j) e) e
    let e := setBitF .SYS_CELL_FENCED_FENCED 8 b true e
    let e := setF .SYS_HEALTH_BLOCKS 0 (getF .SYS_HEALTH_BLOCKS 0 e - 1) e
    let r := b / 8
    let e := if [0, 1, 2, 3, 4, 5, 6, 7].all fun j => isolatedBlock e (8 * r + j) then
        setF .SYS_HEALTH_REGIONS 0 (getF .SYS_HEALTH_REGIONS 0 e - 1) e else e
    let p := takeFree e
    contain 3 cause (65536 * r + p.1.toNat % 65536) subsumed p.2

/-- A cell's fence at a boundary. -/
def fenceCell (c cause : Nat) (e : Engine) : Engine :=
  if fencedCell e c then e
  else
    let e := stopCell c e
    let e := if cause = 5 then bumpF .SYS_CELL_BIST_FAILS 0 1 e else e
    checkBlock (c / 8) (contain 2 cause (c / 8) false e)

/-- A summing unit leaves service (R27, R28). -/
def markSum (u : Nat) (e : Engine) : Engine :=
  let e := setBitF .SYS_SUM_FENCED_SUMF 0 u true e
  needReadmit (setF .SYS_HEALTH_SUMUNITS 0 (getF .SYS_HEALTH_SUMUNITS 0 e - 1) e)

/-- A DMA channel leaves service. -/
def markDma (c : Nat) (e : Engine) : Engine :=
  let e := setBitF .SYS_DMA_FENCED_DMAF 0 c true e
  needReadmit (setF .SYS_DMA_FENCED_DMAOK 0 (getF .SYS_DMA_FENCED_DMAOK 0 e - 1) e)

/-- The identifier of a fenced executor (Table 1.3). -/
def execIdent (dma : Bool) (u : Nat) : Nat := 65536 * (if dma then 0x0A else 0x09) + u

/-- Quarantined ranges of a region. -/
def quarIn (e : Engine) (r : Nat) : Nat := (e.health.quar.filter fun q => q / 65536 == r).length

/-- A transfer entry touches a region-SRAM range. -/
def touches (x : Quad) (r idx : Nat) : Bool :=
  let lo := 0x10000000 + 0x800000 * r + 4096 * idx
  let hit := fun a => decide (a < lo + 4096) && decide (lo < a + xLen x)
  (xBind x != 2 && hit (xSrc x)) || (xBind x != 1 && hit (xDst x))

/-- The transfer entries of a DMA item, in chain order. -/
def transfersOf (g : Graph) : Nat → Nat → List Quad
  | 0, _ => []
  | n + 1, i =>
    match tget none g.xfers i with
    | none => []
    | some x => x :: (if xLast x then [] else transfersOf g n (xNext x))

/-- The transfer chain of an item of the admitted graph. -/
def itemTransfers (e : Engine) (i : Nat) : List Quad := transfersOf e.sched.adm 8192 (dEntry (admItem e i) % 8192)

/-- A block of `n` bytes at engine address `a` meets the quarantined range `q` (region · 65536 + range). -/
def meetsRange (q a n : Nat) : Bool :=
  let lo := 0x10000000 + 0x800000 * (q / 65536) + 4096 * (q % 65536)
  decide (a < lo + 4096) && decide (lo < a + n)

/-- The send list of a bus, its gain points, or the delay ring of one of its delayed sends meets a quarantined range (R196, R210). -/
def busInRange (g : Graph) (q b : Nat) : Bool :=
  let m := tget (0, 0) g.mixAt b
  meetsRange q m.1 m.2 || (tget [] g.sends b).any fun w =>
    let r := tget (0, 0) g.rings (sendSrc w)
    sendAlign w != 0 && meetsRange q r.1 (4 * r.2)

/-- The item's arguments lie in a quarantined range: a transfer of its chain, or what its buses read (R20). -/
def inRange (e : Engine) (q i : Nat) : Bool :=
  let d := admItem e i
  match dKind d with
  | 1 => (busesOf d).any (busInRange e.sched.adm q)
  | 3 => (itemTransfers e i).any fun x => touches x (q / 65536) (q % 65536)
  | _ => false

/-- The items whose arguments lie in a quarantined range; a feeder stands for its fed item (R20, R173). -/
def itemsInRange (e : Engine) (q : Nat) : List Nat :=
  ((admIdx e).filter (inRange e q)).map fun i =>
    if dKind (admItem e i) == 3 && dFeeder (admItem e i) then dFed (admItem e i) else i

/-- The items that stay out of use until the next warm reset: those in a quarantined range, with their feeders (R21, R173). -/
def quarItems (e : Engine) : List Nat :=
  let l := e.health.quar.flatMap (itemsInRange e)
  l ++ l.flatMap (feedersOf e)

/-- Quarantine of a 4 KB range at a boundary (R20, R21); the count's first passing of 64 escalates the region to the chip. The shedding of
the items that use it joins the re-admission of the same tick (R22, R274). -/
def quarantine (r idx : Nat) (e : Engine) : Engine :=
  if e.health.quar.contains (65536 * r + idx) then e
  else
    let e := { e with health := { e.health with quar := e.health.quar ++ [65536 * r + idx] } }
    let e := setF .SYS_QRANGE_COUNT r (quarIn e r) e
    let e := bumpF .SYS_HEALTH_QRANGES 0 1 e
    let e := needReadmit e
    if 64 < quarIn e r ∧ !e.health.escal.contains r then
      let e := { e with health := { e.health with escal := e.health.escal ++ [r] } }
      beginReset 0x05 r 0 8 (contain 3 0xA (65536 * r + 0xFFFF) false e)
    else contain 3 0x1 (65536 * r + idx) false e

/-- One capacity change takes effect at the boundary; `all` are the changes of the frame (R22: the wider action subsumes). -/
def applyCap (all : List Cap) (e : Engine) : Cap → Engine
  | .cell c cause =>
    if !isolatedBlock e (c / 8) then fenceCell c cause e else if cause = 5 then bumpF .SYS_CELL_BIST_FAILS 0 1 e else e
  | .block b cause => isolateBlock b cause (all.any fun x => match x with | .cell c _ => c / 8 == b | _ => false) e
  | .sum u cause => if fencedSum e u then e else contain 4 cause (execIdent false u) false (markSum u e)
  | .dma c cause => if fencedDma e c then e else contain 4 cause (execIdent true c) false (markDma c e)
  | .range r idx => quarantine r idx e

/-- The cells of a block that a frame's changes fence. -/
def dueIn (caps : List Cap) (e : Engine) (b : Nat) : Nat :=
  ((List.range 8).filter fun j => !fencedCell e (8 * b + j) && caps.any fun c => match c with | .cell x _ => x == 8 * b + j | _ => false).length

/-- The blocks that the changes of a frame bring to four fenced cells: the error is reported at the level that it reaches (R19, R20). -/
def fullBlocks (caps : List Cap) (e : Engine) : List Cap :=
  ((List.range 32).filter fun b => !isolatedBlock e b && decide (0 < dueIn caps e b) && decide (4 ≤ fencedIn e b + dueIn caps e b)
    && !caps.any fun c => match c with | .block x _ => x == b | _ => false).map fun b => .block b 0xE

/-- The capacity changes of the frame that ends take effect, block isolations first (R22, R52). -/
def applyCaps (e : Engine) : Engine :=
  let caps := fullBlocks e.sched.caps e ++ e.sched.caps
  let isBlock := fun c : Cap => match c with | .block _ _ => true | _ => false
  let e := { e with sched := { e.sched with caps := [] } }
  let e := e.health.recs.foldl (fun e r => showContain r.1 r.2.1 r.2.2.1 r.2.2.2 e) e
  let e := { e with health := { e.health with recs := [] } }
  let e := (caps.filter isBlock).foldl (applyCap caps) e
  let e := (caps.filter fun c => !isBlock c).foldl (applyCap caps) e
  let more := e.sched.caps
  (more.filter isBlock).foldl (applyCap more) { e with sched := { e.sched with caps := more.filter fun c => !isBlock c } }

/-- The supervisor re-initialises a function at level 2: the containment event names it (R20, R24, Table 1.3). -/
def chipReset (fn idx cause : Nat) (e : Engine) : Engine :=
  beginReset fn idx 0 8 (if resetBusy e fn idx then e else containNow 4 cause (65536 * fn + idx) e)

/-- What an uncorrectable word of an on-chip memory leads to, besides the POISON response (Table 14.1): counts, event 0x0A07, the
quarantine of its region-SRAM range, `RESET_FN` of the summing engine, or the warm reset of cause 0x02. -/
def onUncorrectable (a : Nat) (e : Engine) : Engine :=
  let e := markFault e
  if 0x10000000 ≤ a ∧ a < 0x12000000 then
    let off := a - 0x10000000
    let t := 2 * (off / 0x800000) + off / 32 % 2
    let e := postEvent 0x0A07 [2 ^ 60 * t, a] (bumpF .XBAR_MEMSTAT_UE t 1 e)
    dueCap (.range (off / 0x800000) (off % 0x800000 / 4096)) e
  else if 0x20000000 ≤ a ∧ a < 0x20800000 then
    chipReset 0x08 0 1 (postEvent 0x0A07 [9 * 2 ^ 60, a] (bumpF .XBAR_MEMSTAT_UE 9 1 e))
  else if 0x28000000 ≤ a ∧ a < 0x28400000 then postEvent 0x0A07 [10 * 2 ^ 60, a] (bumpF .XBAR_MEMSTAT_UE 10 1 e)
  else if 0x29000000 ≤ a ∧ a < 0x29400000 then
    requestWarm 0x02 (postEvent 0x0A07 [11 * 2 ^ 60, a] (bumpF .XBAR_MEMSTAT_UE 11 1 e))
  else e

/-- Records an error in a cell's memory in `SYS_CELLn_LASTERR` (Table 3.11). -/
def lastErr (c off : Nat) (ded : Bool) (e : Engine) : Engine :=
  let prog := decide (0x30000 ≤ off)
  let e := setF .SYS_CELL_LASTERR_VALID c 1 e
  let e := setF .SYS_CELL_LASTERR_PROG c prog.toNat e
  let e := setF .SYS_CELL_LASTERR_DED c ded.toNat e
  let e := setF .SYS_CELL_LASTERR_BANK c (off / 0x10000) e
  let e := setF .SYS_CELL_LASTERR_SYNDROME c ((Config.syndrome (0x100000 * c + off)).toNat % (if prog then 512 else 128)) e
  setF .SYS_CELL_LASTERR_ADDR c off e

/-- A corrected error in a cell's memory (R91): counted in the second in progress; reaching the threshold fences at the boundary. -/
def cellCorrected (c off : Nat) (e : Engine) : Engine :=
  let n := min (tget 0 e.health.corr c + 1) 255
  let e := lastErr c off false { e with health := { e.health with corr := tput 0 e.health.corr c n } }
  let th := getF .SYS_CELL_THRESH_CORR_PER_S 0 e
  if th ≠ 0 ∧ th ≤ n then dueCap (.cell c 4) e else e

/-- A double-bit program memory error fences the cell at once (R91, R117). -/
def progDed (c off t : Nat) (e : Engine) : Engine := fenceCellNow c 1 t (lastErr c off true (setF .SYS_CELL_ERR_PROG_DED c 1 e))

/-- A double-bit error of a cell (R91, R117). One in program memory met by an access fences at once, at a time in the frame that the access
does not name: a free value. The thresholds are tested when a count rises and when a window ends; the spec names no test at a write of
`SYS_CELL_THRESH` (DESIGN CHOICE, log 132). -/
def cellDed (c off : Nat) (e : Engine) : Engine :=
  if 0x30000 ≤ off then
    let p := takeFree e
    progDed c off (p.1.toNat % max 1 (frameNs e)) p.2
  else
    let e := lastErr c off true (bumpF .SYS_CELL_ERR_DED_1H c 1 (markFault e))
    let th := getF .SYS_CELL_THRESH_DED_PER_H 0 e
    if th ≠ 0 ∧ th ≤ getF .SYS_CELL_ERR_DED_1H c e then dueCap (.cell c 4) e else e

end Sys2Proof.Machine
end

