-- ==== Sys2Proof/Machine/Regs.lean ====
section
/-! DEFINITION. Software's view of the registers (R11, R80, R461, R504): the word that lies at an offset of a block, reads that clear or
latch, and the plain store of a write. -/
namespace Sys2Proof.Machine

/-! ### The local clock as the time registers show it -/

/-- INCR in 2^-32 ns. -/
def incr (e : Engine) : Nat := 2 ^ 32 * getF .PTP_INCR_HI_INCR 0 e + getF .PTP_INCR_LO_INCR 0 e
def setIncr (v : Nat) (e : Engine) : Engine := setF .PTP_INCR_HI_INCR 0 (v / 2 ^ 32) (setF .PTP_INCR_LO_INCR 0 v e)

/-- The local clock in 2^-32 ns, `t` ns after the frame tick: 250 TM ticks a microsecond. -/
def clockAt (e : Engine) (t : Nat) : Nat := e.ptp.time + t / 4 * incr e
/-- The local clock in ns. -/
def clockNs (e : Engine) (t : Nat) : Nat := clockAt e t / 2 ^ 32

/-- Brings the time registers up to a value of the clock. -/
def showTime (v : Nat) (e : Engine) : Engine :=
  let ns := v / 2 ^ 32
  let e := setF .PTP_TIME_SL_SL 0 (ns / 1000000000) (setF .PTP_TIME_SH_SH 0 (ns / 1000000000 / 2 ^ 32) e)
  setF .PTP_TIME_NS_NS 0 (ns % 1000000000) (setF .PTP_TIME_FR_FR 0 (v % 2 ^ 32 / 2 ^ 16) e)

/-! ### Rows of the register tables -/

/-- The register block and offset of an address of the peripheral bridge; none where no block lies (R461). -/
def regAt (a : Nat) : Option (Nat × Nat) :=
  if 0x30000000 ≤ a ∧ a < 0x30068000 then some ((a - 0x30000000) / 0x8000, (a - 0x30000000) % 0x8000) else none

/-- The instance of a row's register at an offset of a block. -/
def rowIdx (r : FieldRow) (blk off : Nat) : Option Nat :=
  if r.blk = blk ∧ r.off ≤ off then
    let d := off - r.off
    if d = 0 then some 0
    else if r.stride ≠ 0 ∧ d % r.stride = 0 ∧ d / r.stride < r.count then some (d / r.stride)
    else none
  else none

/-- The fields of the register at an offset, with its instance. -/
def rowsAt (blk off : Nat) : List (FieldRow × Nat) :=
  fieldRows.filterMap fun r => match rowIdx r blk off with | some i => some (r, i) | none => none

/-- What a field reads as: a write that waits for the tick shows, a WO field reads 0 (R11). -/
def seenF (r : FieldRow) (i : Nat) (e : Engine) : Nat :=
  if r.acc = .WO then 0
  else match tget 0 e.regsNext (fkey r.fld i) with
    | 0 => getF r.fld i e
    | v + 1 => v

/-- The word of the fields at an offset. -/
def wordOf (e : Engine) (rows : List (FieldRow × Nat)) : Nat := rows.foldl (fun v p => v + seenF p.1 p.2 e * 2 ^ p.1.lo) 0

/-! ### Reads -/

/-- The offsets that a read of the low word of a split counter or time latches (R80, Tables 2.8, 11.12, 12.6, 14.14). -/
def latchedBy (blk off : Nat) : List Nat :=
  if blk = 0 ∧ off = 0x104 then [0x108]
  else if blk = 4 ∧ off = 0x40 then [0x44]
  else if blk = 6 ∧ off = 0 then [0x4, 0x8, 0xC]
  else if blk = 11 ∧ off = 0x14 then [0x18]
  else []

/-- Words read through a latch. -/
def isLatched (blk off : Nat) : Bool :=
  (blk == 0 && off == 0x108) || (blk == 4 && off == 0x44) || (blk == 6 && (off == 0x4 || off == 0x8 || off == 0xC)) || (blk == 11 && off == 0x18)

def latchKey (blk off : Nat) : Nat := 65536 * blk + off

/-- The levels of GPIO0 to GPIO31 (R465): an output carries `SYS_GPIO_OUT` or its pulse channel; an input's level is the board's, a free
value. -/
def gpioLevels (inputs t : Nat) (e : Engine) : Nat :=
  (List.range 32).foldl (fun v i =>
    let fn := decide (i < 8) && bitF .SYS_GPIO_FUNC_FUNC 0 i e
    let on : Bool :=
      if fn && decide (4 ≤ i) then (let p := tget (0, 0) e.ptp.fired (i - 4); decide (p.1 ≤ clockNs e t) && decide (clockNs e t < p.2))
      else if bitF .SYS_GPIO_DIR_DIR 0 i e && !fn then bitF .SYS_GPIO_OUT_OUT 0 i e
      else inputs / 2 ^ i % 2 == 1
    if on then v + 2 ^ i else v) 0

/-- What a register shows is brought up to date before it is read, `t` ns after the tick: the local clock, the pins. -/
def beforeRead (blk off t : Nat) (e : Engine) : Engine :=
  if blk = 6 ∧ off = 0 then showTime (clockAt e t) e
  else if blk = 0 ∧ off = 0x248 then
    let p := takeFree e
    setF .SYS_GPIO_IN_IN 0 (gpioLevels p.1.toNat t p.2) p.2
  else e

/-- Latches the words that a read of a low word latches. -/
def latchAll (blk off : Nat) (e : Engine) : Engine :=
  (latchedBy blk off).foldl (fun e o => { e with latch := tput 0 e.latch (latchKey blk o) (wordOf e (rowsAt blk o) + 1) }) e

/-- RC fields go back to their reset value when they are read (R11). -/
def clearRc (rows : List (FieldRow × Nat)) (e : Engine) : Engine :=
  rows.foldl (fun e p => if p.1.acc = .RC then setF p.1.fld p.2 (p.1.fld.reset p.2) e else e) e

/-- Reads four bytes of the flash FIFO; an empty one gives a free value (R482). -/
def readFifo (e : Engine) : Nat × Engine :=
  if e.host.qfifo.isEmpty then let p := takeFree e; (p.1.toNat % 2 ^ 32, p.2)
  else (leNat (e.host.qfifo.take 4), { e with host := { e.host with qfifo := e.host.qfifo.drop 4 } })

/-- A read of the register at an offset of a block, `t` ns after the tick. An offset with no register of the tables reads a free value. -/
def readReg (blk off t : Nat) (e : Engine) : Nat × Engine :=
  if blk = 1 ∧ off = 0x44 then readFifo e
  else
    let e := beforeRead blk off t e
    let rows := rowsAt blk off
    if rows.isEmpty then let p := takeFree e; (p.1.toNat % 2 ^ 32, p.2)
    else
      let v := match (if isLatched blk off then tget 0 e.latch (latchKey blk off) else 0) with
        | 0 => wordOf e rows
        | l + 1 => l
      (v, clearRc rows (latchAll blk off e))

/-! ### Plain stores -/

/-- The value that a write of `v` stores in an RW field; none leaves the field (R504). -/
def storedAs (c : Chk) (v : Nat) : Option Nat :=
  match c with
  | .any => some v
  | .range lo hi => if lo ≤ v ∧ v ≤ hi then some v else none
  | .floor lo => some (max lo v)
  | .low b => some (v / 2 ^ b * 2 ^ b)
  | .talarm => if 60 ≤ v ∧ (v : Int) ≤ Config.grade.maxTj then some v else none

/-- The bits of a written word that fall on a field. -/
def fieldBits (r : FieldRow) (v : Nat) : Nat := v / 2 ^ r.lo % 2 ^ r.fld.width

/-- Stores one field of a write at once: RW fields take a valid value, RW1C bits written 1 clear (R11, R504). -/
def storeField (v : Nat) (e : Engine) (p : FieldRow × Nat) : Engine :=
  let w := fieldBits p.1 v
  match p.1.acc with
  | .RW => match storedAs p.1.chk w with | some x => setF p.1.fld p.2 x e | none => e
  | .RW1C => setF p.1.fld p.2 (getF p.1.fld p.2 e &&& (2 ^ p.1.fld.width - 1 - w)) e
  | _ => e

/-- Stores one field of a write so that it takes effect at the next frame tick. -/
def deferField (v : Nat) (e : Engine) (p : FieldRow × Nat) : Engine :=
  if p.1.acc = .RW then
    match storedAs p.1.chk (fieldBits p.1 v) with
    | some x => { e with regsNext := tput 0 e.regsNext (fkey p.1.fld p.2) (x % 2 ^ p.1.fld.width + 1) }
    | none => e
  else storeField v e p

/-- Fields written since the last tick take effect (R170, R202, R247, R434). -/
def takeRegsNext (e : Engine) : Engine :=
  let l := e.regsNext
  { e with regs := l.foldl (fun m p =>
      match fieldRows.find? fun r => r.fld.ctorIdx == p.1 % 1024 with
      | some r => tput (r.fld.reset (p.1 / 1024)) m p.1 (p.2 - 1)
      | none => m) e.regs, regsNext := [] }

end Sys2Proof.Machine
end

