-- ==== Sys2Proof/Machine/Access.lean ====
section
/-! DEFINITION. One crossbar access (R428–R450): the target that an address decodes to, the masters that each area admits, the response
codes, and the effect on memory and on the error records. -/
namespace Sys2Proof.Machine

/-- Response codes of Table 14.5. -/
inductive Resp where
  | done | nodest | tfail | poison
  deriving DecidableEq, Repr

/-- A response: its code, the data read, and the engine after the access. -/
structure Answer where
  code : Resp
  data : List Byte
  e : Engine

/-- The target of an address (Table 14.4, R433); none decodes to no target. -/
def targetOf (a : Nat) : Option Nat :=
  if a < 0x10000000 then some 8
  else if a < 0x12000000 then some (2 * ((a - 0x10000000) / 0x800000) + a / 32 % 2)
  else if 0x20000000 ≤ a ∧ a < 0x20800000 then some 9
  else if 0x28000000 ≤ a ∧ a < 0x28400000 then some 10
  else if 0x29000000 ≤ a ∧ a < 0x29400000 then some 11
  else if 0x2A000000 ≤ a ∧ a < 0x2A100000 then some 14
  else if 0x30000000 ≤ a ∧ a < 0x31000000 then some 15
  else if 0x1000000000 ≤ a ∧ a < 0x1800000000 then some 12
  else if 0x2000000000 ≤ a ∧ a < 0x4000000000 then some 13
  else none

/-- The installed DRAM in bytes (Table 14.6). -/
def ddrSize (e : Engine) : Nat := 2 ^ 33 * (if getF .DDRC_CFG_DENS 0 e = 0 then 1 else 2) * (getF .DDRC_CFG_RANKS 0 e + 1)

/-- The `n` bytes from `a` meet the range of `len` bytes from `lo`. -/
def meets (a n lo len : Nat) : Bool := decide (a < lo + len) && decide (lo < a + n)

/-- A DMA master (Table 14.3). -/
def isDma (m : Nat) : Bool := m == 32 || m == 33

/-- The first engine address of region `r`'s parameter area and its logical size (R267). -/
def paramBase (e : Engine) (r : Nat) : Nat := 0x10000000 + 0x800000 * r + tget 0 e.sched.areas r
def paramSize (e : Engine) (r : Nat) : Nat := tget 0 e.sched.areas (r + 4)

/-- The active half of a region's parameter area. -/
def paramHalf (e : Engine) (r : Nat) : Nat := (bitF .HOST_PARAM_ACT_ACT 0 r e).toNat

/-- The first engine address of region `r`'s pair state area, its logical size, and its active half (R420). -/
def stateBase (e : Engine) (r : Nat) : Nat := 0x10000000 + 0x800000 * r + tget 0 e.sched.areas (r + 8)
def stateSize (e : Engine) (r : Nat) : Nat := tget 0 e.sched.areas (r + 12)
def stateHalf (e : Engine) (r : Nat) : Nat := e.pair.act / 2 ^ r % 2

/-- The address that serves a DMA access (R267, R420): the first half of a parameter or pair state area stands for its active half. -/
def serveAt (e : Engine) (m a : Nat) : Nat :=
  if isDma m ∧ 0x10000000 ≤ a ∧ a < 0x12000000 then
    let r := (a - 0x10000000) / 0x800000
    if paramBase e r ≤ a ∧ a < paramBase e r + paramSize e r then a + paramHalf e r * paramSize e r
    else if stateBase e r ≤ a ∧ a < stateBase e r + stateSize e r then a + stateHalf e r * stateSize e r
    else a
  else a

/-- The owner rules of region SRAM (R210, R267). -/
def regionOk (e : Engine) (m a n : Nat) (wr : Bool) : Bool :=
  let r := (a - 0x10000000) / 0x800000
  let mix := meets a n (0x10000000 + 0x800000 * r + tget 0 e.sched.areas (r + 16)) (tget 0 e.sched.areas (r + 20))
  let first := meets a n (paramBase e r) (paramSize e r)
  let second := meets a n (paramBase e r + paramSize e r) (paramSize e r)
  let spare := meets a n (stateBase e r + stateSize e r) (stateSize e r)
  (!mix || m == 36 || m == 37) && !(isDma m && (second || (wr && first) || spare))

/-- The owner rules of summing and routing memory (Table 14.2, R151, R183, R210, R285, R382). -/
def routingOk (m a n : Nat) (wr : Bool) : Bool :=
  let last := a + n - 1
  if last < 0x20300000 then
    (isDma m && !(wr && decide (0x20180000 ≤ last))) || m == 36 || m == 37
  else if a < 0x20400000 then m == 37 || (if wr then m == 38 else isDma m || m == 36)
  else if a < 0x20480000 then m == 37 || (if wr then m == 36 else m == 38)
  else if a < 0x204E0000 then m == 36 || m == 37
  else if 0x204F0000 ≤ a ∧ last < 0x20500000 then m == 36 || m == 37 || (isDma m && wr)
  else if a < 0x20700000 then m == 36 || m == 37
  else m == 37

/-- The owner rule of a target admits the access; `bar2` marks a host access through BAR2, for which targets 11 and 13 do not exist (R456). -/
def ownerOk (e : Engine) (m a n : Nat) (wr bar2 : Bool) : Bool :=
  match targetOf a with
  | none => false
  | some 8 =>
    let c := a / 0x100000
    let off := a % 0x100000
    decide (off + n ≤ 0x40000) && !fencedCell e c && !(e.health.bist == some c)
      && !(wr && decide (0x30000 < off + n) && isF .SYS_FUSE_CELLSIGN 0 e && m != 37)
  | some 9 => routingOk m a n wr
  | some 10 => true
  | some 11 => m == 37 || (m == 39 && !bar2)
  | some 12 => decide (a + n ≤ 0x1000000000 + ddrSize e)
  | some 13 => !bar2
  | some 14 => true
  | some 15 => (regAt a).isSome
  | some _ => regionOk e m a n wr

/-- An alignment or size rule of the target is kept (R86, R438); else the target answers TFAIL. -/
def shapeOk (a n : Nat) (wr : Bool) : Bool :=
  match targetOf a with
  | some 8 =>
    let off := a % 0x100000
    if off < 0x30000 then decide (off + n ≤ 0x30000) && (!wr || (off % 4 == 0 && n % 4 == 0))
    else !wr || (off % 16 == 0 && n % 16 == 0)
  | some 15 => n == 4 && a % 4 == 0
  | _ => true

/-- The target can serve: a DDR channel that is off or under `RESET_FN` cannot (Table 14.5, R447). -/
def targetUp (e : Engine) (a : Nat) : Bool :=
  if targetOf a = some 12 then getF .DDRC_STAT_STATE 0 e != 0 && getF .DDRC_STAT_STATE 0 e != 6 else true

/-- The DRAM controller's clock domain, DM, has lost lock (Tables 1.9, 1.13). -/
def dmDown (e : Engine) : Bool := !bitF .SYS_DOMAIN_STAT_LOCKED 0 1 e || e.health.domLost / 2 % 2 == 1

/-- Records a crossbar error (R437, Table 14.11) and posts event 0x0A08. -/
def xbarError (code m a : Nat) (e : Engine) : Engine :=
  let t := (targetOf a).getD 15
  let e := setF .XBAR_ERR_VALID 0 1 e
  let e := setF .XBAR_ERR_CODE 0 code e
  let e := setF .XBAR_ERR_MASTER 0 m e
  let e := setF .XBAR_ERR_TARGET 0 t e
  let e := setF .XBAR_ERRADDR_LO_ADDR 0 (a % 2 ^ 32) e
  let e := setF .XBAR_ERRADDR_HI_ADDR 0 (a / 2 ^ 32) e
  let e := bumpF (if code = 1 then .XBAR_ERRCNT_NODEST else if code = 2 then .XBAR_ERRCNT_TIMEOUT else .XBAR_ERRCNT_PARITY) 0 1 e
  postEvent 0x0A08 [2 ^ 31 + 2 ^ 28 * code + 2 ^ 22 * m + 2 ^ 18 * t] e

/-! ### Errors of the words that an access meets -/

/-- The granules in error that `n` bytes from `a` touch, with their state. -/
def badIn (e : Engine) (a n : Nat) : List (Nat × Nat) :=
  e.ecc.filter fun p => decide (p.1 < a + n) && decide (a < p.1 + granSize p.1)

/-- The rank of a DRAM offset (R440). -/
def ddrRank (e : Engine) (off : Nat) : Nat := off / (ddrSize e / (getF .DDRC_CFG_RANKS 0 e + 1))

/-- A correctable entry of the DRAM log. -/
def isCorr (l : LogEntry) : Bool := l.kind == 4

/-- Removes the last entry (the oldest) that satisfies a condition. -/
def dropOldest (p : LogEntry → Bool) (l : List LogEntry) : List LogEntry :=
  match l.reverse.span (fun x => !p x) with
  | (pre, _ :: post) => (pre ++ post).reverse
  | (pre, []) => pre.reverse

/-- The log registers show the entry that `DDRC_LOGIDX.RD` selects (Table 14.14); past the valid entries they show 0. -/
def showLog (e : Engine) : Engine :=
  let l := e.xmem.log
  let x := (l[getF .DDRC_LOGIDX_RD 0 e]?).getD { off := 0, kind := 0, m := 0, rank := 0, beat := 0, syn := 0, frame := 0 }
  let e := setF .DDRC_LOG_ADDR_HI_ADDR 0 (x.off / 2 ^ 32) (setF .DDRC_LOG_ADDR_LO_ADDR 0 (x.off % 2 ^ 32) e)
  let e := setF .DDRC_LOG_INFO_MASTER 0 x.m (setF .DDRC_LOG_INFO_KIND 0 x.kind e)
  let e := setF .DDRC_LOG_INFO_BEAT 0 x.beat (setF .DDRC_LOG_INFO_RANK 0 x.rank e)
  let e := setF .DDRC_LOG_INFO_SYNDROME 0 x.syn e
  setF .DDRC_LOG_FRAME_HI_FRAME 0 (x.frame / 2 ^ 32) (setF .DDRC_LOG_FRAME_LO_FRAME 0 (x.frame % 2 ^ 32) e)

/-- Enters a DRAM error, newest first (R450). A correctable entry overwrites the oldest correctable one; in a full log with none the spec
names no entry to overwrite, and whether the new one overwrites the oldest or is not entered is free. -/
def ddrLog (kind m off beat : Nat) (e : Engine) : Engine :=
  let p := takeFree e
  let e := p.2
  let ent : LogEntry := { off := off / 64 * 64, kind := kind, m := m, rank := ddrRank e off, beat := beat, syn := p.1.toNat % 256, frame := frameNo e }
  let l := e.xmem.log
  showLog (if l.length < 256 then setF .DDRC_LOGIDX_COUNT 0 (l.length + 1) { e with xmem := { e.xmem with log := ent :: l } }
  else if l.any isCorr then bumpF .DDRC_LOGIDX_OVERWR 0 1 { e with xmem := { e.xmem with log := ent :: dropOldest isCorr l } }
  else if kind = 4 ∧ p.1.getLsbD 8 then e
  else bumpF .DDRC_LOGIDX_OVERWR 0 1 { e with xmem := { e.xmem with log := ent :: l.dropLast } })

/-- A DRAM error that cannot be corrected: counted, logged, and event 0x0A01 for the kinds that Table 14.7 gives it. -/
def ddrUncorrectable (kind m off beat : Nat) (e : Engine) : Engine :=
  let e := ddrLog kind m off beat (bumpF .DDRC_UE_UE 0 1 e)
  if kind = 6 then e else postEvent 0x0A01 [off / 64 * 64, 2 ^ 61 * kind + 2 ^ 55 * m] e

/-- A corrected error on a DRAM burst (Table 14.7). -/
def ddrCorrected (m off beat : Nat) (e : Engine) : Engine :=
  let e := ddrLog 4 m off beat (bumpF .DDRC_CE_CECNT 0 1 e)
  { e with xmem := { e.xmem with ceSec := e.xmem.ceSec + 1 } }

/-- A granule in error that an access reads: state 1 is corrected in flight, 2 is uncorrectable, 3 is the DRAM poison code word. -/
def meetError (m : Nat) (e : Engine) (g : Nat × Nat) : Engine :=
  match targetOf g.1 with
  | some 8 =>
    if g.2 = 1 then cellCorrected (g.1 / 0x100000) (g.1 % 0x100000) e else cellDed (g.1 / 0x100000) (g.1 % 0x100000) e
  | some 12 =>
    let off := g.1 - 0x1000000000
    if g.2 = 1 then ddrCorrected m off (off / 8 % 8) e
    else ddrUncorrectable (if g.2 = 3 then 6 else 1) m off (off / 8 % 8) e
  | some 13 => e
  | some t => if g.2 = 1 then bumpF .XBAR_MEMSTAT_CE t 1 e else onUncorrectable g.1 e
  | none => e

/-- The merge unit of an address (R437): the 64-byte burst of DRAM, the ECC granule on chip. -/
def mergeUnit (a : Nat) : Nat := if targetOf a = some 12 then 64 else granSize a

/-- The first address of the merge unit of `a`, and the length in whole units of `n` bytes from `a`. -/
def unitLo (a : Nat) : Nat := a / mergeUnit a * mergeUnit a
def unitLen (a n : Nat) : Nat := (a + n + mergeUnit a - 1) / mergeUnit a * mergeUnit a - unitLo a

/-- A granule whose merge unit a write of `n` bytes from `a` covers only in part. -/
def partialUnit (a n g : Nat) : Bool :=
  let u := mergeUnit g
  let lo := g / u * u
  !(decide (a ≤ lo) && decide (lo + u ≤ a + n))

/-- A rank whose drift has left the correction range: its reads fail ECC (R447). -/
def rankOut (e : Engine) (a : Nat) : Bool :=
  targetOf a == some 12 && decide (100 < tget 0 e.xmem.drift (ddrRank e (a - 0x1000000000)))

/-- The granules in error that an access of `n` bytes from `a` meets, with their state: those of every burst of DRAM that it touches, since
a queue entry holds one burst (R441). -/
def metBy (e : Engine) (a n : Nat) : List (Nat × Nat) :=
  let l := badIn e (unitLo a) (unitLen a n)
  if rankOut e a && !(l.any fun g => decide (2 ≤ g.2)) then (unitLo a, 2) :: l else l

/-- A partial write that meets only corrected errors rewrites its merge units with good check bits. -/
def healUnits (l : List (Nat × Nat)) (e : Engine) : Engine := l.foldl (fun e g => setEcc g.1 0 e) e

/-- `n` bytes without meaning. -/
def freeBytes (e : Engine) (n : Nat) : List Byte × Engine :=
  ((List.range n).map fun j => (Config.freeValue (e.free + j)).setWidth 8, { e with free := e.free + n })

/-- The first request ends self-refresh (R451): the channel runs, its debt 0. -/
def wakeDdr (e : Engine) : Engine :=
  let st := getF .DDRC_STAT_STATE 0 e
  if st = 3 ∨ st = 4 ∨ st = 5 then
    setF .DDRC_REF_DEBT 0 0 (setF .DDRC_STAT_STATE 0 2 { e with xmem := { e.xmem with debt := 0 } })
  else e

/-- Stores into the activity table (R213): bit 0 of each word; words of sources that automix owns are discarded for a DMA master. -/
def storeActivity (m a : Nat) : List Byte → Engine → Engine
  | [], e => e
  | b :: bs, e =>
    let s := (a - 0x204F0000) / 4
    let owned := e.mix.members.any fun p => match p.2 with | some x => x.det == s | none => false
    let e := if a % 4 = 0 ∧ !(isDma m && owned) then writeByte a (b &&& 1) e else e
    storeActivity m (a + 1) bs e

/-- The tables that the model holds as typed state: sink and routing tables, summing tables but for the activity table, scheduler store. -/
def typedTable (a : Nat) : Bool := decide (0x20480000 ≤ a) && decide (a < 0x20800000) && !(decide (0x204F0000 ≤ a) && decide (a < 0x20500000))

/-! ### Tables with a stated layout (Tables 5.1, 5.2, 7.1, 7.2)

The scheduler store shows the graph that `DEF_ITEM` and `LINK` write (R151); the mix areas show the send lists of the admitted graph (R210). Tables
whose layout the manual does not give read free values and discard writes (log 162). -/

/-- Where the byte at an address lies: transfer or descriptor entry and offset, or bus, send entry and offset. -/
inductive TablePlace where
  | xfer (i k : Nat)
  | item (i k : Nat)
  | send (b i k : Nat)

/-- The place of a byte in a table with a stated layout. -/
def placeOf (e : Engine) (a : Nat) : Option TablePlace :=
  if 0x20740000 ≤ a ∧ a < 0x20780000 then some (.xfer ((a - 0x20740000) / 32) (a % 32))
  else if 0x20780000 ≤ a ∧ a < 0x20800000 then some (.item ((a - 0x20780000) / 32) (a % 32))
  else if 0x10000000 ≤ a ∧ a < 0x12000000 then
    (e.sched.adm.mixAt.find? fun p => decide (p.2.1 ≤ a) && decide (a < p.2.1 + 8 * (tget [] e.sched.adm.sends p.1).length)).map fun p =>
      .send p.1 ((a - p.2.1) / 8) ((a - p.2.1) % 8)
  else none

/-- A word's byte, and the word with the byte replaced. -/
def wordByte (w : Word64) (k : Nat) : Byte := (w >>> (8 * k)).setWidth 8
def putByte (w : Word64) (k : Nat) (b : Byte) : Word64 := (w &&& ~~~((0xFF : Word64) <<< (8 * k))) ||| (b.setWidth 64 <<< (8 * k))

def quadByte (q : Quad) (k : Nat) : Byte := wordByte ([q.w0, q.w1, q.w2, q.w3].getD (k / 8) 0) (k % 8)
def putQuad (q : Quad) (k : Nat) (b : Byte) : Quad :=
  match k / 8 with
  | 0 => { q with w0 := putByte q.w0 (k % 8) b }
  | 1 => { q with w1 := putByte q.w1 (k % 8) b }
  | 2 => { q with w2 := putByte q.w2 (k % 8) b }
  | _ => { q with w3 := putByte q.w3 (k % 8) b }

/-- The byte of a table at a place. -/
def tableByte (e : Engine) : TablePlace → Byte
  | .xfer i k => quadByte ((tget none e.sched.edit.xfers i).getD Quad.zero) k
  | .item i k => quadByte (tget Quad.zero e.sched.edit.items i) k
  | .send b i k => wordByte ((tget [] e.sched.adm.sends b).getD i 0) k

/-- A byte written into a table. -/
def putTable (b : Byte) (e : Engine) : TablePlace → Engine
  | .xfer i k =>
    let g := e.sched.edit
    { e with sched := { e.sched with edit := { g with xfers := tput none g.xfers i (some (putQuad ((tget none g.xfers i).getD Quad.zero) k b)) } } }
  | .item i k =>
    let g := e.sched.edit
    { e with sched := { e.sched with edit := { g with items := tput Quad.zero g.items i (putQuad (tget Quad.zero g.items i) k b) } } }
  | .send u i k =>
    let g := e.sched.adm
    let l := tget [] g.sends u
    { e with sched := { e.sched with adm := { g with sends := tput [] g.sends u (l.set i (putByte (l.getD i 0) k b)) } } }

/-- Bytes written from `a` reach the tables that lie there. -/
def putTables (a : Nat) : List Byte → Engine → Engine
  | [], e => e
  | b :: bs, e => putTables (a + 1) bs (match placeOf e a with | some p => putTable b e p | none => e)

/-- Bytes read, those of tables as the tables hold them. -/
def overTables (e : Engine) (a : Nat) (bs : List Byte) : List Byte :=
  bs.zipIdx.map fun p => match placeOf e (a + p.2) with | some q => tableByte e q | none => p.1

/-- A write that the owner and the target accept: into the activity table, or merged into its units (R437). -/
def writeUnits (e : Engine) (m a : Nat) (data : List Byte) (n : Nat) : Answer :=
  if targetOf a = some 9 ∧ 0x204F0000 ≤ a then ⟨.done, [], storeActivity m a data e⟩
  else
    let b := serveAt e m a
    let met := (metBy e b n).filter fun g => partialUnit b n g.1
    let e' := met.foldl (meetError m) e
    if met.any fun g => decide (2 ≤ g.2) then ⟨.poison, [], e'⟩ else ⟨.done, [], putTables b data (store b data (healUnits met e'))⟩

/-- A read that the owner and the target accept. -/
def readUnits (e : Engine) (m a n : Nat) : Answer :=
  let b := serveAt e m a
  let met := metBy e b n
  let e' := met.foldl (meetError m) e
  if met.any fun g => decide (2 ≤ g.2) then let f := freeBytes e' n; ⟨.poison, f.1, f.2⟩ else ⟨.done, overTables e b (readBytes e b n), e'⟩

/-- An access to the peripheral bridge (R438): a write is posted there, a read answers the register. -/
def bridgeAccess (e : Engine) (a : Nat) (wr : Bool) (data : List Byte) : Answer :=
  if wr then ⟨.done, [], { e with xmem := { e.xmem with posted := e.xmem.posted ++ [(a, leNat data)] } }⟩
  else match regAt a with
    | some r =>
      let p := takeFree e
      let v := readReg r.1 r.2 (p.1.toNat % frameNs e) p.2
      ⟨.done, leBytes v.1 4, v.2⟩
    | none => ⟨.nodest, [], e⟩

/-- An access to DRAM while DM is down: POISON, and an entry in the log (Table 1.9). The log's kinds name no such error: a free value. -/
def deadDram (e : Engine) (m a : Nat) (wr : Bool) (n : Nat) : Answer :=
  let p := takeFree e
  let e := ddrLog (p.1.toNat % 8) m (a - 0x1000000000) 0 p.2
  if wr then ⟨.poison, [], e⟩ else let f := freeBytes e n; ⟨.poison, f.1, f.2⟩

/-- One access of at most 512 bytes inside an aligned 512-byte unit, by master `m` (R431–R437). -/
def access (e : Engine) (m a : Nat) (wr bar2 : Bool) (data : List Byte) (n : Nat) : Answer :=
  if !ownerOk e m a n wr bar2 then ⟨.nodest, [], xbarError 1 m a e⟩
  else if !shapeOk a n wr || !targetUp e a then ⟨.tfail, [], e⟩
  else if typedTable a then
    if wr then ⟨.done, [], putTables a data e⟩ else let f := freeBytes e n; ⟨.done, overTables e a f.1, f.2⟩
  else if targetOf a = some 15 then bridgeAccess e a wr data
  else if targetOf a = some 12 ∧ dmDown e then deadDram e m a wr n
  else
    let e := if targetOf a = some 12 then wakeDdr e else e
    if wr then writeUnits e m a data n else readUnits e m a n

/-- The worse of two codes, for a transfer of several transactions: the first that is not DONE. -/
def Resp.then_ (a b : Resp) : Resp := if a = .done then b else a

/-- Reads `n` bytes from `a` in transactions that do not cross 512 bytes. -/
def readAll (e : Engine) (m a n : Nat) : Nat → Answer
  | 0 => ⟨.done, [], e⟩
  | f + 1 =>
    if n = 0 then ⟨.done, [], e⟩
    else
      let k := min n (512 - a % 512)
      let r := access e m a false false [] k
      let t := readAll r.e m (a + k) (n - k) f
      ⟨r.code.then_ t.code, (if r.code = .done then r.data else List.replicate k 0) ++ t.data, t.e⟩

/-- Writes bytes from `a` in transactions that do not cross 512 bytes. -/
def writeAll (e : Engine) (m a : Nat) (data : List Byte) : Nat → Answer
  | 0 => ⟨.done, [], e⟩
  | f + 1 =>
    if data.isEmpty then ⟨.done, [], e⟩
    else
      let k := min data.length (512 - a % 512)
      let r := access e m a true false (data.take k) k
      let t := writeAll r.e m (a + k) (data.drop k) f
      ⟨r.code.then_ t.code, [], t.e⟩

end Sys2Proof.Machine
end

