-- ==== Sys2Proof/Machine/CellAlu.lean ====
section
/-! DEFINITION. The results of the M, X and C slot operations of a bundle (chapter 4): for each operation, what lands where and how many
bundles after the issue (Table 3.5). -/
namespace Sys2Proof.Machine

/-- The lanes. -/
def lanes : List Nat := [0, 1, 2, 3]

/-- Results of a slot: the latency and the destination. -/
abbrev Results := List (Nat × Dest)

/-- A saturating D result of a lane at latency `l`. -/
def dSat (bk : Bank) (l lane rd : Nat) (r : Word × Bool) : Results :=
  (l, .d (dIdx bk lane rd) r.1) :: (if r.2 then [(l, .flags lane false true)] else [])

/-- A MAC-class result (R127): seen by MAC-class operations at i + 1, by all others at i + 3, with OV at i + 3. -/
def accResult (lane a : Nat) (r : AccVal × Bool) : Results :=
  [(1, .accM (4 * lane + a) r.1.v r.1.pin), (3, .acc (4 * lane + a) r.1.v r.1.pin)]
    ++ (if r.2 then [(3, .flags lane true false)] else [])

/-- An accumulator written without being read (R98, R127, R128): seen by every operation at latency `l`, unpinned. -/
def accWrite (l lane a : Nat) (v : Int) : Results :=
  [(l, .accM (4 * lane + a) (BitVec.ofInt 80 v) false), (l, .acc (4 * lane + a) (BitVec.ofInt 80 v) false)]

/-- MAC2's product (R129). -/
def pairProduct (x y : Word) : Int := (hiHalf x * hiHalf y + loHalf x * loHalf y) * (2 ^ 32 : Nat)

/-- BIQ's dot product (R128). -/
def biqSum (bk : Bank) (lane x y : Nat) : Nat → Int
  | 0 => 0
  | k + 1 => biqSum bk lane x y k + (dReg bk lane ((x + k) % 32)).toInt * (dReg bk lane ((y + k) % 32)).toInt

/-- The M slot (Table 4.5): the results of one lane. -/
def mLane (bk : Bank) (slot lane : Nat) : Results :=
  let x := dReg bk lane (field slot 22 18)
  let y := dReg bk lane (field slot 17 13)
  let a := field slot 12 11
  match field slot 27 23 with
  | 0x01 => accResult lane a (accumulate (accMOf bk lane a) (x.toInt * y.toInt))
  | 0x02 => accResult lane a (accumulate (accMOf bk lane a) (-(x.toInt * y.toInt)))
  | 0x03 => accWrite 3 lane a (x.toInt * y.toInt)
  | 0x04 => accResult lane a (accumulate (accMOf bk lane a) (pairProduct x y))
  | 0x05 => dSat bk 4 lane (field slot 10 6) (mulRound x y)
  | 0x06 => accWrite 4 lane a (biqSum bk lane (field slot 22 18) (field slot 17 13) 5)
  | 0x08 => accWrite 3 lane a 0
  | 0x09 => accWrite 3 lane a (x.toInt * (2 ^ 31 : Nat))
  | 0x0A => accResult lane a (accumulate (accMOf bk lane a) (x.toInt * (2 ^ 31 : Nat)))
  | _ => []

/-- The M slot executes a BIQ, which occupies the next M slot (R123, R128). -/
def isBiq (bk : Bank) (slot : Nat) : Bool := guardOk bk (field slot 31 28) && decide (field slot 27 23 = 6)

/-- The M slot's results in all lanes. -/
def mResults (bk : Bank) (slot : Nat) : Results :=
  if guardOk bk (field slot 31 28) then lanes.flatMap (mLane bk slot) else []

/-- A mask word (CMPEQ and its kin). -/
def maskWord (b : Bool) : Word := if b then BitVec.ofNat 32 (2 ^ 32 - 1) else 0

/-- The widths of FEXT (R132). -/
def fextWidth (code : Nat) : Nat := [1, 2, 4, 8, 12, 16, 24, 32].getD code 32

/-- PCMP's comparison in a lane (R131); none for a reserved condition. -/
def compare (cond : Nat) (a b : Int) : Option Bool :=
  match cond with
  | 0 => some (decide (a = b))
  | 1 => some (decide (a ≠ b))
  | 2 => some (decide (b < a))
  | 3 => some (decide (b ≤ a))
  | 4 => some (decide (a < b))
  | 5 => some (decide (a ≤ b))
  | _ => none

/-- PCMP (R131): the reduction over the lanes, none when a field is reserved. -/
def pcmp (bk : Bank) (slot : Nat) (b : Nat → Word) : Option Bool :=
  let r := lanes.map fun l => compare (field slot 2 0) (dReg bk l (field slot 12 8)).toInt (b l).toInt
  if r.any Option.isNone then none
  else
    match field slot 17 16 with
    | 0 => r.headD none
    | 1 => some (r.all (· == some true))
    | 2 => some (r.any (· == some true))
    | _ => none

/-- RDF (Table 4.7): flags and pins of a lane. -/
def rdf (bk : Bank) (lane : Nat) : Word :=
  BitVec.ofNat 32 ((bk.ov.getLsbD lane).toNat + 2 * (bk.sat.getLsbD lane).toNat
    + 4 * (accOf bk lane 0).pin.toNat + 8 * (accOf bk lane 1).pin.toNat + 16 * (accOf bk lane 2).pin.toNat
    + 32 * (accOf bk lane 3).pin.toNat)

/-- The X slot's D result in a lane for the operations of format R (Table 4.7), with the value read for Db: the word and SAT; none for
an operation that writes no D register this way. -/
def xWord (bk : Bank) (slot lane : Nat) (db : Word) : Option (Word × Bool) :=
  let rd := field slot 17 13
  let da := dReg bk lane (field slot 12 8)
  let n := field slot 7 3
  match field slot 23 18 with
  | 0x01 => some (da, false)
  | 0x02 => some (da + db, false)
  | 0x03 => some (satWord (da.toInt + db.toInt))
  | 0x04 => some (da - db, false)
  | 0x05 => some (satWord (da.toInt - db.toInt))
  | 0x06 => some (satWord (-da.toInt))
  | 0x07 => some (satWord da.toInt.natAbs)
  | 0x08 => some (if da.toInt ≤ db.toInt then da else db, false)
  | 0x09 => some (if db.toInt ≤ da.toInt then da else db, false)
  | 0x0A => some (da &&& db, false)
  | 0x0B => some (da ||| db, false)
  | 0x0C => some (da ^^^ db, false)
  | 0x0D => some (~~~da, false)
  | 0x0E => some (da <<< n, false)
  | 0x0F => some (satWord (da.toInt * (2 ^ n : Nat)))
  | 0x10 => some (BitVec.ofInt 32 (da.toInt / (2 ^ n : Nat)), false)
  | 0x11 => some (da >>> n, false)
  | 0x12 => some (shiftVar da db.toInt)
  | 0x13 => some (satPair (hiHalf da + hiHalf db) (loHalf da + loHalf db))
  | 0x14 => some (satPair (hiHalf da - hiHalf db) (loHalf da - loHalf db))
  | 0x15 => some (BitVec.ofNat 32 (countSign da), false)
  | 0x16 => some (maskWord (da == db), false)
  | 0x17 => some (maskWord (decide (db.toInt < da.toInt)), false)
  | 0x18 => some (maskWord (decide (db.toInt ≤ da.toInt)), false)
  | 0x19 => some ((dReg bk lane rd &&& da) ||| (~~~(dReg bk lane rd) &&& db), false)
  | 0x1B => some (dReg bk (field slot 7 0 / 4 ^ lane % 4) (field slot 12 8), false)
  | 0x1C => some (BitVec.ofNat 32 (da.toNat / 2 ^ n % 2 ^ fextWidth (field slot 2 0)), false)
  | 0x1F => some (rdf bk lane, false)
  | 0x20 => some (convert 0 false da)
  | 0x21 => some (convert 1 false da)
  | 0x22 => some (convert 2 false da)
  | 0x23 => some (convert 3 false da)
  | 0x24 => some (convert 4 false da)
  | 0x25 => some (convert 5 false da)
  | 0x26 => some (convert 6 false da)
  | 0x27 => some (convert 7 (field slot 0 0 == 1) da)
  | 0x29 => some (sExt bk (field slot 12 8), false)
  | _ => none

/-- The operations of format R that read Db, whose place an immediate takes (R134). -/
def readsDb (op : Nat) : Bool :=
  [0x02, 0x03, 0x04, 0x05, 0x08, 0x09, 0x0A, 0x0B, 0x0C, 0x12, 0x13, 0x14, 0x16, 0x17, 0x18, 0x19].contains op

/-- The immediate of a format R operation or MOVI (R134): X-low sign-extended, X-high times 2^16. -/
def xImm (bundle : Nat) : Option Word :=
  match imxFor bundle 0 with
  | some v => some ((BitVec.ofNat 16 v).signExtend 32)
  | none => (imxFor bundle 1).map fun v => BitVec.ofNat 32 (2 ^ 16 * v)

/-- The immediate of SETS (R134), for the scalar code. -/
def setsImm (bundle code : Nat) : Scalar :=
  match imxFor bundle 0 with
  | some v => if code / 8 = 3 then (BitVec.ofNat 16 v).signExtend 18 else BitVec.ofNat 18 v
  | none => BitVec.ofNat 18 (((imxFor bundle 1).getD 0) * 4)

/-- A cross-bank move or XRDA: the results and whether they land in the primary bank (R135). -/
structure XOut where
  res : Results
  primary : Bool

/-- The X slot (Table 4.7). `prim` is the primary bank, read and written by the cross-bank moves in a handler. -/
def xResults (bk prim : Bank) (inHandler : Bool) (bundle : Nat) : XOut :=
  let slot := slotX bundle
  let op := field slot 23 18
  let rd := field slot 17 13
  let ra := field slot 12 8
  let own (r : Results) : XOut := ⟨r, false⟩
  if !guardOk bk (field slot 27 24) then own []
  else
    match op with
    | 0x1A =>
      match pcmp bk slot (fun l => dReg bk l (field slot 7 3)) with
      | some v => own [(1, .p (field slot 15 13) v)]
      | none => own []
    | 0x1D =>
      own (lanes.flatMap fun l =>
        dSat bk 2 l rd (extract (accOf bk l (field slot 12 11)) (signed 5 (field slot 7 3)) (field slot 10 10 == 1)))
    | 0x1E =>
      if field slot 9 8 = 3 then own []
      else own (lanes.map fun l => (2, .d (dIdx bk l rd) (accPart (accOf bk l (field slot 12 11)).v (field slot 9 8))))
    | 0x28 => own [(1, .s rd ((dReg bk 0 ra).extractLsb' 0 18))]
    | 0x2A => own (lanes.map fun l => (1, .d (dIdx bk l rd) ((xImm bundle).getD 0)))
    | 0x2B => own [(1, .s rd (setsImm bundle rd))]
    | 0x2C => if inHandler then own (lanes.map fun l => (1, .d (dIdx bk l rd) (dReg prim l ra))) else own []
    | 0x2D => if inHandler then ⟨lanes.map fun l => (1, .d (dIdx prim l rd) (dReg bk l ra)), true⟩ else own []
    | 0x2E => if inHandler then own [(1, .s rd (sReg prim ra))] else own []
    | 0x2F => if inHandler then ⟨[(1, .s rd (sReg bk ra))], true⟩ else own []
    | 0x30 =>
      if inHandler && field slot 9 8 != 3 then
        own (lanes.map fun l => (2, .d (dIdx bk l rd) (accPart (accOf prim l (field slot 12 11)).v (field slot 9 8))))
      else own []
    | _ =>
      own (lanes.flatMap fun l =>
        let db := if readsDb op then (match xImm bundle with | some v => v | none => dReg bk l (field slot 7 3))
                  else dReg bk l (field slot 7 3)
        match xWord bk slot l db with
        | some r => dSat bk 1 l rd r
        | none => [])

/-- What a C-slot operation does to the order of bundles. -/
inductive Ctrl where
  | none_
  | branch (t : Nat)
  | loop (n stages len : Nat)
  | waitw
  | reti
  | brk
  deriving DecidableEq, Repr

/-- The C slot (Table 4.12): results at i + 1, and its control effect. `geti` gives the item values of R150. -/
def cResults (bk : Bank) (slot : Nat) (geti : Nat → Scalar) : Results × Ctrl :=
  if field slot 19 18 = 3 then ([], .none_)
  else
    let n := field slot 14 12
    let t := field slot 11 0
    let code := field slot 14 10
    let imm : Int := if code / 8 = 3 then signed 10 (field slot 9 0) else (field slot 9 0 : Nat)
    match field slot 19 15 with
    | 0x01 => ([], .branch t)
    | 0x02 => ([], if predOf bk n then .branch t else .none_)
    | 0x03 => ([], if predOf bk n then .none_ else .branch t)
    | 0x04 => ([], .branch ((sReg bk n).toNat % 4096))
    | 0x05 => ([], .loop ((sReg bk n).toNat % 65536) 0 (t + 1))
    | 0x06 =>
      let cnt := (sReg bk n).toNat % 65536
      let ps := if cnt = 0 then [] else (List.range 8).map fun i => (1, Dest.p i (i == 0))
      (ps, .loop cnt (field slot 11 9 + 1) (field slot 8 0 + 1))
    | 0x07 => ([(1, .s code (BitVec.ofInt 18 imm))], .none_)
    | 0x08 => ([(1, .s code (BitVec.ofInt 18 ((sReg bk code).toNat + signed 10 (field slot 9 0))))], .none_)
    | 0x09 => ([(1, .p n (field slot 0 0 == 1))], .none_)
    | 0x0A =>
      let a := predOf bk (field slot 11 9)
      let b := predOf bk (field slot 8 6)
      let v := match field slot 1 0 with
        | 0 => a && b
        | 1 => a || b
        | 2 => a != b
        | _ => a && !b
      ([(1, .p n v)], .none_)
    | 0x0B => ([(1, .clrf (BitVec.ofNat 4 (field slot 5 2)) (field slot 1 1 == 1) (field slot 0 0 == 1))], .none_)
    | 0x0C => ([(1, .s n (geti (field slot 1 0)))], .none_)
    | 0x0D => ([], .waitw)
    | 0x0E => ([], .reti)
    | 0x0F => ([], .brk)
    | _ => ([], .none_)

end Sys2Proof.Machine
end

