-- ==== Sys2Proof/Machine/Cell.lean ====
section
/-! DEFINITION. The compute cell's pipeline (chapters 3 and 4): results that become visible, loops, the issue of a bundle, interrupts, and
the end of an item. -/
namespace Sys2Proof.Machine

/-! ### Results (R101–R103) -/

/-- One result lands in its register. -/
def landOne (bk : Bank) : Dest → Bank
  | .d i v => { bk with d := tput 0 bk.d i v }
  | .acc i v p => { bk with acc := tput 0 bk.acc i v, pin := tput false bk.pin i p }
  | .accM i v p => { bk with accM := tput 0 bk.accM i v, pinM := tput false bk.pinM i p }
  | .s c v => { bk with s := tput 0 bk.s c v }
  | .p i v => { bk with p := tput true bk.p i v }
  | _ => bk

/-- The lanes in which results set OV, and SAT; and those in which CLRF clears them. -/
def setOv (l : Dest) (m : BitVec 4) : BitVec 4 := match l with | .flags lane true _ => m ||| BitVec.ofNat 4 (2 ^ lane) | _ => m
def setSat (l : Dest) (m : BitVec 4) : BitVec 4 := match l with | .flags lane _ true => m ||| BitVec.ofNat 4 (2 ^ lane) | _ => m
def clrOv (l : Dest) (m : BitVec 4) : BitVec 4 := match l with | .clrf lanes true _ => m ||| lanes | _ => m
def clrSat (l : Dest) (m : BitVec 4) : BitVec 4 := match l with | .clrf lanes _ true => m ||| lanes | _ => m

/-- The results that become visible together land in a bank; also the lanes in which a flag goes from 0 to 1 (R100, R103, R149). -/
def landAll (bk : Bank) (ds : List Dest) : Bank × BitVec 4 :=
  let so := ds.foldr setOv 0
  let ss := ds.foldr setSat 0
  let co := ds.foldr clrOv 0
  let cs := ds.foldr clrSat 0
  let bk' := ds.foldl landOne bk
  ({ bk' with ov := (bk.ov &&& ~~~co) ||| so, sat := (bk.sat &&& ~~~cs) ||| ss }, (so &&& ~~~bk.ov) ||| (ss &&& ~~~bk.sat))

/-- The results of the cell that are due become visible. -/
def landDue (cl : Cell) : Cell :=
  let due := cl.flights.filter fun f => decide (f.due ≤ cl.now)
  let p := landAll cl.prim ((due.filter fun f => !f.shadow).map (·.dest))
  let h := landAll cl.shad ((due.filter fun f => f.shadow).map (·.dest))
  { cl with
    prim := p.1, shad := h.1
    flights := cl.flights.filter fun f => !decide (f.due ≤ cl.now)
    trap := if cl.trapen then cl.trap ||| p.2 ||| h.2 else cl.trap
    ecc := cl.ecc || due.any fun f => decide (f.dest = .ecc) }

/-- Loop levels whose count is 0 close; LC shows the level that is then innermost (R144). -/
def closeLoops (bk : Bank) : Bank :=
  if bk.loops.any fun l => l.cnt == 0 then
    let ls := bk.loops.filter fun l => l.cnt != 0
    { bk with loops := ls, lc := BitVec.ofNat 16 ((ls.head?.map (·.cnt)).getD 0) }
  else bk

/-- What happens before the next bundle: results land, loop levels close. -/
def settle (cl : Cell) : Cell :=
  let cl := landDue cl
  { cl with prim := closeLoops cl.prim, shad := closeLoops cl.shad }

/-- The handler in progress is an aborting one. -/
def aborting (cl : Cell) : Bool := match cl.handler with | some 5 => false | some _ => true | none => false

/-- An interrupt raised in an aborting handler is discarded and only its counter increments (R111). -/
def dropHeldTrap (c : Nat) (e : Engine) : Engine :=
  let cl := getCell e c
  if aborting cl && (cl.trap != 0 || cl.ecc) then
    let e := if cl.trap != 0 then bumpF .SYS_CELL_CNT_TRAPS c 1 e else e
    setCell c { cl with trap := 0, ecc := false } e
  else e

/-- Settles a cell of the engine. -/
def settleCell (c : Nat) (e : Engine) : Engine := dropHeldTrap c (setCell c (settle (getCell e c)) e)

/-! ### Interrupts due (R106, R107, R109, R110) -/

/-- The limit of the budget counter (R112). -/
def limitOf (cl : Cell) : Nat := if cl.hpres then cl.budget - 16 else cl.budget

/-- The lowest aborting cause that is due before the next bundle of the primary bank. -/
def dueCause (cl : Cell) : Option Nat :=
  if cl.item.isNone || cl.ended || cl.handler.isSome then none
  else if cl.ecc then some 1
  else if cl.trap != 0 then some 2
  else if limitOf cl ≤ cl.count then some 3
  else if cl.frameAbort then some 4
  else none

/-- The bank switch of RETI is due (R109). -/
def retiDue (cl : Cell) : Bool :=
  match cl.reti with
  | some k => decide (max (k + 2) 4 ≤ cl.hcnt)
  | none => false

/-- An aborting handler is at its end (R110). -/
def handlerOver (cl : Cell) : Bool := aborting cl && (decide (16 ≤ cl.hcnt) || decide (cl.budget ≤ cl.count))

/-- A debug break can be taken: none of the delay of a branch is pending (R107). -/
def breakReady (cl : Cell) : Bool :=
  cl.brk && cl.item.isSome && !cl.ended && cl.handler.isNone && cl.prim.brs.isEmpty && (dueCause cl).isNone

/-- The cell can issue its next bundle. -/
def canIssue (cl : Cell) : Bool :=
  cl.item.isSome && !cl.ended && (dueCause cl).isNone && !breakReady cl && !retiDue cl && !handlerOver cl

/-! ### The end of an item (R110, R113) -/

/-- Stores of a cell that have not committed commit. R113 and R110 give them their bundle times and say nothing of bank conflicts among them, once
no bundle issues: the model makes and counts no stall for them (DESIGN CHOICE, log 141). -/
def commitAll (c : Nat) (e : Engine) : Engine :=
  let cl := getCell e c
  let e := cl.stores.foldl (fun e s => if s.done then e else store (0x100000 * c + s.addr) s.bytes e) e
  setCell c { getCell e c with stores := [] } e

/-- The item ends as aborted. A late item's cell is only freed: its abort came at the end of the usable window (R75). -/
def endAborted (c t : Nat) (e : Engine) : Engine :=
  let e := commitAll c e
  match (getCell e c).item with
  | none => e
  | some i =>
    if (getRun e i).st = .running ∧ (getRun e i).exec = c then steal c t (abortItem i (getF .SYS_CELL_STAT_CAUSE c e) t e)
    else freeCell c t e

/-- The shadow bank as the handler finds it (R108). A2 holds the budget count; above 18 bits the spec does not say what it holds. -/
def handlerBank (cl : Cell) (cause : Nat) (a2 : Scalar) : Bank :=
  let lanes := if cause = 2 then cl.trap.toNat * 16 else 0
  let s := tput 0 cl.shad.s 0 (BitVec.ofNat 18 (cause + lanes))
  let s := tput 0 s 1 (BitVec.ofNat 18 cl.prim.pc.toNat)
  { cl.shad with s := tput 0 s 2 a2, pc := cl.hentry, brs := [] }

/-- An error contained at the cell level is reported there (R19, R24): causes 1 to 3 of Table 3.6 are those of Table 1.14. A double-bit error
that fences the cell is reported at the block level alone, and a frame abort or a debug break is no error of Table 1.2. -/
def reportAbort (c cause : Nat) (e : Engine) : Engine :=
  if cause = 0 ∨ 4 ≤ cause ∨ (cause = 1 ∧ e.sched.caps.contains (.cell c 4)) then e else containNow 1 cause c e

/-- The cell takes an interrupt (R106–R110): into the handler, or to the end of the item when the program declares none. -/
def takeInterrupt (c cause t : Nat) (e : Engine) : Engine :=
  let cl := getCell e c
  let past := cause ≠ 5 ∧ limitOf cl ≤ cl.count
  let was := getF .SYS_CELL_STAT_CAUSE c e
  let e := reportAbort c cause e
  let e := if cl.trap != 0 then bumpF .SYS_CELL_CNT_TRAPS c 1 e else e
  let e := if past then bumpF .SYS_CELL_CNT_OVERRUNS c 1 e else e
  let e := setF .SYS_CELL_STAT_CAUSE c cause (if cause = 5 then e else markFault e)
  if cl.hpres then
    let p := takeFree e
    let a2 := if cl.count < 2 ^ 18 then BitVec.ofNat 18 cl.count else BitVec.ofNat 18 p.1.toNat
    let cl' := { cl with shad := handlerBank cl cause a2, handler := some cause, hcnt := 0, reti := none, trap := 0, ecc := false,
                         brk := false, frameAbort := false, wasCause := was }
    setF .SYS_CELL_STAT_STATE c 2 (setCell c cl' p.2)
  else
    endAborted c t (setCell c { cl with trap := 0, ecc := false, brk := false, frameAbort := false } e)

/-! ### Loads and stores (R85–R87, R136–R141) -/

/-- An access of an L slot. -/
structure LAcc where
  op : Nat
  addr : Nat
  reg : Nat
  post : Option (Nat × Scalar)

/-- The access of slot L0 (`which` 0) or L1; none for a no-operation or a false guard. -/
def lAcc (bk : Bank) (bundle which : Nat) : Option LAcc :=
  let slot := if which = 0 then slotL0 bundle else slotL1 bundle
  let op := field slot 19 17
  if op = 0 ∨ !guardOk bk (field slot 23 20) then none
  else
    let r := lAddress bk slot (imxFor bundle (2 + which))
    some { op := op, addr := lAlign op r.1, reg := field slot 16 12, post := r.2.map fun v => (field slot 11 9, v) }

def LAcc.isStore (a : LAcc) : Bool := a.op == 2 || a.op == 4 || a.op == 7
/-- The access falls in 0x3_0000–0x3_FFFF (R85). -/
def LAcc.out (a : LAcc) : Bool := decide (0x30000 ≤ a.addr)
def LAcc.bank (a : LAcc) : Nat := a.addr / 0x10000
def LAcc.size (a : LAcc) : Nat := if a.op = 1 ∨ a.op = 2 then 16 else if a.op = 5 then 2 else 4

/-- The bytes that a store writes. -/
def LAcc.bytes (bk : Bank) (a : LAcc) : List Byte :=
  match a.op with
  | 2 => lanes.flatMap fun l => leBytes (dReg bk l a.reg).toNat 4
  | 4 => leBytes (dReg bk 0 a.reg).toNat 4
  | _ => leBytes (sExt bk a.reg).toNat 4

/-- What a load delivers, from the bytes it read. -/
def LAcc.result (bk : Bank) (a : LAcc) (bs : List Byte) : List Dest :=
  let w := fun j => BitVec.ofNat 32 (leNat ((bs.drop (4 * j)).take 4))
  match a.op with
  | 1 => lanes.map fun l => .d (dIdx bk l a.reg) (w l)
  | 3 => lanes.map fun l => .d (dIdx bk l a.reg) (w 0)
  | 5 => lanes.map fun l => .d (dIdx bk l a.reg) (BitVec.ofNat 32 (2 ^ 16 * leNat (bs.take 2)))
  | _ => [.s a.reg (BitVec.ofNat 18 (leNat (bs.take 4)))]

/-- A load of cell `c`: the results at i + 4, and the counts of the errors it meets. An uncorrectable word delivers the interrupt in place
of the result (R106). -/
def doLoad (c : Nat) (bk : Bank) (a : LAcc) (e : Engine) : List Dest × Engine :=
  if a.out then (a.result bk (List.replicate 16 0), setF .SYS_CELL_ERR_ADDR c 1 e)
  else
    let at_ := 0x100000 * c + a.addr
    let bad := badIn e at_ a.size
    let e' := bad.foldl (meetError 0) e
    if bad.any fun g => decide (2 ≤ g.2) then ([.ecc], e') else (a.result bk (readBytes e at_ a.size), e')

/-- How many of the accesses before it fall on the bank of an access. -/
def ahead (b : Nat) (seen : List Nat) : Nat := (seen.filter (· == b)).length

/-- An access with `k` accesses of its bank ahead is served, `room` stalls being left (R114); none is unbounded. -/
def served (room : Option Nat) (k : Nat) : Bool := match room with | some r => decide (k ≤ r) | none => true

/-- The conflict stalls that the next bundle has room for before the counter is at its limit (R114); none in a debug handler, which the
budget counter does not see (R111). -/
def roomOf (cl : Cell) : Option Nat :=
  if cl.handler == some 5 then none
  else some ((if cl.handler.isSome then cl.budget else limitOf cl) - (cl.count + 1))

/-- The store commits that fall in this bundle, oldest first; also the banks that they use (R87). -/
def commitDue (c : Nat) (room : Option Nat) : List StoreWait → List Nat → Engine → Engine × List Nat
  | [], seen, e => (e, seen)
  | s :: ss, seen, e =>
    let b := s.addr / 0x10000
    let e := if served room (ahead b seen) && !s.done then store (0x100000 * c + s.addr) s.bytes e else e
    commitDue c room ss (b :: seen) e

/-- One slot load of the bundle: its results, the engine, and the banks used so far. -/
def loadSlot (c : Nat) (room : Option Nat) (bk : Bank) (a : Option LAcc) (seen : List Nat) (e : Engine) : List Dest × Engine × List Nat :=
  match a with
  | none => ([], e, seen)
  | some a =>
    if a.isStore then ([], e, seen)
    else if a.out then
      let r := doLoad c bk a e
      (r.1, r.2, seen)
    else if served room (ahead a.bank seen) then
      let r := doLoad c bk a e
      (r.1, r.2, a.bank :: seen)
    else ([], e, a.bank :: seen)

/-- The store of a slot that will commit two bundles on; an out-of-range store is discarded (R85). -/
def storeSlot (now : Nat) (bk : Bank) (a : Option LAcc) : List StoreWait :=
  match a with
  | some a => if a.isStore && !a.out then [{ due := now + 2, addr := a.addr, bytes := a.bytes bk, done := false }] else []
  | none => []

/-- An out-of-range store sets ADDR. -/
def storeOut (a : Option LAcc) : Bool := match a with | some a => a.isStore && a.out | none => false

/-- The post-modify of a slot, visible at i + 1. -/
def postOf (a : Option LAcc) : Results :=
  match a with
  | some a => (match a.post with | some p => [(1, .s p.1 p.2)] | none => [])
  | none => []

/-- Conflict stalls of a bundle (R87): banks stall in parallel. -/
def stallsOf (seen : List Nat) : Nat := [0, 1, 2].foldl (fun m b => max m (ahead b seen - 1)) 0

/-! ### Order of bundles (R143–R147) -/

/-- The end of a LOOPR body for the predicates and RBASE (R146). -/
def rotate (bk : Bank) (cnt stages : Nat) : Bank :=
  let p := (List.range 7).foldl (fun p i => tput true p (i + 1) (predOf bk i)) bk.p
  { bk with p := tput true p 0 (decide (stages - 1 < cnt)), rbase := bk.rbase - 1 }

/-- End steps of the loop levels whose body ends at `pc`, innermost first (R144, R146, R147): the levels, the bank, and the bundle that issues
next when one of them decides it. An outer level whose end issues while the inner one runs on makes its own steps; LC keeps showing the
innermost level (DEDUCED, log 130). -/
def endSteps (pc : Nat) (bk : Bank) : List LoopLevel → List LoopLevel × Bank × Option Nat
  | [] => ([], bk, none)
  | l :: ls =>
    if l.e = pc then
      let cnt := l.cnt - 1
      let bk := if l.stages = 0 then bk else rotate bk cnt l.stages
      let bk := { bk with lc := BitVec.ofNat 16 cnt }
      if cnt = 0 then
        let r := endSteps pc bk ls
        ({ l with cnt := 0 } :: r.1, r.2.1, some (r.2.2.getD ((pc + 1) % 4096)))
      else ({ l with cnt := cnt } :: ls, bk, some l.s)
    else
      let r := endSteps pc bk ls
      (l :: r.1, { r.2.1 with lc := bk.lc }, r.2.2)

/-- Index `t` lies in the body of a level. -/
def inBody (l : LoopLevel) (t : Nat) : Bool := decide ((t + 4096 - l.s) % 4096 ≤ (l.e + 4096 - l.s) % 4096)

/-- Closes the levels that a taken branch to `t` leaves (R143). -/
def leaveLoops (t : Nat) (ls : List LoopLevel) : List LoopLevel := (ls.reverse.takeWhile fun l => inBody l t).reverse

/-- LOOP or LOOPR issued at `pc` (R144–R147): the bank and the bundle that issues next. Table 3.1 gives a level's count 12 bits, while N of R144 has
16 and R146 counts N + stages − 1: the model keeps counts up to 65,535, the width of LC (DEDUCED, log 143). -/
def openLoop (bk : Bank) (pc n stages len : Nat) : Bank × Nat :=
  let s := (pc + 1) % 4096
  let e := (s + len - 1) % 4096
  if n = 0 then ({ bk with lc := 0 }, (e + 1) % 4096)
  else
    let cnt := if stages = 0 then n else min (n + stages - 1) 65535
    let open_ := bk.loops.filter fun l => l.cnt != 0
    let outer := if 2 ≤ open_.length then open_.drop 1 else open_
    ({ bk with loops := { s := s, e := e, cnt := cnt, stages := stages } :: outer, lc := BitVec.ofNat 16 cnt }, s)

/-- The bank after bundle number `now` at index `pc` with control effect `c` has issued: loop ends, loop starts, branches, and the PC. A loop
started in the bundle that is the e of an open level has both R144's back-edge and its own body next: the model takes the end steps first and then
issues the new body (DEDUCED, log 145). -/
def sequence (bk : Bank) (pc now : Nat) (c : Ctrl) : Bank :=
  let r := endSteps pc bk bk.loops
  let bk := { r.2.1 with loops := r.1 }
  let nxt := r.2.2.getD ((pc + 1) % 4096)
  let q := match c with | .loop n st len => openLoop bk pc n st len | _ => (bk, nxt)
  let bk := q.1
  let brs := match c with | .branch t => bk.brs ++ [(now + 3, t)] | _ => bk.brs
  match brs.find? fun b => b.1 == now + 1 with
  | some b => { bk with brs := brs.filter (fun x => x.1 != now + 1), loops := leaveLoops b.2 bk.loops, pc := BitVec.ofNat 12 b.2 }
  | none => { bk with brs := brs, pc := BitVec.ofNat 12 q.2 }

/-! ### Issue of a bundle (R122) -/

/-- The value that GETI writes (R150). "The bundles counted so far" do not include the bundle that holds the GETI (DEDUCED, log 146). -/
def getiOf (e : Engine) (cl : Cell) (bk : Bank) (sel : Nat) : Scalar :=
  match sel with
  | 0 => BitVec.ofNat 18 (cl.item.getD 0)
  | 1 => BitVec.ofNat 18 (frameNo e)
  | 2 => BitVec.ofNat 18 (min cl.count 0x3FFFF)
  | _ => BitVec.ofNat 18 ((bk.loops.head?.map (·.cnt)).getD 0)

/-- The word of program memory at bundle index `pc`. -/
def bundleAt (e : Engine) (c pc : Nat) : Nat := leNat (readBytes e (0x100000 * c + 0x30000 + 16 * pc) 16)

/-- Flights of a slot's results. -/
def flightsOf (now : Nat) (shadow : Bool) (r : Results) : List Flight := r.map fun p => ⟨now + p.1, shadow, p.2⟩

/-- Issues bundle word `w` on a cell that can issue: sources are read, results go in flight, stores commit, the counters advance (R86, R87,
R112, R114), and the next bundle index is found. Where the stalls of a bundle with WAITW meet the limit, R113 has the item end normally, since
WAITW issued before the limit, and R114 abandons the accesses not yet served: the model does both (DEDUCED, log 142). -/
def issueWord (c w : Nat) (e : Engine) : Engine :=
  let cl := getCell e c
  let inH := cl.handler.isSome
  let bk := if inH then cl.shad else cl.prim
  let debug := inH && !aborting cl
  let room := roomOf cl
  let pc := bk.pc.toNat
  let a0 := lAcc bk w 0
  let a1 := lAcc bk w 1
  let m := if cl.biq then [] else mResults bk (slotM w)
  let x := xResults bk cl.prim inH w
  let k := cResults bk (slotC w) (getiOf e cl bk)
  let s := commitDue c room (cl.stores.filter fun s => decide (s.due ≤ cl.now)) [] e
  let l0 := loadSlot c room bk a0 s.2 s.1
  let l1 := loadSlot c room bk a1 l0.2.2 l0.2.1
  let e := l1.2.1
  let e := if storeOut a0 || storeOut a1 then setF .SYS_CELL_ERR_ADDR c 1 e else e
  let all := stallsOf l1.2.2
  let stalls := match room with | some r => min all r | none => all
  let e := bumpF .SYS_CELL_CNT_STALLS c stalls e
  let cnt := if debug then cl.count else cl.count + 1 + stalls
  let e := if aborting cl && decide (cl.count < limitOf cl) && decide (limitOf cl ≤ cnt) then bumpF .SYS_CELL_CNT_OVERRUNS c 1 e else e
  let fl := flightsOf cl.now inH k.1 ++ flightsOf cl.now inH (postOf a1 ++ l1.1.map fun d => (4, d))
    ++ flightsOf cl.now inH (postOf a0 ++ l0.1.map fun d => (4, d)) ++ flightsOf cl.now (inH && !x.primary) x.res
    ++ flightsOf cl.now inH m
  let bk' := sequence bk pc cl.now k.2
  let dbg := bitF .SYS_CELL_STAT_DBG_EN c 0 e
  let cl' := { cl with
    prim := if inH then cl.prim else bk'
    shad := if inH then bk' else cl.shad
    flights := cl.flights ++ fl
    stores := (cl.stores.filter fun s => !decide (s.due ≤ cl.now)) ++ storeSlot cl.now bk a0 ++ storeSlot cl.now bk a1
    biq := !cl.biq && isBiq bk (slotM w)
    now := cl.now + 1
    count := cnt
    hcnt := if inH then cl.hcnt + 1 else cl.hcnt
    ended := cl.ended || decide (k.2 = .waitw)
    brk := cl.brk || (decide (k.2 = .brk) && !inH && dbg && cl.hpres)
    reti := if inH && decide (k.2 = .reti) && cl.reti.isNone then some (cl.hcnt + 1) else cl.reti }
  setCell c cl' e

/-- The bundle of a handler that pads RETI's minimum (R109) is a no-operation. -/
def padded (cl : Cell) : Bool :=
  match cl.handler, cl.reti with
  | some _, some k => decide (k + 2 ≤ cl.hcnt)
  | _, _ => false

/-- Fetches and issues the next bundle. An uncorrectable bundle fences the cell at once (R91); a correctable one is corrected. -/
def issueNext (c t : Nat) (e : Engine) : Engine :=
  let cl := getCell e c
  if padded cl then issueWord c 0 e
  else
    let pc := (if cl.handler.isSome then cl.shad else cl.prim).pc.toNat
    let at_ := 0x100000 * c + 0x30000 + 16 * pc
    if 2 ≤ eccAt e at_ then
      progDed c (at_ % 0x100000) t e
    else
      let w := bundleAt e c pc
      let e := if eccAt e at_ = 1 then cellCorrected c (at_ % 0x100000) e else e
      let e := issueWord c w e
      let cl := getCell e c
      if cl.ended && cl.handler.isSome then endAborted c t e else e

end Sys2Proof.Machine
end

