-- ==== Sys2Proof/Machine/CellEvents.lean ====
section
/-! DEFINITION. The commands of a cell's execution: bundles, results, stores, loops, interrupts, the debug break, the handler's end, and
the accesses of the DMA port and the scrubber. -/
namespace Sys2Proof.Machine

/-- One bundle issues (R122), when no interrupt, handler end or bank switch is due first. -/
def effBundleIssue (c t : Nat) (e : Engine) : Engine :=
  let e := settleCell c e
  if canIssue (getCell e c) then issueNext c t e else e

def execBundleIssue (cell t : Nat) (s : State) : Host.Outcome State Fault Refusal :=
  runLive "BUNDLE_ISSUE" (Instr.bundleIssue cell t).wf (effBundleIssue cell t) s

/-- The results due become visible (R101). -/
def effResultVisible (c : Nat) (e : Engine) : Engine :=
  if (getCell e c).ended then e else dropHeldTrap c (setCell c (landDue (getCell e c)) e)

def execResultVisible (cell : Nat) (s : State) : Host.Outcome State Fault Refusal :=
  runLive "RESULT_VISIBLE" (Instr.resultVisible cell).wf (effResultVisible cell) s

/-- The stores due, each marked as made when it is served before the counter is at its limit (R114). -/
def markDue (room : Option Nat) : List StoreWait → List Nat → List StoreWait
  | [], _ => []
  | s :: ss, seen =>
    let b := s.addr / 0x10000
    { s with done := s.done || served room (ahead b seen) } :: markDue room ss (b :: seen)

/-- Stores issued two bundles before the bundle about to issue commit (R101), those that its budget has room for (R114); after WAITW every
store commits (R113). -/
def effStoreCommit (c : Nat) (e : Engine) : Engine :=
  let cl := getCell e c
  if cl.ended then commitAll c e
  else
    let due := fun s : StoreWait => decide (s.due ≤ cl.now)
    let e := (commitDue c (roomOf cl) (cl.stores.filter due) [] e).1
    setCell c { cl with stores := markDue (roomOf cl) (cl.stores.filter due) [] ++ cl.stores.filter (fun s => !due s) } e

def execStoreCommit (cell : Nat) (s : State) : Host.Outcome State Fault Refusal :=
  runLive "STORE_COMMIT" (Instr.storeCommit cell).wf (effStoreCommit cell) s

/-- Loop levels whose LC has reached 0 close (R144). -/
def effLoopClose (c : Nat) (e : Engine) : Engine :=
  let cl := getCell e c
  setCell c { cl with prim := closeLoops cl.prim, shad := closeLoops cl.shad } e

def execLoopClose (cell : Nat) (s : State) : Host.Outcome State Fault Refusal :=
  runLive "LOOP_CLOSE" (Instr.loopClose cell).wf (effLoopClose cell) s

/-- Takes the interrupt of an aborting cause when it is the one that is due (R106). -/
def effCause (cause c t : Nat) (e : Engine) : Engine :=
  let e := settleCell c e
  if dueCause (getCell e c) = some cause then takeInterrupt c cause t e else e

def execEccDoubleBitInterrupt (cell t : Nat) (s : State) : Host.Outcome State Fault Refusal :=
  runLive "ECC_DOUBLE_BIT_INTERRUPT" (Instr.eccDoubleBitInterrupt cell t).wf (effCause 1 cell t) s

def execArithmeticTrap (cell t : Nat) (s : State) : Host.Outcome State Fault Refusal :=
  runLive "ARITHMETIC_TRAP" (Instr.arithmeticTrap cell t).wf (effCause 2 cell t) s

def execBudgetOverrun (cell t : Nat) (s : State) : Host.Outcome State Fault Refusal :=
  runLive "BUDGET_OVERRUN" (Instr.budgetOverrun cell t).wf (effCause 3 cell t) s

/-- A raised debug break enters the handler (R106, R107). -/
def effDebugBreak (c : Nat) (e : Engine) : Engine :=
  let e := settleCell c e
  if breakReady (getCell e c) then takeInterrupt c 5 0 e else e

def execDebugBreak (cell : Nat) (s : State) : Host.Outcome State Fault Refusal :=
  runLive "DEBUG_BREAK" (Instr.debugBreak cell).wf (effDebugBreak cell) s

/-- A host debug request (R149): raised on a cell that has debug enabled and whose running program declares a handler, and taken when no
branch delay is pending. In a handler it is discarded (R111). -/
def effHostDebugRequest (c : Nat) (e : Engine) : Engine :=
  let e := settleCell c e
  let cl := getCell e c
  if isF .SYS_CELL_STAT_DBG_EN c e && cl.item.isSome && !cl.ended && cl.hpres && cl.handler.isNone then
    effDebugBreak c (setCell c { cl with brk := true } e)
  else e

def execHostDebugRequest (cell : Nat) (s : State) : Host.Outcome State Fault Refusal :=
  runLive "HOST_DEBUG_REQUEST" (Instr.hostDebugRequest cell).wf (effHostDebugRequest cell) s

/-- An aborting handler ends at its 16th bundle or when the count reaches the budget (R110). -/
def effHandlerEnd (c t : Nat) (e : Engine) : Engine :=
  let e := settleCell c e
  if handlerOver (getCell e c) then endAborted c t e else e

def execHandlerEnd (cell t : Nat) (s : State) : Host.Outcome State Fault Refusal :=
  runLive "HANDLER_END" (Instr.handlerEnd cell t).wf (effHandlerEnd cell t) s

/-- RETI's bank switch (R109, R110): back to bundle A1 of the primary bank after a debug break, where a held frame abort is taken at once
unless another cause is due (R111); the end of the item otherwise. -/
def effRetiBankSwitch (c t : Nat) (e : Engine) : Engine :=
  let e := settleCell c e
  let cl := getCell e c
  if cl.handler.isSome && retiDue cl then
    if aborting cl then endAborted c t e
    else
      let pc := (sReg cl.shad 1).extractLsb' 0 12
      let e := setF .SYS_CELL_STAT_CAUSE c cl.wasCause <| setF .SYS_CELL_STAT_STATE c 1
        (setCell c { cl with handler := none, reti := none, brk := false, prim := { cl.prim with pc := pc } } e)
      if dueCause (getCell e c) = some 4 then takeInterrupt c 4 t e else e
  else e

def execRetiBankSwitch (cell t : Nat) (s : State) : Host.Outcome State Fault Refusal :=
  runLive "RETI_BANK_SWITCH" (Instr.retiBankSwitch cell t).wf (effRetiBankSwitch cell t) s

/-- A handshake of 256 FX cycles fences the cell at once, with containment cause 0x6 (R38, R117). -/
def effHandshakeTimeout (c t : Nat) (e : Engine) : Engine := fenceCellNow c 6 t e

def execHandshakeTimeout (cell t : Nat) (s : State) : Host.Outcome State Fault Refusal :=
  runLive "HANDSHAKE_TIMEOUT" (Instr.handshakeTimeout cell t).wf (effHandshakeTimeout cell t) s

/-- The code of a response as a number (Table 14.5). -/
def Resp.num : Resp → Nat
  | .done => 0
  | .nodest => 1
  | .tfail => 2
  | .poison => 3

/-- Records what a response carried. -/
def respond (m : Nat) (a : Answer) : Engine :=
  { a.e with xmem := { a.e.xmem with resp := tput (0, []) a.e.xmem.resp m (a.code.num, a.data) } }

/-- The DMA port's access to a cell's memory (R86–R90), for DMA master 0. -/
def effDmaCellAccess (c off : Nat) (wr : Bool) (data : List Byte) (len : Nat) (e : Engine) : Engine :=
  respond 32 (access e 32 (0x100000 * c + off) wr false data (if wr then data.length else len))

def execDmaCellAccess (cell off : Nat) (wr : Bool) (data : List Byte) (len : Nat) (s : State) : Host.Outcome State Fault Refusal :=
  runLive "DMA_CELL_ACCESS" (Instr.dmaCellAccess cell off wr data len).wf (effDmaCellAccess cell off wr data len) s

/-- The scrubber reads one word of a cell's memory (R91, R92): a single-bit error is rewritten, and counts as stuck when the same word
showed one on the last pass; a double-bit data error is counted; a double-bit program error fences at once. -/
def effCellScrub (c off t : Nat) (e : Engine) : Engine :=
  if fencedCell e c then e
  else
    let g := gran (0x100000 * c + off)
    let o := g % 0x100000
    match eccAt e g with
    | 0 => { e with health := { e.health with suspect := e.health.suspect.filter (· != g) } }
    | 1 =>
      let again := e.health.suspect.contains g
      let e := setEcc g 0 (cellCorrected c o e)
      if again && e.health.stuck.contains g then e
      else if again then
        let e := bumpF .SYS_CELL_ERR_STUCK c 1 { e with health := { e.health with stuck := e.health.stuck ++ [g] } }
        let th := getF .SYS_CELL_THRESH_STUCK 0 e
        if th ≠ 0 ∧ th ≤ getF .SYS_CELL_ERR_STUCK c e then dueCap (.cell c 4) e else e
      else { e with health := { e.health with suspect := e.health.suspect ++ [g] } }
    | _ =>
      if o < 0x30000 then cellDed c o e
      else fenceCellNow c 1 t (lastErr c o true (setF .SYS_CELL_ERR_PROG_DED c 1 e))

def execCellScrub (cell off t : Nat) (s : State) : Host.Outcome State Fault Refusal :=
  runLive "CELL_SCRUB" (Instr.cellScrub cell off t).wf (effCellScrub cell off t) s

end Sys2Proof.Machine
end

