-- ==== Sys2Proof/Machine/Dma.lean ====
section
/-! DEFINITION. The DMA engine: transfer chains, bound addresses and packing conversions (R155, R156, R169, R309, Table 5.7). -/
namespace Sys2Proof.Machine

/-- A PACK code that `DEF_ITEM` accepts (R309). -/
def packValid (p : Nat) : Bool :=
  p == 0 || (p % 4 == 0 && p / 16 != 0 && !(p / 8 % 2 == 1 && p / 4 % 2 == 1) && decide (p < 64))

/-- The 24-bit value of a Q1.31 word (Table 9.7). -/
def pack24 (rnd : Bool) (x : Int) : Int := if rnd then (satTo 24 (rne x 8)).1 else x / 256

/-- A 24-bit value in a FORM: tight, MSB-justified, or right-justified. -/
def formBytes (form : Nat) (v : Int) : List Byte :=
  match form with
  | 1 => leBytes (v % 2 ^ 24).toNat 3
  | 2 => leBytes ((v * 256) % 2 ^ 32).toNat 4
  | _ => leBytes (v % 2 ^ 32).toNat 4

/-- The 24-bit value that a FORM holds in a sample's bytes. -/
def formValue (form : Nat) (bs : List Byte) : Int :=
  match form with
  | 1 => signed 24 (leNat (bs.take 3))
  | 2 => signed 24 (leNat (bs.take 4) / 256)
  | _ => signed 24 (leNat (bs.take 4))

/-- Bytes of one sample in a FORM. -/
def formSize (form : Nat) : Nat := if form = 1 then 3 else 4

/-- `n` samples of a byte stream packed into a FORM. -/
def packStream (form : Nat) (rnd : Bool) (bs : List Byte) : Nat → List Byte
  | 0 => []
  | n + 1 => formBytes form (pack24 rnd (signed 32 (leNat (bs.take 4)))) ++ packStream form rnd (bs.drop 4) n

/-- `n` samples of a FORM unpacked into Q1.31 words. -/
def unpackStream (form : Nat) (bs : List Byte) : Nat → List Byte
  | 0 => []
  | n + 1 => leBytes ((formValue form bs * 256) % 2 ^ 32).toNat 4 ++ unpackStream form (bs.drop (formSize form)) n

/-- Source bytes of an entry, and what its source becomes at the destination: LEN counts destination bytes (R309). -/
def srcLen (pack len : Nat) : Nat :=
  let form := pack / 16
  if pack = 0 then len
  else if pack / 8 % 2 = 0 then ceilDiv len (formSize form) * 4
  else ceilDiv len 4 * formSize form

def converted (pack len : Nat) (bs : List Byte) : List Byte :=
  let form := pack / 16
  if pack = 0 then bs
  else if pack / 8 % 2 = 0 then (packStream form (pack / 4 % 2 == 1) bs (ceilDiv len (formSize form))).take len
  else (unpackStream form bs (ceilDiv len 4)).take len

/-- Runs the entries of DMA item `i` on channel `ch` in order, up to the first error response (R155, R156, Table 5.7). A write into the
window of the fenced cell that its fed item was bound to is discarded and aborts nothing (R169). Answers whether an error came. -/
def runEntries (i ch : Nat) : List Quad → Engine → Bool × Engine
  | [], e => (false, e)
  | x :: xs, e =>
    let m := 32 + ch / 4
    let fed := dFed (admItem e i)
    let src := match xBind x with
      | 2 => (getRun e (xNamed x)).ran.map fun c => 0x100000 * c + xSrc x
      | _ => some (xSrc x)
    let dst := match xBind x with
      | 1 => 0x100000 * (getRun e fed).exec + xDst x
      | _ => xDst x
    match src with
    | none => runEntries i ch xs e
    | some src =>
      let n := srcLen (xPack x) (xLen x)
      let r := readAll e m src n (n / 512 + 2)
      if r.code ≠ .done then (true, r.e)
      else
        let data := converted (xPack x) (xLen x) r.data
        let w := writeAll r.e m dst data (data.length / 512 + 2)
        let spared := xBind x == 1 && e.sched.orphans.contains fed && fencedCell e ((getRun e fed).exec)
        if w.code ≠ .done ∧ !spared then (true, w.e) else runEntries i ch xs w.e

/-- A DMA item runs its chain on channel `ch`. -/
def runDma (i ch : Nat) (e : Engine) : Engine :=
  let r := runEntries i ch (itemTransfers e i) e
  if r.1 then setRun i { getRun r.2 i with err := true } r.2 else r.2

end Sys2Proof.Machine
end

