-- ==== Sys2Proof/Machine/SchedEvents.lean ====
section
/-! DEFINITION. The scheduler's commands: dispatch, prefetch, the start of items on cells, and errors and fences of the other executors
(chapter 5, R27, R28). -/
namespace Sys2Proof.Machine

/-- The bin of a wait (R175). -/
def waitBin (w : Nat) : Nat := if w < 64 then 0 else min 15 (Nat.log2 (w / 32))

/-- Records an item's wait, from its release to its first bundle or unit of work (R175). -/
def countWait (i t : Nat) (e : Engine) : Engine :=
  bumpF .SCHED_HIST_COUNT (16 * dPrio (admItem e i) + waitBin (t - (getRun e i).relAt)) 1 e

/-- Assigns item `i` to executor `x` (R159, R163): a cell is held until the item starts; another executor starts its work. The entry that the
item leaves goes to the overflow before the feeders are released (R162). -/
def assign (i x t : Nat) (e : Engine) : Engine :=
  let d := admItem e i
  if dKind d = 0 then
    let e := setRun i { getRun e i with st := .held, exec := x } e
    bindFed i t (refill (setCell x { getCell e x with from_ := t } e))
  else
    let e := countWait i t (refill (setRun i { getRun e i with st := .running, exec := x, startAt := t } e))
    if dKind d = 3 then runDma i x e else e

/-- The lowest-numbered idle executor that can take an item. -/
def idleFor (e : Engine) (i : Nat) : Option Nat :=
  let d := admItem e i
  if blockedItem e i then none else (partOf e d).find? (idleExec e (dKind d))

/-- The first item of a list that an idle executor can take, with that executor. -/
def firstPair (e : Engine) : List Nat → Option (Nat × Nat)
  | [] => none
  | i :: is => match idleFor e i with
    | some x => some (i, x)
    | none => firstPair e is

/-- Heads of overflow lists whose partition has no entry in the heap (R162). -/
def directHeads (e : Engine) : List Nat :=
  (overflowHeads e [] e.sched.overflow).filter fun i =>
    !((inState e .queued).any fun j => samePart e (admItem e j) (admItem e i))

/-- Pairs waiting items with idle executors in key order (R162, R163), at most `n` of them. -/
def pairAll (t : Nat) : Nat → Engine → Engine
  | 0, e => e
  | n + 1, e =>
    match firstPair e (sortKey e (inState e .queued)) with
    | some (i, x) => pairAll t n (assign i x t e)
    | none =>
      match firstPair e (sortKey e (directHeads e)) with
      | some (i, x) => pairAll t n (assign i x t { e with sched := { e.sched with overflow := e.sched.overflow.filter (· != i) } })
      | none => e

/-- The first item of a list for which a running cell of its partition has an empty slot, with that cell. -/
def firstSlot (e : Engine) : List Nat → Option (Nat × Nat)
  | [] => none
  | i :: is =>
    if dKind (admItem e i) ≠ 0 then firstSlot e is
    else match emptySlots e (admItem e i) with
      | c :: _ => some (i, c)
      | [] => firstSlot e is

/-- Fills the empty prefetch slots of running cells, the lowest key to the lowest-numbered cell (R165), at most `n` of them. -/
def fillSlots (t : Nat) : Nat → Engine → Engine
  | 0, e => e
  | n + 1, e =>
    match firstSlot e (sortKey e (inState e .queued)) with
    | some (i, c) => fillSlots t n (toSlot i c t e)
    | none => e

/-- The first item of a list that finds no idle cell and no empty slot but recalls a slot item, with that item. -/
def firstRecall (e : Engine) : List Nat → Option (Nat × Nat)
  | [] => none
  | i :: is =>
    let d := admItem e i
    if dKind d ≠ 0 ∨ (partOf e d).any (idleCell e) ∨ !(emptySlots e d).isEmpty then firstRecall e is
    else match recallFor e i with
      | some j => some (i, j)
      | none => firstRecall e is

/-- Items released together, of which the idle cells took but some, recall in key order (R167), at most `n` of them. -/
def recallAll (t : Nat) : Nat → Engine → Engine
  | 0, e => e
  | n + 1, e =>
    match firstRecall e (sortKey e (inState e .queued)) with
    | some (i, j) => recallAll t n (recallItem i j t e)
    | none => e

/-- Cells that the pairing leaves idle steal, the lowest-numbered first (R163, R168). -/
def stealAll (t : Nat) (e : Engine) : Engine :=
  if (inState e .slot).isEmpty then e else (List.range 256).foldl (fun e c => if idleCell e c then steal c t e else e) e

/-- The scheduler's pairing step. -/
def effDispatch (t : Nat) (e : Engine) : Engine :=
  if !e.sched.first then e
  else
    let n := (inState e .queued).length + e.sched.overflow.length
    refreshDepth (stealAll t (recallAll t n (fillSlots t n (pairAll t n e))))

def execDispatch (t : Nat) (s : State) : Host.Outcome State Fault Refusal :=
  runLive "DISPATCH" (Instr.dispatch t).wf (effDispatch t) s

/-- The first dispatch of the frame, 4 µs after the tick (R157). -/
def effFirstDispatch (t : Nat) (e : Engine) : Engine :=
  if e.sched.running && !e.sched.first then effDispatch t { e with sched := { e.sched with first := true } } else e

def execFirstDispatch (t : Nat) (s : State) : Host.Outcome State Fault Refusal :=
  runLive "FIRST_DISPATCH" (Instr.firstDispatch t).wf (effFirstDispatch t) s

/-- The item that a free cell starts next: the one it is held for, else its slot item (R159, R166). -/
def nextItem (e : Engine) (c : Nat) : Option Nat :=
  if (getCell e c).item.isSome then none
  else
    match (e.sched.run.find? fun p => decide (p.2.st = .held) && p.2.exec == c && dKind (admItem e p.1) == 0).map (·.1) with
    | some i => some i
    | none => slotOf e c

/-- The cell resets both banks, reads the program header and is ready to issue the first bundle (R83, R112, R125). -/
def startItem (i c t : Nat) (e : Engine) : Engine :=
  let d := admItem e i
  let entry := dEntry d % 4096
  let at_ := 0x100000 * c + 0x30000 + 16 * (entry - 1)
  let from_ := (getCell e c).from_
  let e := countWait i t e
  let e := setRun i { getRun e i with st := .running, exec := c, startAt := t, ran := some c } e
  let h := bundleAt e c (entry - 1)
  let bk := Bank.start (BitVec.ofNat 18 (dArg d)) (BitVec.ofNat 12 entry)
  let e := setCell c { Cell.idle with
    prim := bk, shad := bk, item := some i, budget := dBudget d, hentry := BitVec.ofNat 12 (field h 118 107),
    hpres := field h 106 106 == 1, dshared := BitVec.ofNat 3 (field h 105 103), trapen := dTrapEn d, from_ := from_,
    busy := (getCell e c).busy } e
  let e := setF .SYS_CELL_STAT_STATE c 1 (setF .SYS_CELL_STAT_ITEM c i e)
  if 2 ≤ eccAt e at_ then progDed c (at_ % 0x100000) t e
  else if eccAt e at_ = 1 then cellCorrected c (at_ % 0x100000) e
  else e

/-- Starts the item that the free cell `c` holds when it is (`fed`) or is not fed by DMA items, all its feeders complete. -/
def startHeld (fed : Bool) (c t : Nat) (e : Engine) : Engine :=
  match nextItem e c with
  | some i =>
    if (dFeeds (admItem e i) != 0) == fed && (getRun e i).fc == 0 && !fencedCell e c && !blockedItem e i then startItem i c t e else e
  | none => e

def effItemStart (c t : Nat) (e : Engine) : Engine := startHeld false c t e
def effFedItemStart (c t : Nat) (e : Engine) : Engine := startHeld true c t e

def execItemStart (cell t : Nat) (s : State) : Host.Outcome State Fault Refusal :=
  runLive "ITEM_START" (Instr.itemStart cell t).wf (effItemStart cell t) s

def execFedItemStart (cell t : Nat) (s : State) : Host.Outcome State Fault Refusal :=
  runLive "FED_ITEM_START" (Instr.fedItemStart cell t).wf (effFedItemStart cell t) s

/-- An error response or poisoned read aborts a running item of a kind other than cell, with cause 0x6 (R171, Table 5.7). A DMA item is
aborted when an access of its chain met one. -/
def effExecutorErrorResponse (i t : Nat) (e : Engine) : Engine :=
  let r := getRun e i
  let k := dKind (admItem e i)
  if r.st = .running ∧ k ≠ 0 ∧ (k = 3 → r.err) then abortItem i 6 t e else e

def execExecutorErrorResponse (item t : Nat) (s : State) : Host.Outcome State Fault Refusal :=
  runLive "EXECUTOR_ERROR_RESPONSE" (Instr.executorErrorResponse item t).wf (effExecutorErrorResponse item t) s

/-- The item that runs on a summing unit or DMA channel. -/
def runningOn (e : Engine) (k x : Nat) : Option Nat :=
  (e.sched.run.find? fun p => decide (p.2.st = .running) && p.2.exec == x && dKind (admItem e p.1) == k).map (·.1)

/-- The third cause of R27: an item has run past four times its item time. The executor is fenced at once, with containment cause 0xD. -/
def effExecutorStallFence (dma : Bool) (u t : Nat) (e : Engine) : Engine :=
  match runningOn e (if dma then 3 else 1) u with
  | none => e
  | some i =>
    if (if dma then fencedDma e u else fencedSum e u) then e
    else
      let e := if dma then markDma u e else markSum u e
      abortItem i 7 t (containNow 4 0xD (execIdent dma u) e)

def execExecutorStallFence (dma : Bool) (unit t : Nat) (s : State) : Host.Outcome State Fault Refusal :=
  runLive "EXECUTOR_STALL_FENCE" (Instr.executorStallFence dma unit t).wf (effExecutorStallFence dma unit t) s

/-- An uncorrectable state error or an internal parity error of a summing unit or DMA channel (R27): the fourth in the hour fences it at
the next boundary, with cause 0x4. -/
def effExecutorStateError (dma : Bool) (u : Nat) (e : Engine) : Engine :=
  let k := if dma then 32 + u else u
  let n := tget 0 e.health.unitErr k + 1
  let e := { e with health := { e.health with unitErr := tput 0 e.health.unitErr k n } }
  if n = 4 then dueCap (if dma then .dma u 4 else .sum u 4) e else e

def execExecutorStateError (dma : Bool) (unit : Nat) (s : State) : Host.Outcome State Fault Refusal :=
  runLive "EXECUTOR_STATE_ERROR" (Instr.executorStateError dma unit).wf (effExecutorStateError dma unit) s

end Sys2Proof.Machine
end

