-- ==== Sys2Proof/Machine/Routing.lean ====
section
/-! DEFINITION. Signals and sinks (chapter 6): the samples that a source carries, the rate domain of a signal, and what a sink carries at
each sample position as its routes change. -/
namespace Sys2Proof.Machine

def getSink (e : Engine) (t : Nat) : Sink := tget Sink.silent e.mix.sinks t
def setSink (t : Nat) (k : Sink) (e : Engine) : Engine :=
  { e with mix := { e.mix with sinks := tput Sink.silent e.mix.sinks t k } }

/-- The rate domain of a sink (Table 6.2); a tap takes its source's. -/
def sinkDom (e : Engine) (t : Nat) : Nat × Nat :=
  if t < 0x1000 then tget (0, 0) e.mix.txDom t
  else if t < 0x1800 then portDom e t
  else if t < 0x2000 then (0, 0)
  else if t < 0x3000 then (tget 0 e.mix.stripDom (t - 0x2000), 0)
  else if 0x3100 ≤ t ∧ t < 0x3200 then bridgeDom e (t - 0x3100) false
  else if 0x3200 ≤ t then sourceDom e (getSink e t).cur
  else (0, 0)

/-- A source may be joined to a sink (R182). -/
def joins (e : Engine) (s t : Nat) : Bool :=
  s == 0x3FFF || (decide (0x3200 ≤ t) && decide (t < 0x3400)) || sourceDom e s == sinkDom e t

/-! ### Samples -/

/-- `n` samples of memory from `a`. -/
def wordsAt (e : Engine) (a : Nat) : Nat → List Int
  | 0 => []
  | n + 1 => signed 32 (read32 e a) :: wordsAt e (a + 4) n

/-- The address of sample 0 of frame `n` in the ring of fabric receive channel `r` (R382): 512 bytes, in frames of F words. -/
def fabRing (e : Engine) (r n : Nat) : Nat :=
  0x20300000 + 0x200 * r + n % (128 / frameLen e) * frameLen e * 4

/-- The samples that a source carries in the frame in progress (R181, R285, R382). -/
def samplesOf (e : Engine) (s : Nat) : List Int :=
  if s = 0x3FFF then List.replicate (frameLen e) 0
  else if (getConc e s).now then getSig e s
  else if 0x1000 ≤ s ∧ s < 0x1540 then
    let d := portDom e s
    wordsAt e (inBuf s) (if d.1 = 2 then min 248 (read32 e (inBuf s + 1020)) else domLen e d.1)
  else if 0x1800 ≤ s ∧ s < 0x2000 then wordsAt e (fabRing e (s - 0x1800) (frameNo e)) (frameLen e)
  else
    let ys := getSig e s
    if ys.isEmpty then List.replicate (domLen e (sourceDom e s).1) 0 else ys

/-- A source's sample at a position; a position beyond the samples delivered carries 0. -/
def sampleAt (e : Engine) (s k : Nat) : Int := (samplesOf e s).getD k 0

/-- The last sample of a source in the previous frame: the ring of a fabric receive channel still holds it (R382). -/
def prevOf (e : Engine) (s : Nat) : Int :=
  if s = 0x3FFF then 0
  else if 0x1800 ≤ s ∧ s < 0x2000 ∧ frameNo e ≠ 0 ∧ !(getConc e s).now then
    signed 32 (read32 e (fabRing e (s - 0x1800) (frameNo e - 1) + 4 * (frameLen e - 1)))
  else tget 0 e.mix.prevSrc s

/-- A zero crossing at a sample, given the sample before it (R185). -/
def crosses (before now : Int) : Bool := decide (now = 0) || (decide (before < 0) && decide (0 < now)) || (decide (0 < before) && decide (now < 0))

/-- The engine as a sink sees its sources: a strip's route that closes a cycle carries their samples of the previous frame (R59). -/
def seenBy (e : Engine) (t : Nat) : Engine :=
  if isStripSource t && e.mix.cyc.contains t then { e with mix := { e.mix with sig := e.mix.prevSig } } else e

/-- The current source of a sink has a zero crossing at sample `k` of the frame (R185). -/
def sourceCrosses (e : Engine) (t k : Nat) : Bool :=
  let s := (getSink e t).cur
  let v := seenBy e t
  let before := if isStripSource t && e.mix.cyc.contains t then (getSink e t).last else prevOf e s
  s == 0x3FFF || crosses (if k = 0 then before else sampleAt v s (k - 1)) (sampleAt v s k)

/-- A source is declared lost; the sinks act at the next frame boundary (R189). -/
def declareLost (s : Nat) (e : Engine) : Engine :=
  if isLost e s then e
  else { e with mix := { e.mix with lost := e.mix.lost ++ [s], newLost := e.mix.newLost ++ [s] } }

/-- A source is free of its loss again. -/
def declareFound (s : Nat) (e : Engine) : Engine := { e with mix := { e.mix with lost := e.mix.lost.filter (· != s) } }

/-! ### What a sink carries (R183–R190) -/

/-- Fade lengths by LEN (Table 6.16). -/
def fadeLen (code : Nat) : Nat := [32, 128, 512, 2048].getD code 32

/-- 1 as Q1.31 gains hold it (R187). -/
def q31One : Int := 2 ^ 31 - 1

/-- The gains of the outgoing and incoming source at position `k` of a fade of `n` samples (Table 6.3). The equal-power gains lie in their
accuracy band of 2^-24. -/
def fadeGains (mode k n : Nat) : Int × Int :=
  if n ≤ k + 1 then (0, q31One)
  else if mode = 2 then
    let s := roundDiv (sinQuarter (k + 1) n) (2 ^ 33)
    let c := roundDiv (cosQuarter (k + 1) n) (2 ^ 33)
    (clamp 0 q31One (within 4 (4096 * k + n : Nat) c 128), clamp 0 q31One (within 3 (4096 * k + n : Nat) s 128))
  else (min q31One ((2 ^ 31 * (n - k - 1) / n : Nat) : Int), min q31One ((2 ^ 31 * (k + 1) / n : Nat) : Int))

/-- The mix of the two sides of a fade (R187). -/
def fadeMix (g : Int × Int) (a b : Int) : Int := satQ31 (rne (g.1 * a + g.2 * b) 31)

/-- A side of a move in FBFADE. -/
def feedAt (e : Engine) (f : Feed) (k : Nat) : Int := match f with | .const v => v | .src s => sampleAt e s k

/-- Adds a number to a list that does not hold it. -/
def addOnce (s : Nat) (l : List Nat) : List Nat := if l.contains s then l else l ++ [s]

/-- The sources that a sink reads under its state. -/
def sinkReads (k : Sink) : List Nat :=
  let of := fun f : Feed => match f with | .const _ => [] | .src s => [s]
  match k.st with
  | .steady | .zcwait => [k.cur]
  | .fade => [k.out, k.cur]
  | .fbfade => of k.fromF ++ of k.toF
  | .fbact => [k.carry]

/-- The next sample position of a sink: the value carried under its state, and the advance of its position. -/
def sinkStep (e : Engine) (k : Sink) : Sink :=
  let j := k.y.length
  let k := { k with used := (sinkReads k).foldl (fun l s => addOnce s l) k.used }
  match k.st with
  | .steady => { k with y := k.y ++ [sampleAt e k.cur j] }
  | .zcwait => { k with y := k.y ++ [sampleAt e k.cur j], pos := k.pos + 1 }
  | .fade =>
    { k with y := k.y ++ [fadeMix (fadeGains k.mode k.pos (fadeLen k.len)) (sampleAt e k.out j) (sampleAt e k.cur j)], pos := k.pos + 1 }
  | .fbfade =>
    { k with y := k.y ++ [fadeMix (fadeGains 1 k.pos 32) (feedAt e k.fromF j) (feedAt e k.toF j)], pos := k.pos + 1 }
  | .fbact => { k with y := k.y ++ [sampleAt e k.carry j] }

/-- Carries a sink on by `n` sample positions. -/
def sinkRun (e : Engine) : Nat → Sink → Sink
  | 0, k => k
  | n + 1, k => sinkRun e n (sinkStep e k)

/-- Carries sink `t`, as it stands in `k`, on up to position `n` of the frame. -/
def sinkTo (e : Engine) (t n : Nat) (k : Sink) : Sink := sinkRun (seenBy e t) (n - k.y.length) k

/-- The samples of a frame of a sink (R77, R184): F in H, k·F in D; in a Foreign domain those that CUR delivers, and where it delivers none
there, as silence and a lost port do, those of the domain. -/
def sinkLen (e : Engine) (t : Nat) : Nat :=
  let d := sinkDom e t
  let s := (getSink e t).cur
  let n := if s = 0x3FFF ∨ isLost e s then 0 else (samplesOf e s).length
  if d.1 = 2 ∧ n ≠ 0 then n else spanOf e d

/-- The rate of a domain in Hz, for timeouts (R184). -/
def domHz (e : Engine) (d : Nat × Nat) : Nat :=
  if d.1 = 2 then nomHz (getF .ROUTE_FN_CFG_NOM d.2 e)
  else if d.1 = 1 then houseHz e * 2 ^ getF .ROUTE_CFG_DRATIO 0 e else houseHz e

/-- The rate of a sink's domain in Hz. -/
def sinkHz (e : Engine) (t : Nat) : Nat := domHz e (sinkDom e t)

/-- The source that a sink is routed to: that of its pending request, else the one that it carries. -/
def routedTo (k : Sink) : Nat := match k.pend with | some r => r.src | none => k.cur

/-! ### Requests (R186–R190, R508) -/

/-- A route request ends with a status: event 0x0203 when NOTIFY is set or the status is 0x0309 or 0x030A (R264). -/
def endReq (t : Nat) (status : Nat) (r : Option Req) (e : Engine) : Engine :=
  match r with
  | some r => if r.notify || status != 0 then postEvent 0x0203 [2 ^ 32 * r.tag + 2 ^ 16 * t + status] e else e
  | none => e

/-- The sink starts a change from `old` to the request's source at its next sample position (R186, R187). -/
def startChange (old : Nat) (r : Req) (k : Sink) : Sink :=
  if r.mode = 0 then { k with st := .zcwait, cur := old, out := 0x3FFF, pend := some r, act := none, mode := 0, len := 0, pos := 0 }
  else { k with st := .fade, out := old, cur := r.src, pend := none, act := some r, mode := r.mode, len := r.len, pos := 0 }

/-- A route request acts on a sink (Table 6.4). -/
def requestRoute (t : Nat) (r : Req) (e : Engine) : Engine :=
  let k := getSink e t
  match k.st with
  | .steady => if r.src = k.cur then endReq t 0 (some r) e else setSink t (startChange k.cur r k) e
  | .zcwait => setSink t (startChange k.cur r k) (endReq t 0x0309 k.pend e)
  | .fade => setSink t { k with pend := some r } (endReq t 0x0309 k.pend e)
  | .fbact => setSink t (startChange k.carry r { k with curLost := false, curConc := 0, curTaint := false, curClean := 0, fbClean := 0, newFb := false }) e
  | .fbfade => setSink t { k with pend := some r } (endReq t 0x0309 k.pend e)

/-- The sink starts a move in FBFADE (R190, R192, R193, R508). -/
def startMove (a b : Feed) (after : SinkSt) (k : Sink) : Sink :=
  { k with st := .fbfade, out := 0x3FFF, act := none, mode := 1, len := 0, pos := 0, fromF := a, toF := b, after := after }

/-- The source of a move's new side. -/
def feedSrc : Feed → Nat
  | .src s => s
  | .const _ => 0x3FFF

/-- Event 0x0201 of a takeover (1), fallback loss (2), reversion (3) or fallback return (4) (R194). -/
def fbEvent (t kind : Nat) (e : Engine) : Engine := postEvent 0x0201 [2 ^ 48 * t + 2 ^ 40 * kind] e

/-- The takeover of a sink whose current source is declared lost (R190): requests end pre-empted, and the sink moves from its last sample
to FB. -/
def takeFallback (t : Nat) (e : Engine) : Engine :=
  let k := getSink e t
  let e := endReq t 0x030A k.pend (endReq t 0x030A k.act e)
  let e := setSink t (startMove (.const k.last) (.src k.fb) .fbact
    { k with pend := none, curLost := true, curConc := 0, curTaint := k.concN != 0 && decide (k.concN ≤ k.conc.run), curClean := 0, fbClean := 0
             conc := { k.conc with now := false } }) e
  fbEvent t 1 (bumpF .ROUTE_STAT_FB_SWITCHES 0 1 e)

/-- The carried fallback is lost (R192): a fade from the last sample to silence. -/
def loseFallback (t : Nat) (e : Engine) : Engine :=
  let k := getSink e t
  fbEvent t 2 (setSink t (startMove (.const k.last) (.src 0x3FFF) .fbact { k with fbClean := 0, conc := { k.conc with now := false } }) e)

/-- `REVERT_HOLD` has passed when the frame in progress ends, after `n` whole frames (R192, R193, Table 6.9). -/
def holdOver (e : Engine) (n : Nat) : Bool :=
  let f := frameTime e
  decide (100000000 * getF .ROUTE_CFG_REVERT_HOLD 0 e * f.2 ≤ (n + 1) * f.1)

/-- The loss causes of Table 6.5 for CUR and FB of a sink that carries its fallback, at the end of a frame in which CUR's and FB's values were
concealed or not: the concealment cause holds for CUR once CONC_N such frames have come in a row, until `REVERT_HOLD` has passed without one
(R192, R193). -/
def judgeCauses (e : Engine) (curBad fbBad : Bool) (k : Sink) : Sink :=
  let inFb := decide (k.st = .fbact) || decide (k.st = .fbfade)
  let on := k.concN != 0
  let run := if curBad then k.curConc + 1 else 0
  let clean := if !inFb || (on && curBad) || isLost e k.cur then 0 else min (k.curClean + 1) (2 ^ 20)
  { k with
    curConc := run, curClean := clean
    curTaint := inFb && ((on && decide (k.concN ≤ run)) || (k.curTaint && !holdOver e clean))
    fbClean := if !inFb || k.fb == 0x3FFF || (on && fbBad) || isLost e k.fb then 0 else min (k.fbClean + 1) (2 ^ 20) }

/-- The end of a move: FBACT with the new side, or STEADY on CUR; then a request that waits starts, or the move to a new FB, which after a move
back to CUR starts from CUR (R508). With both waiting the request starts, and the new FB stands for later takeovers (DESIGN CHOICE,
log 136). -/
def endMove (t : Nat) (e : Engine) : Engine :=
  let k := getSink e t
  let k := { k with st := k.after, pos := 0, carry := feedSrc k.toF, mode := 0, len := 0 }
  match k.pend with
  | some r =>
    let e := setSink t { k with pend := none, newFb := false } e
    requestRoute t r e
  | none =>
    if k.newFb then setSink t (startMove (.src (if k.st = .fbact then k.carry else k.cur)) (.src k.fb) .fbact { k with newFb := false }) e
    else setSink t k e

/-- The end of a fade (R187, R188): STEADY on the new source, and the request that waits starts. -/
def endFade (t : Nat) (e : Engine) : Engine :=
  let k := getSink e t
  let e := endReq t 0 k.act e
  let k' := { k with st := .steady, out := 0x3FFF, act := none, pend := none, mode := 0, len := 0, pos := 0 }
  let e := setSink t k' e
  match k.pend with
  | some r => requestRoute t r e
  | none => e

/-- A `FALLBACK` record acts at its apply frame (R508). -/
def setFallback (t fb : Nat) (revert : Bool) (n : Nat) (e : Engine) : Engine :=
  let k := getSink e t
  let changed := k.fb != fb
  let k := { k with fb := fb, revert := revert, concN := n }
  match k.st with
  | .fbact => setSink t (if changed then startMove (.src k.carry) (.src fb) .fbact k else k) e
  | .fbfade => setSink t (if changed then { k with newFb := true } else k) e
  | _ => setSink t k e

/-- CUR is declared lost at this boundary: its source since the last one, or the sink's concealment count reached (Table 6.5). A source that was
declared lost before it became CUR makes no takeover: the spec speaks of the declaration alone (DESIGN CHOICE, log 137). -/
def curGone (e : Engine) (k : Sink) : Bool :=
  e.mix.newLost.contains k.cur || (k.concN != 0 && decide (k.concN ≤ k.conc.run))

/-- The sinks' reaction to losses at a frame boundary (R189–R193). -/
def judgeSink (e : Engine) (t : Nat) : Engine :=
  let k := getSink e t
  let fb := decide (k.st = .fbact) || (decide (k.st = .fbfade) && decide (k.after = .fbact))
  if fb then
    let e := if k.curLost && !isLost e k.cur && !k.curTaint then
        postEvent 0x0202 [2 ^ 48 * t] (setSink t { k with curLost := false } e)
      else if !k.curLost && (e.mix.newLost.contains k.cur || k.curTaint) then setSink t { k with curLost := true } e
      else e
    let gone := isLost e k.carry || (k.concN != 0 && decide (k.concN ≤ k.conc.run))
    if k.st = .fbact ∧ k.carry ≠ 0x3FFF ∧ gone then loseFallback t e else e
  else if k.fb ≠ 0x3FFF ∧ curGone e k then takeFallback t e
  else e

/-- The start of a frame for a sink: the last sample of the ended frame is kept as `last`; a sink concealed in that frame keeps its
concealed last sample, from which a fallback move starts (R190). -/
def rollSink (k : Sink) : Sink :=
  { k with last := if k.conc.now then k.z.getLastD k.last else k.y.getLastD k.last, y := [], z := [], used := [] }

/-- The sources whose samples may be read. -/
def activeSources (e : Engine) : List Nat :=
  (e.mix.sig.map (·.1)) ++ (e.mix.sinks.flatMap fun p => [p.2.cur, p.2.out, p.2.fb, p.2.carry])
    ++ (e.sched.adm.sends.flatMap fun p => p.2.map sendSrc)
    ++ (e.mix.feeds.filterMap fun p => p.2.map (·.talk))

/-- The last samples of the frame that ends become the previous samples (R185). -/
def rollPrev (e : Engine) : Engine :=
  { e with mix := { e.mix with
      prevSrc := (activeSources e).foldl (fun t s => tput 0 t s ((samplesOf e s).getLastD 0)) e.mix.prevSrc
      accPrev := e.mix.accLast } }

/-- The frame rolls for sources and sinks. Called before the signals of the frame that ends are dropped. -/
def rollFrame (e : Engine) : Engine :=
  let e := rollPrev e
  (e.mix.sinks.map fun p => p.1).foldl (fun e t => setSink t (rollSink (getSink e t)) e) e

/-- Losses are judged, in ascending sink number. -/
def judgeSinks (e : Engine) : Engine :=
  let e := (e.mix.sinks.map fun p => p.1).foldl judgeSink e
  { e with mix := { e.mix with newLost := [] } }

end Sys2Proof.Machine
end

