-- ==== Sys2Proof/Machine/Mixing.lean ====
section
/-! DEFINITION. Gain points, the summing engine, mix-minus feeds and the final limiter (R207–R227, R240). -/
namespace Sys2Proof.Machine

/-! ### Gain points (R219–R226) -/

def getGp (e : Engine) (i : Nat) : Gp := tget Gp.unity e.mix.gps i
def setGp (i : Nat) (p : Gp) (e : Engine) : Engine := { e with mix := { e.mix with gps := tput Gp.unity e.mix.gps i p } }

/-- A send gain point (Table 7.3). -/
def isSendGp (i : Nat) : Bool := decide (i < 0x100000)
/-- A bus master. -/
def isMaster (i : Nat) : Bool := decide (0x100000 ≤ i) && decide (i < 0x100100)

/-- The ramp length in samples (R225). -/
def gpRamp (e : Engine) (i : Nat) : Nat :=
  let p := getGp e i
  if isSendGp i || p.ramp == 0 then getF .SUM_GP_CFG_RAMP 0 e else p.ramp

/-- The rate of a gain point's domain. -/
def gpHz (e : Engine) (i : Nat) : Nat :=
  let b := (getGp e i).bind
  if b = 0xFFFF then houseHz e else sinkHz e b

/-- The samples of a frame of a gain point's domain (R220, R224). -/
def gpLen (e : Engine) (i : Nat) : Nat :=
  let b := (getGp e i).bind
  if b = 0xFFFF then frameLen e else sinkLen e b

/-- TO in samples (R224, R225). -/
def gpTimeout (e : Engine) (i : Nat) : Nat :=
  let p := getGp e i
  let t := if isSendGp i || p.timeout == 0 then getF .SUM_GP_CFG_TIMEOUT 0 e else p.timeout
  (roundDiv ((t * gpHz e i : Nat) : Int) 2000).toNat

/-- The next sample position of a gain point: the gain, and the advance of its position (Table 7.5). -/
def gpStep (r : Nat) (p : Gp) : Gp :=
  match p.st with
  | .steady => { p with traj := p.traj ++ [p.g] }
  | .zcwait => { p with traj := p.traj ++ [p.g], pos := p.pos + 1 }
  | .ramp =>
    let g := if r ≤ p.pos + 1 then p.t else (rneDiv ((p.g0 : Int) * r + ((p.t : Int) - p.g0) * ((p.pos + 1 : Nat) : Int)) r).toNat
    { p with g := g, traj := p.traj ++ [g], pos := p.pos + 1 }

def gpRun (r : Nat) : Nat → Gp → Gp
  | 0, p => p
  | n + 1, p => gpRun r n (gpStep r p)

/-- A gain point carried on to position `n` of the frame. -/
def gpTo (e : Engine) (i n : Nat) : Gp := let p := getGp e i; gpRun (gpRamp e i) (n - p.traj.length) p

/-- The gain at each of the first `n` positions of the frame. -/
def gains (e : Engine) (i n : Nat) : List Int := ((gpTo e i n).traj.take n).map Int.ofNat

/-- Pending-step entries in use (R226). -/
def pendUsed (e : Engine) : Nat := (e.mix.gps.filter fun p => !decide (p.2.st = .steady)).length

def refreshPend (e : Engine) : Engine :=
  let n := pendUsed e
  maxF .SUM_PEND_MAX_MAX 0 n (setF .SUM_PEND_NOW 0 n e)

/-- What an applied directive set in motion has ended: its gain points stand, no sink carries a request of its tag, no move, ramp or tap
crossfade of it goes on. -/
def effectDone (e : Engine) (x : Effect) : Bool :=
  let mine := fun r : Option Req => match r with | some q => q.ring == x.ring && q.tag == x.tag | none => false
  (x.gps.all fun i => decide ((getGp e i).st = .steady) && !(getGp e i).defer)
  && (x.sinks.all fun t => !mine (getSink e t).act && !mine (getSink e t).pend)
  && (x.moves.all fun t => !decide ((getSink e t).st = .fbfade))
  && (x.gens.all fun g => match tget none e.mix.gens g with | some g => decide (64 ≤ g.rpos) | none => true)
  && (!x.taps || e.mix.taps.all fun p => decide (32 ≤ p.2.pos))

/-- And the effects that it waits for have ended too. -/
def effectOver (e : Engine) (x : Effect) : Bool :=
  effectDone e x && e.ctl.effects.all fun y => !x.after.contains y.n || effectDone e y

/-- Effects that have ended leave the list; a directive with NOTIFY gives event 0x0403 (Table 8.4). -/
def settleEffects (e : Engine) : Engine :=
  let ended := e.ctl.effects.filter (effectOver e)
  let e := { e with ctl := { e.ctl with effects := e.ctl.effects.filter fun x => !effectOver e x } }
  ended.foldl (fun e x => if x.notify then postEvent 0x0403 [2 ^ 32 * x.tag] e else e) e

/-- T = rne(H × M), saturated (R222). -/
def effTarget (h m : Nat) : Nat := min (rne ((h * m : Nat) : Int) 28).toNat 0x7FFFFFFF

/-- A new target at the tick (Table 7.5, R226): a point that needs a pending-step entry and finds none stays at G, marked DEFER. -/
def newTarget (i t : Nat) (e : Engine) : Engine :=
  let p := getGp e i
  match p.st with
  | .steady =>
    if t = p.g then setGp i { p with t := t, defer := false } e
    else if pendUsed e < 65536 then setGp i { p with t := t, st := .zcwait, pos := 0, defer := false } e
    else if p.defer then setGp i { p with t := t } e
    else bumpF .SUM_DEFER_DEFER 0 1 (setGp i { p with t := t, defer := true } e)
  | .zcwait => if t = p.g then setGp i { p with t := t, st := .steady, pos := 0 } e else setGp i { p with t := t } e
  | .ramp => if t = p.next.getD p.t then e else setGp i { p with next := some t } e

/-! ### Sends and buses -/

/-- The word of a delay ring for the house sample at `pos` (R196); 0 before the samples that the ring holds at the end of the frame. -/
def ringWord (e : Engine) (src : Nat) (pos : Int) : Int :=
  let r := tget (0, 0) e.sched.adm.rings src
  if r.2 = 0 ∨ pos < 0 ∨ pos + r.2 < ((e.sample + frameLen e : Nat) : Int) then 0 else signed 32 (read32 e (r.1 + 4 * (pos.toNat % r.2)))

/-- The source sample at delay `a` for position `k` of the frame, k from −1 (R196). -/
def tapAt (e : Engine) (src a : Nat) (k : Int) : Int :=
  let j := k - a
  if 0 ≤ j then sampleAt e src j.toNat
  else if a = 0 then prevOf e src
  else ringWord e src (e.sample + j)

/-- The signal of a send at its tap (R211), with the crossfade of a tap that moves (R197). -/
def sendAt (e : Engine) (bus idx : Nat) (w : Word64) (k : Int) : Int :=
  let new := tapAt e (sendSrc w) (sendAlign w) k
  let m := tget { old := 0, pos := 32 } e.mix.taps (2 ^ 20 * bus + idx)
  let at_ := (m.pos : Int) + k
  let p := at_.toNat
  if at_ < 0 then tapAt e (sendSrc w) m.old k
  else if p < 32 then fadeMix (fadeGains 1 p 32) (tapAt e (sendSrc w) m.old k) new else new

/-- The entries of a bus's send list in the admitted graph, with their indices. -/
def sendsOf (e : Engine) (b : Nat) : List (Word64 × Nat) := (tget [] e.sched.adm.sends b).zipIdx

/-- A send's contribution at each position (R211). -/
def sendTerm (e : Engine) (b : Nat) (w : Word64 × Nat) (n : Nat) : List Int :=
  (gains e (sendGp w.1) n).zipIdx.map fun p => rne (sendAt e b w.2 w.1 p.2 * p.1) 20

def addLists (a b : List Int) : List Int := List.zipWith (· + ·) a b
def subLists (a b : List Int) : List Int := List.zipWith (· - ·) a b

/-- The gain point bound to a sink, if any (R219). -/
def boundGp (e : Engine) (t : Nat) : Option Nat := (e.mix.gps.find? fun p => p.2.bind == t && decide (0x100100 ≤ p.1)).map (·.1)

/-- What a sink carries at each position of the frame, its gain point applied (R184, R220), and how many samples saturate. -/
def carriedOf (e : Engine) (t : Nat) : List Int × Nat :=
  let n := sinkLen e t
  let y := (sinkTo e t n (getSink e t)).y.take n
  match boundGp e t with
  | none => (y, 0)
  | some i =>
    let p := List.zipWith (fun x g => satTo 32 (rne (x * g) 28)) y (gains e i n)
    (p.map (·.1), (p.filter (·.2)).length)

/-- The accumulator of a bus after the insert (R211, R212), in Q25.39. -/
def busAcc (e : Engine) (b : Nat) : List Int :=
  let n := frameLen e
  let sum := (sendsOf e b).foldl (fun acc w => addLists acc (sendTerm e b w n)) (List.replicate n 0)
  addLists sum ((carriedOf e (0x3000 + b)).1.map fun x => x * 256)

/-- The value of a mix-minus feed before its gain (R240). -/
def feedPre (e : Engine) (f : MinusFeed) (acc : List Int) : List Int :=
  ((sendsOf e f.bus).filter fun w => sendSrc w.1 == f.excl).foldl (fun m w => subLists m (sendTerm e f.bus w (frameLen e))) acc

/-- Talk source of a feed; 0x3FFF when it has none. -/
def feedValue (e : Engine) (f : MinusFeed) (acc : List Int) : List Int :=
  let n := frameLen e
  let m := List.zipWith (fun x g => rne (x * g) 28) (feedPre e f acc) (gains e f.gp n)
  let t := if f.talk = 0x3FFF then List.replicate n 0
    else (gains e f.talkGp n).zipIdx.map fun p => rne (sampleAt e f.talk p.2 * p.1) 20
  (addLists m t).map fun v => satQ31 (rne v 8)

/-! ### The final limiter (R217, R218) -/

/-- 1 with 48 fraction bits. -/
def limOne : Nat := 2 ^ 48

/-- 1 − exp(−1 / (τ f)) with 48 fraction bits, for τ f = `tf` / `u`. -/
def limAlpha (u tf : Nat) : Nat :=
  limOne - exp2Q64 (-((14426950408889634074 * u : Nat) : Int)) (max 1 (10 ^ 19 * tf)) / 2 ^ 16

/-- The ceiling in Q25.39. -/
def limCeil (e : Engine) (b : Nat) : Nat := pow10Q64 (-((getF .SUM_LIMA_CEIL b e * 10 : Nat) : Int)) / 2 ^ 25

/-- r(v) with 48 fraction bits. -/
def limR (c : Nat) (v : Int) : Nat := if v.natAbs ≤ c then limOne else c * limOne / v.natAbs

/-- One sample of the limiter: state, the newest value first, to state and output. The output has 53 fraction bits more than v: no product is
rounded before step 3 of R215. -/
def limStep (c aa ar look : Nat) (l : Limiter) (v : Int) : Limiter × Int × Nat :=
  let vs := (v :: l.vs).take 49
  let t := ((List.range (look + 1)).map fun j => limR c (vs.getD j 0)).foldl min limOne
  let g := if t < l.g then l.g - aa * (l.g - t) / limOne else l.g + ar * (t - l.g) / limOne
  let tap := fun d => let x := vs.getD d 0; (x, min g (limR c x))
  let out := fun (p : Int × Nat) => p.1 * p.2
  let y := if l.xpos < 32 then
      let w := ((l.xpos + 1 : Nat) : Int)
      out (tap l.oldLook) * (32 - w) + out (tap look) * w
    else out (tap look) * 32
  ({ l with g := g, vs := vs, xpos := min 32 (l.xpos + 1) }, y, (tap look).2)

def limRun (c aa ar look : Nat) (l : Limiter) : List Int → Limiter × List Int × Nat
  | [] => (l, [], limOne)
  | [v] => let r := limStep c aa ar look l v; (r.1, [r.2.1], r.2.2)
  | v :: vs =>
    let r := limStep c aa ar look l v
    let t := limRun c aa ar look r.1 vs
    (t.1, r.2.1 :: t.2.1, t.2.2)

/-- −20 log10(gc) in hundredths of a dB. -/
def gainRed (gc : Nat) : Nat := if gc = 0 then 0xFFFF else min 0xFFFF (centiDb limOne gc).toNat

/-! ### A summing item's work (R207, R215) -/

/-- Writes a source's samples of the frame into its delay ring (R196). -/
def writeRing (e : Engine) (src : Nat) : Engine :=
  let r := tget (0, 0) e.sched.adm.rings src
  if r.2 = 0 then e
  else
    (List.range (frameLen e)).foldl (fun e' k =>
      store (r.1 + 4 * ((e.sample + k) % r.2)) (leBytes ((sampleAt e src k) % 2 ^ 32).toNat 4) e') e

/-- The output stage of a bus over the frame (R215), from its accumulator: the bus output, and the count of saturations. Behind the limiter the
rounding to Q1.31 does not pass the ceiling either (R217). -/
def outStage (b : Nat) (acc : List Int) (e : Engine) : Engine :=
  let n := frameLen e
  let p := List.zipWith (fun x g => satTo 64 (rne (x * g) 28)) acc (gains e (0x100000 + b) n)
  let v := p.map (·.1)
  let l := tget Limiter.off e.mix.lims b
  let set := tget 0 e.sched.adm.lim b
  let c := limCeil e b
  let r := if set = 0 then ({ l with vs := (v.reverse ++ l.vs).take 49 }, v.map (· * 2 ^ 53), limOne)
    else
      let f := houseHz e
      limRun c (limAlpha 100000 (getF .SUM_LIMA_ATTACK b e * f)) (limAlpha 1000 (getF .SUM_LIMR_RELEASE b e * f)) (set - 1) l v
  let q := r.2.1.map fun x =>
    let y := rne x 61
    satTo 32 (if set = 0 then y else clamp (-(c / 256 : Nat)) (c / 256 : Nat) y)
  let sat := (p.filter (·.2)).length + (q.filter (·.2)).length
  let e := { e with mix := { e.mix with lims := tput Limiter.off e.mix.lims b r.1 } }
  let e := setF .SUM_BUSSTAT_GR b (if set = 0 then 0 else gainRed r.2.2) (bumpF .SUM_BUSSTAT_SATCNT b sat e)
  deliver (0x3000 + b) (q.map (·.1)) e

/-- One bus: the send list and insert, the output stage, then the mix-minus feeds based on it (R207). -/
def runBus (e : Engine) (b : Nat) : Engine :=
  let e := ((sendsOf e b).map fun w => sendSrc w.1).foldl writeRing e
  -- the insert is carried to the frame's end now: a cyclic route reads the frame before (R60)
  let e := setSink (0x3000 + b) (sinkTo e (0x3000 + b) (sinkLen e (0x3000 + b)) (getSink e (0x3000 + b))) e
  let acc := busAcc e b
  let feeds := e.mix.feeds.filterMap fun p => match p.2 with | some f => if f.bus = b then some (p.1, f) else none | none => none
  let e := { e with mix := { e.mix with accLast := tput 0 e.mix.accLast b (acc.getLastD 0) } }
  let e := outStage b acc e
  feeds.foldl (fun e p =>
    let pre := feedPre e p.2 acc
    let e := { e with mix := { e.mix with accLast := tput 0 e.mix.accLast (0x1000 + p.1) (pre.getLastD 0) } }
    deliver (0x3220 + p.1) (feedValue e p.2 acc) e) e

/-- While the summing engine is re-initialised its bus outputs and mix-minus feeds carry 0 (Table 15.9). -/
def silentBus (e : Engine) (b : Nat) : Engine :=
  let z := List.replicate (frameLen e) 0
  let feeds := e.mix.feeds.filterMap fun p => match p.2 with | some f => if f.bus = b then some p.1 else none | none => none
  feeds.foldl (fun e k => deliver (0x3220 + k) z e) (deliver (0x3000 + b) z e)

def runSumming (d : Quad) (e : Engine) : Engine := (busesOf d).foldl (if resetting e 8 0 then silentBus else runBus) e

/-! ### A bridge item's work (R201–R205) -/

/-- Output samples of a bridge channel in a frame (Table 6.7); for KIND 0x6 the frame's own number, at most the item's BUDGET. -/
def bridgeCount (e : Engine) (ch budget : Nat) (given : Option Nat) : Nat :=
  match getF .ROUTE_BRCFG_KIND ch e with
  | 1 => 2 * frameLen e
  | 3 => 4 * frameLen e
  | 6 => min budget (given.getD budget)
  | _ => frameLen e

/-- The state of a channel's lock fade: position and held sample; position 32 is no fade. -/
def asrcFadeOf (e : Engine) (ch : Nat) : Nat × Int := tget (32, 0) e.mix.asrcFade ch

/-- Input sample `i` of a bridge channel, counted from the start of the frame: those of the frame, and before them its history. -/
def inputAt (hist xs : List Int) (i : Int) : Int := if 0 ≤ i then xs.getD i.toNat 0 else hist.getD (-i - 1).toNat 0

/-- Ratio and latency in house samples of a fixed-ratio kind (Table 6.7). -/
def fixedRatio (kind : Nat) : Nat × Nat := if kind ≤ 2 then (2, 16) else (4, 20)

/-- The prototype filter of a fixed-ratio kind: symmetric, of linear phase, its delay the latency of the kind (R203). -/
def prototype (kind t : Nat) : Int :=
  let r := fixedRatio kind
  let n := 2 * r.1 * r.2
  if t ≤ n then Config.bridgeTap kind (min t (n - t)) else 0

/-- A filter's sum as a sample; its last place is the device's own within 1 LSB. -/
def filtered (x acc : Int) : Int := let y := rne acc 31; satQ31 (within 18 x y 1)

/-- Output `m` of the frame of a fixed-ratio bridge (R203): polyphase interpolation for the odd kinds, decimation for the even ones. -/
def fixedOut (kind : Nat) (hist xs : List Int) (m : Nat) : Int :=
  let r := fixedRatio kind
  let acc := if kind % 2 = 1 then
      ((List.range (2 * r.2 + 1)).map fun j => prototype kind (m % r.1 + r.1 * j) * inputAt hist xs (((m / r.1 : Nat) : Int) - j)).foldl (· + ·) 0
    else ((List.range (2 * r.1 * r.2 + 1)).map fun t => prototype kind t * inputAt hist xs (((r.1 * m : Nat) : Int) - t)).foldl (· + ·) 0
  filtered (inputAt hist xs m) acc

/-- Input samples that a bridge channel keeps: more than the longest delay and ratio need. -/
def histLen : Nat := 640

/-- Output at position `pos` of an ASRC channel (R204): a linear function of the last input samples. -/
def asrcOut (oct ratio pos : Nat) (hist xs : List Int) : Int :=
  let all := (xs.reverse ++ hist).take histLen
  filtered (all.headD 0) ((all.zipIdx.map fun p => p.1 * Config.asrcTap oct ratio pos p.2).foldl (· + ·) 0)

/-- What a channel converts its input to, of which silence stays silence. -/
def convertedAt (e : Engine) (ch : Nat) (xs : List Int) (k : Nat) : Int :=
  let kind := getF .ROUTE_BRCFG_KIND ch e
  let hist := tget [] e.mix.brHist ch
  if xs.all (· == 0) && hist.all (· == 0) then 0
  else if kind < 5 then fixedOut kind hist xs k
  else asrcOut (getF .ROUTE_BRSTAT_OCT ch e) (getF .ROUTE_BRSTAT_RATIO ch e) (tget 0 e.mix.brPos ch + k) hist xs

/-- The output of a bridge channel with input `xs` in the frame: a LOCKED one carries the converted signal, faded in after a lock; after an
unlock the last output fades out; else 0 (Table 6.8). A fixed-ratio channel is LOCKED while enabled; what a disabled one puts out is not
stated, and the model takes 0 (DESIGN CHOICE, log 139). -/
def bridgeOut (e : Engine) (ch n : Nat) (xs : List Int) : List Int :=
  let f := asrcFadeOf e ch
  let fixed := decide (getF .ROUTE_BRCFG_KIND ch e < 5)
  (List.range n).map fun k =>
    let p := f.1 + k
    if getF .ROUTE_BRSTAT_STATE ch e = 2 then
      let x := convertedAt e ch xs k
      if p < 32 && !fixed then fadeMix (0, (fadeGains 1 p 32).2) 0 x else x
    else if p < 32 && !fixed then fadeMix ((fadeGains 1 p 32).1, 0) f.2 0
    else 0

def runBridge (d : Quad) (given : Option Nat) (e : Engine) : Engine :=
  let ch := dAffinity d % 256
  let n := bridgeCount e ch (dBudget d) given
  let t := 0x3100 + ch
  let e := setSink t (sinkTo e t (sinkLen e t) (getSink e t)) e
  let xs := (carriedOf e t).1
  let ys := bridgeOut e ch n xs
  let f := asrcFadeOf e ch
  let e := { e with mix := { e.mix with brPos := tput 0 e.mix.brPos ch (tget 0 e.mix.brPos ch + n)
                                        brHist := tput [] e.mix.brHist ch ((xs.reverse ++ tget [] e.mix.brHist ch).take histLen)
                                        asrcFade := tput (32, 0) e.mix.asrcFade ch (min 32 (f.1 + n), if 32 ≤ f.1 + n then 0 else f.2) } }
  deliver t ys e

/-! ### Zero crossings at a gain point (R223) -/

/-- The signals that a gain point scales, each with its sample before the frame (Table 7.4). -/
def gpSignals (e : Engine) (i : Nat) : List (Int × List Int) :=
  let n := frameLen e
  if isSendGp i then
    e.sched.adm.sends.flatMap fun p => (p.2.zipIdx.filter fun w => sendGp w.1 == i).map fun w =>
      (sendAt e p.1 w.2 w.1 (-1), (List.range n).map fun k => sendAt e p.1 w.2 w.1 (Int.ofNat k))
  else if isMaster i then
    [(tget 0 e.mix.accPrev (i - 0x100000), busAcc e (i - 0x100000))]
  else
    let b := (getGp e i).bind
    let sinks := if b = 0xFFFF then [] else [((getSink e b).last, (sinkTo e b (sinkLen e b) (getSink e b)).y)]
    let feeds := e.mix.feeds.filterMap fun p => match p.2 with
      | some f => if f.gp = i then some (tget 0 e.mix.accPrev (0x1000 + p.1), feedPre e f (busAcc e f.bus)) else none
      | none => none
    let talks := e.mix.feeds.filterMap fun p => match p.2 with
      | some f => if f.talk ≠ 0x3FFF ∧ f.talkGp = i then some (prevOf e f.talk, samplesOf e f.talk) else none
      | none => none
    sinks ++ feeds ++ talks

/-- A gain point's signal has a zero crossing at sample `k`; a point that scales no signal is on silence. -/
def gpCrosses (e : Engine) (i k : Nat) : Bool :=
  let ss := gpSignals e i
  ss.isEmpty || ss.any fun p => crosses (if k = 0 then p.1 else p.2.getD (k - 1) 0) (p.2.getD k 0)

end Sys2Proof.Machine
end

