-- ==== Sys2Proof/Machine/Services.lean ====
section
/-! DEFINITION. The built-in services (R216, R222, R228–R245): factors of gain points, metering, loudness, automix, ducking and
generators. -/
namespace Sys2Proof.Machine

/-- The supervisor runs: it is not in boot, restarting or halted (Table 1.15). -/
def supUp (e : Engine) : Bool := getF .SYS_SUP_STAT_STATE 0 e == 1

/-- 1 in Q4.28. -/
def gainOne : Nat := 2 ^ 28

/-! ### Factors (R216, R222, R237, R242) -/

/-- s(N) of a shared-gain bus in Q4.28, within 1 LSB of its exact value (R216). -/
def sharedScale (mode n : Nat) : Nat :=
  if n ≤ 1 ∨ mode = 0 then gainOne
  else if mode = 1 then (withinOne 6 n ((gainOne / n : Nat) : Int) (ceilDiv gainOne n)).toNat
  else
    let r := isqrt (gainOne * gainOne / n)
    (withinOne 7 n r (if r * r * n = gainOne * gainOne then r else r + 1)).toNat

/-- N of a bus in the frame (R216). -/
def busNOf (e : Engine) (b : Nat) : Nat := tget 1 e.mix.busN b

/-- The automix factor of a gain point: its member's A. -/
def autoFactor (e : Engine) (i : Nat) : Nat :=
  match e.mix.members.find? fun p => match p.2 with | some m => m.gp == i | none => false with
  | some (_, some m) => m.a
  | _ => gainOne

/-- 10^(−d/20) in Q4.28 for whole dB: one of the two nearest values, as no rounding is stated (R237, R241). -/
def dbFactor (d : Nat) : Nat :=
  let p : Nat := pow10Q64 (-((1000 * d : Nat) : Int)) / 2 ^ 36
  if d = 0 then gainOne else (between 19 (d : Nat) (p : Nat) (p + 1 : Nat)).toNat

/-- The rule that decides a gain point's duck factor: highest priority, then lowest index (R242). -/
def duckRule (i : Nat) : List (Nat × Option Duck) → Option Duck
  | [] => none
  | p :: ps =>
    let rest := duckRule i ps
    match p.2 with
    | some r =>
      if r.active && r.gps.contains i then
        match rest with
        | some q => if r.prio < q.prio then rest else some r
        | none => some r
      else rest
    | none => rest

def duckFactor (e : Engine) (i : Nat) : Nat :=
  match duckRule i e.mix.ducks with
  | some r => dbFactor r.depth
  | none => gainOne

/-- M of a gain point: the product of its factors (R222). -/
def modifier (e : Engine) (i : Nat) : Nat :=
  let mul := fun a b : Nat => (rne ((a * b : Nat) : Int) 28).toNat
  let s := if isMaster i then sharedScale (getF .SUM_BUSCFG_SHARED (i - 0x100000) e) (busNOf e (i - 0x100000)) else gainOne
  if isSendGp i then gainOne else mul (mul (autoFactor e i) (duckFactor e i)) s

/-- The gain points whose target may have changed: those written, deferred, with a modifier, and those that a factor names. -/
def gpCandidates (e : Engine) : List Nat :=
  let base := e.mix.gpDirty ++ (e.mix.gps.filter fun p => p.2.defer || p.2.m != gainOne).map (fun p => p.1)
    ++ e.mix.members.filterMap (fun p => p.2.map (·.gp)) ++ e.mix.ducks.flatMap (fun p => match p.2 with | some r => r.gps | none => [])
    ++ (List.range 32).map (fun k => 0x100000 + 224 + k)
  base.foldl (fun l i => insertNat i l) []

/-- Step 3 and 4 of R227 for a gain point: its modifier, and its target when that changes T. -/
def formTarget (e : Engine) (i : Nat) : Engine :=
  let p := getGp e i
  let m := modifier e i
  let t := effTarget p.h m
  let e := if p.m = m then e else setGp i { p with m := m } e
  if t ≠ p.next.getD p.t ∨ p.defer then newTarget i t e else e

/-- Steps 3 and 4 of R227: deferred points first, then the others, each in ascending number (R226). -/
def formTargets (e : Engine) : Engine :=
  let c := gpCandidates e
  let d := c.filter fun i => (getGp e i).defer
  let r := c.filter fun i => !(getGp e i).defer
  let e := (d ++ r).foldl formTarget e
  refreshPend { e with mix := { e.mix with gpDirty := [] } }

/-! ### Activity (R213, R214, R216) -/

/-- Bit 0 of the activity word of a source. -/
def activity (e : Engine) (s : Nat) : Bool := (readByte e (0x204F0000 + 4 * s)).toNat % 2 == 1

/-- The source is the output of a shed item (R214). -/
def shedSource (e : Engine) (s : Nat) : Bool := e.sched.shed.any fun i => (outsOf e i).contains s

/-- ACT of an entry in the frame that starts. -/
def actOf (e : Engine) (w : Word64) : Bool :=
  !shedSource e (sendSrc w) && (if sendFollow w then activity e (sendSrc w) else sendAct w)

/-- An entry with its ACT bit written. -/
def withAct (w : Word64) (a : Bool) : Word64 :=
  BitVec.ofNat 64 (setBit w.toNat 49 a)

/-- Step 1 of R227: FOLLOW entries take ACT from the activity words, and N of each bus is formed. -/
def sampleActivity (e : Engine) : Engine :=
  let sends := e.sched.adm.sends.map fun p => (p.1, p.2.map fun w => if sendFollow w then withAct w (activity e (sendSrc w)) else w)
  let e := { e with sched := { e.sched with adm := { e.sched.adm with sends := sends } } }
  let ns := sends.foldl (fun t p => tput 1 t p.1 (max 1 (p.2.filter (actOf e)).length)) []
  let e := { e with mix := { e.mix with busN := ns } }
  (List.range 32).foldl (fun e k => setF .SUM_BUSN_N k (busNOf e (224 + k)) e) e

/-! ### Metering (R228–R230) -/

/-- K of R228. -/
def meterK (e : Engine) : Nat := max 1 ((houseHz e + 25 * frameLen e) / (50 * frameLen e))

/-- The taps that are metered as signals: those whose meter is not configured, with a source by `f` (R230). -/
def tapsWith (f : Sink → Nat) (e : Engine) : List Nat :=
  (e.mix.sinks.map fun p => p.1).filter fun t =>
    decide (0x3200 ≤ t) && decide (t < 0x3400) && f (getSink e t) != 0x3FFF && (tget none e.mix.louds ((t - 0x3200) / 8)).isNone

/-- The taps that carry a source. -/
def meteredTaps : Engine → List Nat := tapsWith (·.cur)

/-- Detector sources of automix members and duck rules (R228). -/
def detectors (e : Engine) : List Nat :=
  (e.mix.members.filterMap fun p => p.2.map (·.det)) ++ (e.mix.ducks.filterMap fun p => p.2.map (·.trig))

/-- The sources that are metered, ascending: those that `METER_CFG` selects, and the detector sources. -/
def meteredSources (e : Engine) : List Nat :=
  (detectors e).foldl (fun l s => if s = 0x3FFF then l else insertNat s l) <|
  e.mix.ranges.foldl (fun l r => (List.range (r.2 + 1 - r.1)).foldl (fun l j =>
    let s := r.1 + j
    if sourceOk s && decide (s < 0x3300) then insertNat s l else l) l) []

/-- Adds a frame's samples to a signal's meter. -/
def meterAdd (key : Nat) (ys : List Int) (e : Engine) : Engine :=
  let m := tget { peak := 0, sq := 0, n := 0 } e.mix.meters key
  let m := ys.foldl (fun (m : Meter) y => { peak := max m.peak y.natAbs, sq := m.sq + y.natAbs * y.natAbs, n := m.n + 1 }) m
  { e with mix := { e.mix with meters := tput { peak := 0, sq := 0, n := 0 } e.mix.meters key m } }

/-- The level E of automix members over a detector's samples (R237): the mean square (Q62) with an exponential time constant of 5 ms. -/
def detectLevel (a : Nat) (xs : List Int) (m : AmMember) : AmMember :=
  { m with e := (xs.foldl (fun (v : Int) x => v + a * (((x.natAbs * x.natAbs : Nat) : Int) - v) / (limOne : Nat)) (m.e : Int)).toNat }

/-- Every member's level takes in the frame. -/
def detectMembers (e : Engine) : Engine :=
  let f := fun m : AmMember => detectLevel (limAlpha 1000 (5 * domHz e (sourceDom e m.det))) (samplesOf e m.det) m
  { e with mix := { e.mix with members := e.mix.members.map fun p => (p.1, p.2.map f) } }

/-! ### Loudness measurement (R231–R233)

The constants of BS.1770-4, which the manual names and does not print (PRESUMED, log 159). -/

/-- A number as a coefficient with 48 fraction bits. -/
def kOne : Int := 2 ^ 48

/-- tan(π f0 / f) with 48 fraction bits, f0 in nHz. -/
def kTan (f0 f : Nat) : Int := sinQuarter (2 * f0) (10 ^ 9 * f) * kOne / max 1 (cosQuarter (2 * f0) (10 ^ 9 * f))

/-- A coefficient of a filter: a number over a0. -/
def kOver (x a0 : Int) : Int := x * kOne / a0

/-- The two stages of the K-weighting filter at a house rate: b0, b1, b2, a1, a2 of the shelf, a1, a2 of the high-pass. -/
structure KFilter where
  b0 : Int
  b1 : Int
  b2 : Int
  a1 : Int
  a2 : Int
  c1 : Int
  c2 : Int

def kFilter (f : Nat) : KFilter :=
  let k := kTan 1681974450956 f
  let kk := k * k / kOne
  let q := k * 10 ^ 16 / 7071752369554196
  let vh := 158486470113 * kOne / 10 ^ 11
  let vbq := q * 12587209302 / 10 ^ 10
  let a0 := kOne + q + kk
  let h := kTan 38135470876 f
  let hh := h * h / kOne
  let r := h * 10 ^ 16 / 5003270373238773
  let d0 := kOne + r + hh
  { b0 := kOver (vh + vbq + kk) a0, b1 := kOver (2 * (kk - vh)) a0, b2 := kOver (vh - vbq + kk) a0
    a1 := kOver (2 * (kk - kOne)) a0, a2 := kOver (kOne - q + kk) a0
    c1 := kOver (2 * (hh - kOne)) d0, c2 := kOver (kOne - r + hh) d0 }

/-- The first two phases of the 4× interpolator of BS.1770-4 Annex 2 in 1/8192; the other two are these reversed. -/
def peakTaps : List (List Int) :=
  let p := [14, 90, -161, 272, -487, 1125, 7964, -838, 390, -218, 122, -68]
  let q := [-239, 240, -424, 730, -1364, 3810, 6388, -1641, 832, -477, 271, -155]
  [p, q, q.reverse, p.reverse]

/-- The greatest magnitude of the four interpolated samples at the newest of the last 12 samples (Q31). -/
def truePeak (last : List Int) : Nat :=
  (peakTaps.map fun p => ((List.zipWith (· * ·) p last).foldl (· + ·) 0 / 8192).natAbs).foldl max 0

/-- A sample of a channel: through the filter into the sum of squares, and the true peak. -/
def loudSample (k : KFilter) (c : LoudChan) (x : Int) : LoudChan × Nat :=
  let s := x * 2 ^ 16
  let u := (k.b0 * s + k.b1 * c.x.1 + k.b2 * c.x.2 - k.a1 * c.u.1 - k.a2 * c.u.2) / kOne
  let v := u - 2 * c.u.1 + c.u.2 - (k.c1 * c.v.1 + k.c2 * c.v.2) / kOne
  let w := x :: c.last
  ({ x := (s, c.x.1), u := (u, c.u.1), v := (v, c.v.1), last := w.take 11, acc := c.acc + v.natAbs * v.natAbs / 2 ^ 32, n := c.n + 1 }, truePeak w)

/-- A channel's samples of a frame, and their true peak. -/
def loudRun (k : KFilter) (c : LoudChan) (xs : List Int) : LoudChan × Nat :=
  xs.foldl (fun p x => let r := loudSample k p.1 x; (r.1, max p.2 r.2)) (c, 0)

/-- The channels of a meter. -/
def Loud.taps (l : Loud) : List Nat := (List.range 8).filter fun j => l.mask.testBit j

/-- The weight of a channel in hundredths (R231): 0, 1.0 or 1.41. -/
def Loud.weight (l : Loud) (j : Nat) : Nat := [0, 100, 141, 0].getD (l.weights / 4 ^ j % 4) 0

/-- The configured loudness meters, in order. -/
def loudMeters (e : Engine) : List (Nat × Loud) := e.mix.louds.filterMap fun p => p.2.map fun l => (p.1, l)

/-- A loudness meter takes in the frame of what its taps carry. -/
def loudFrame (e : Engine) (m : Nat) (l : Loud) : Loud :=
  let k := kFilter (houseHz e)
  l.taps.foldl (fun l j =>
    let r := loudRun k (tget LoudChan.zero l.chans j) (carriedOf e (0x3200 + 8 * m + j)).1
    { l with chans := tput LoudChan.zero l.chans j r.1, tp := max l.tp r.2, tpMax := max l.tpMax r.2 }) l

/-- The weighted mean square (Q62) of a meter's 100 ms step that ends. -/
def Loud.stepPower (l : Loud) : Nat :=
  (l.taps.map fun j => let c := tget LoudChan.zero l.chans j; l.weight j * c.acc / (100 * max 1 c.n)).foldl (· + ·) 0

/-- The metering item's work over a frame (R228, R230, R232, R237). -/
def runMetering (e : Engine) : Engine :=
  let e := (meteredSources e).foldl (fun e s => meterAdd s (samplesOf e s) e) e
  let e := (meteredTaps e).foldl (fun e t => meterAdd (0x10000 + t) (carriedOf e t).1 e) e
  let e := { e with mix := { e.mix with louds := e.mix.louds.map fun p => (p.1, p.2.map (loudFrame e p.1)) } }
  detectMembers e

/-- A level field: hundredths of a dB within ±0.01 dB of the exact figure, 0x8000 for exactly 0 (R228). -/
def levelField (zero : Bool) (b : Int × Int) : Nat :=
  if zero then 0x8000 else (between 8 b.1 b.1 b.2 % 65536).toNat

/-- Peak and rms fields of a meter (R228). -/
def meterFields (m : Meter) : Nat × Nat :=
  (levelField (m.peak == 0) (centiBounds 2 (log2Q40 m.peak) (log2Q40 (2 ^ 31))),
   levelField (m.sq == 0) (centiBounds 1 (log2Q40 m.sq) (log2Q40 (2 ^ 62 * m.n))))

/-- A 16-bit field of a measure; 0x8000 when it has no value (R234). -/
def measField : Option Int → Nat
  | some v => (v % 65536).toNat
  | none => 0x8000

/-- The record of a loudness meter (R234). -/
def loudRecord (e : Engine) (k : Nat) (l : Loud) : List Byte :=
  let running := bitF .SUM_LOUD_RUN_RUN (k / 32) (k % 32) e
  let tp := fun v : Nat => if v = 0 then 0x8000 else (centiDb v (2 ^ 31) % 65536).toNat
  let secs := min l.secs (2 ^ 32 - 1)
  ([k, running.toNat + 2 * l.wasReset.toNat, measField l.m, measField l.s, measField l.i, measField l.lraV, tp l.tp, tp l.tpMax,
    secs / 65536, secs % 65536] ++ List.replicate 6 0).flatMap fun v => leBytes v 2

/-- The loudness meters that run: those whose RUN bit is 1 (R229, R235). -/
def runningMeters (e : Engine) : List (Nat × Loud) := (loudMeters e).filter fun p => bitF .SUM_LOUD_RUN_RUN (p.1 / 32) (p.1 % 32) e

/-- The meter block of the period that ended (Table 7.6). -/
def meterBlock (e : Engine) : List Byte :=
  let keys := meteredSources e ++ (meteredTaps e).map (0x10000 + ·)
  let louds := runningMeters e
  leBytes (frameNo e) 8 ++ leBytes (2 ^ 32 * getF .SUM_METER_SEQ_SEQ 0 e + keys.length) 8
    ++ leBytes (2 ^ 32 * louds.length + meterK e) 8 ++ leBytes 0 8
    ++ keys.flatMap (fun k => let f := meterFields (tget { peak := 0, sq := 0, n := 0 } e.mix.meters k); leBytes (65536 * f.1 + f.2) 4)
    ++ louds.flatMap fun p => loudRecord e p.1 p.2

/-- A block's bytes are written to the buffer that is next (R229), unless the link is down for the engine (R458). -/
def storeMeterBlock (b : List Byte) (e : Engine) : Engine :=
  if e.host.linkOff then e
  else match hostAt e (if e.mix.meterToB then e.mix.meterB else e.mix.meterA) b.length with
  | some a => writeBytes a b e
  | none => setF .HOST_PCIE_STAT_OUTRNG 0 1 e

/-- The event and the vector of a block. -/
def postMeterBlock (e : Engine) : Engine :=
  let e := if e.mix.meterEv then postEvent 0x0301 [2 ^ 32 * getF .SUM_METER_SEQ_SEQ 0 e + e.mix.meterToB.toNat] e else e
  if e.mix.meterVec = 65535 then e else fireMsi e.mix.meterVec e

/-- A loudness meter at the end of a block period. -/
def Loud.clear (l : Loud) : Loud := { l with tp := 0, wasReset := false }

/-- A frame of the block period ends; at the last one the period's block is formed, and the next period begins. Called before the frame
number rises. -/
def meterTick (e : Engine) : Engine :=
  let n := e.mix.meterFrames + 1
  if n < meterK e then { e with mix := { e.mix with meterFrames := n } }
  else
    let due := if e.mix.meterBytes = 0 then none else some (meterBlock e)
    { e with mix := { e.mix with meterFrames := 0, meters := [], meterDue := due, louds := e.mix.louds.map fun p => (p.1, p.2.map Loud.clear) } }

/-- The block of the period that ended is written to the next buffer, the event or vector is posted and the sequence number rises (R229). -/
def effMeterBlockWrite (e : Engine) : Engine :=
  match e.mix.meterDue with
  | none => e
  | some b =>
    let e := postMeterBlock (storeMeterBlock b e)
    wrapF .SUM_METER_SEQ_SEQ 0 1 { e with mix := { e.mix with meterToB := !e.mix.meterToB, meterDue := none } }

def execMeterBlockWrite (s : State) : Host.Outcome State Fault Refusal :=
  runLive "METER_BLOCK_WRITE" Instr.meterBlockWrite.wf effMeterBlockWrite s

/-! ### Loudness (R231–R235) -/

/-- Loudness in hundredths of a LUFS of a weighted mean square (Q62), above 0. -/
def lufs (ms : Nat) : Int := roundDiv (30102999566398120 * ((log2Q40 ms : Int) - 62 * 2 ^ 40)) (2 ^ 40 * 10 ^ 14) - 69

/-- The mean square (Q62) of a loudness in hundredths of a LUFS. -/
def lufsPower (l : Int) : Nat := pow10Q64 ((l + 69) * 20) / 4

/-- The mean of the first `n` steps, once `n` steps exist. -/
def meanSteps (steps : List Nat) (n : Nat) : Option Nat :=
  if steps.length < n then none else some ((steps.take n).foldl (· + ·) 0 / n)

/-- The loudness of a mean square, within ±0.1 LU (R233); no value for silence. -/
def loudOf : Option Nat → Option Int
  | some ms => if ms = 0 then none else some (within 9 (lufs ms) (lufs ms) 10)
  | none => none

/-- A histogram bin of a loudness: hundredths of LUFS + 7000, from −70 to +10 LUFS (R232). -/
def loudBin (l : Int) : Option Nat := if l < -7000 then none else some (min (l + 7000).toNat 8000)

def addBin (h : Table Nat) : Option Nat → Table Nat
  | some b => tput 0 h b (tget 0 h b + 1)
  | none => h

/-- Blocks and the sum of their powers, over the bins from `lo`. -/
def binSum (h : Table Nat) (lo : Int) : Nat × Nat :=
  h.foldl (fun (a : Nat × Nat) p => if lo ≤ (p.1 : Int) - 7000 then (a.1 + p.2, a.2 + p.2 * lufsPower ((p.1 : Int) - 7000)) else a) (0, 0)

/-- The gated loudness of a histogram: absolute gate −70 LUFS, relative gate `rel` below the mean (R232). -/
def gateAt (h : Table Nat) (rel : Int) : Option Int :=
  let s := binSum h (-7000)
  if s.1 = 0 then none else some (lufs (s.2 / s.1) - rel)

/-- Integrated loudness. -/
def integrated (h : Table Nat) : Option Int :=
  match gateAt h 1000 with
  | none => none
  | some g => let s := binSum h g; if s.1 = 0 then none else some (within 10 (lufs (s.2 / s.1)) (lufs (s.2 / s.1)) 10)

/-- The bin of the `n`-th value (from 0) of a histogram from `lo` up. -/
def nthBin (lo : Int) : Table Nat → Nat → Option Nat
  | [], _ => none
  | p :: t, n => if (p.1 : Int) - 7000 < lo then nthBin lo t n else if n < p.2 then some p.1 else nthBin lo t (n - p.2)

/-- Loudness range: from the 10th to the 95th percentile above the gates. -/
def loudRange (h : Table Nat) : Option Int :=
  match gateAt h 2000 with
  | none => none
  | some g =>
    let n := (binSum h g).1
    match nthBin g h ((roundDiv (((n - 1) * 10 : Nat) : Int) 100).toNat), nthBin g h ((roundDiv (((n - 1) * 95 : Nat) : Int) 100).toNat) with
    | some a, some b => some (within 11 ((b : Int) - a) ((b : Int) - a) 10)
    | _, _ => none

/-- One 100 ms step of a meter (R232, R235): a pending reset, the windows, and while it runs the histograms and the running time. -/
def loudTick (running : Bool) (l : Loud) : Loud :=
  let ms := l.stepPower
  let l := if l.reset then
      { l with hist := [], lra := [], i := none, lraV := none, tpMax := 0, secs := 0, tenths := 0, reset := false, wasReset := true } else l
  let l := { l with steps := (ms :: l.steps).take 30, chans := l.chans.map fun (p : Nat × LoudChan) => (p.1, { p.2 with acc := 0, n := 0 }) }
  let m := loudOf (meanSteps l.steps 4)
  let s := loudOf (meanSteps l.steps 30)
  let l := { l with m := m, s := s }
  if running then
    let hist := addBin l.hist (m.bind loudBin)
    let lra := addBin l.lra (s.bind loudBin)
    let t := l.tenths + 1
    { l with hist := hist, lra := lra, i := integrated hist, lraV := loudRange lra,
             tenths := t % 10, secs := min (2 ^ 32 - 1) (l.secs + t / 10) }
  else l

/-- Every 100 ms the supervisor forms the loudness measures from what the metering service measured (R232), here of the meters whose step ends. -/
def effLoudnessStep (meters : List Nat) (e : Engine) : Engine :=
  if !supUp e then e
  else
    let stepOf (p : Nat × Option Loud) : Nat × Option Loud :=
      if meters.contains p.1 then (p.1, p.2.map (loudTick (bitF .SUM_LOUD_RUN_RUN (p.1 / 32) (p.1 % 32) e))) else p
    { e with mix := { e.mix with louds := e.mix.louds.map stepOf } }

def execLoudnessStep (meters : List Nat) (s : State) : Host.Outcome State Fault Refusal :=
  runLive "LOUDNESS_STEP" (Instr.loudnessStep meters).wf (effLoudnessStep meters) s

/-- A write to `SUM_LOUD_RESETk` (R235): each bit that is 1 clears its meter at the next 100 ms step. -/
def effLoudResetWrite (k val : Nat) (e : Engine) : Engine :=
  (List.range 32).foldl (fun e j =>
    if val / 2 ^ j % 2 = 1 then
      match tget none e.mix.louds (32 * k + j) with
      | some l => { e with mix := { e.mix with louds := tput none e.mix.louds (32 * k + j) (some { l with reset := true }) } }
      | none => e
    else e) e

def execLoudResetWrite (k val : Nat) (s : State) : Host.Outcome State Fault Refusal :=
  runLive "LOUD_RESET_WRITE" (Instr.loudResetWrite k val).wf (effLoudResetWrite k val) s

/-! ### Automix (R236–R239) -/

/-- 10^(d/10) in Q62 for a level d of whole dB. -/
def powerOf (d : Int) : Nat := pow10Q64 (2000 * d) / 4

/-- The members of a group. -/
def membersOf (e : Engine) (g : Nat) : List (Nat × AmMember) :=
  e.mix.members.filterMap fun p => match p.2 with | some m => if m.group = g then some (p.1, m) else none | none => none

/-- E w² of a member, w² with 64 fraction bits. -/
def weighted (m : AmMember) : Nat := m.e * pow10Q64 (2000 * m.weight)

/-- The factor of a member of a group with the given sum of E w² (R237): in Q4.28 one of the two nearest values, as no rounding is stated. -/
def amixFactor (g : AmGroup) (m : AmMember) (sum : Nat) : Nat :=
  if weighted m = sum then gainOne
  else
    let a := isqrt (weighted m * gainOne * gainOne / max 1 sum)
    let exact := a * a * sum == weighted m * gainOne * gainOne
    max (dbFactor g.depth) (between 12 a a (if exact then a else a + 1)).toNat

/-- One millisecond of a group (R237, R238): the factors, the hold bit, and each member's activity time. -/
def amixGroup (e : Engine) (g : Nat) (c : AmGroup) : Engine :=
  let ms := membersOf e g
  let thr := powerOf (-(c.thr : Int))
  let quiet := ms.all fun p => decide (p.2.e < thr)
  let e := setBitF .SUM_AMIX_HOLD_HOLD 0 g quiet e
  let sum := ms.foldl (fun s p => s + weighted p.2) 0
  ms.foldl (fun e p =>
    let a := if quiet then p.2.a else amixFactor c p.2 sum
    let on := decide (thr ≤ p.2.e) && decide (dbFactor c.actDb ≤ a)
    let m := { p.2 with a := a, hold := if on then 200 else p.2.hold - 1 }
    { e with mix := { e.mix with members := tput none e.mix.members p.1 (some m), gpDirty := m.gp :: e.mix.gpDirty } }) e

/-- Writes the activity words of the detector sources (R238): 1 while a member that the source detects is active or held. -/
def writeAmixActivity (e : Engine) : Engine :=
  let ms := e.mix.members.filterMap fun p => p.2
  ms.foldl (fun e m =>
    let on := ms.any fun x => x.det == m.det && decide (0 < x.hold)
    writeByte (0x204F0000 + 4 * m.det) (if on then 1 else 0) e) e

/-- Every 1 ms the supervisor forms the automix factors from the members' levels (R237), here of the groups whose turn falls due. During a
restart they hold (R239). -/
def effAutomixUpdate (groups : List Nat) (e : Engine) : Engine :=
  if !supUp e then e
  else
    let due := e.mix.groups.filter fun p => groups.contains p.1
    let e := due.foldl (fun e p => match p.2 with | some c => amixGroup e p.1 c | none => e) e
    writeAmixActivity e

def execAutomixUpdate (groups : List Nat) (s : State) : Host.Outcome State Fault Refusal :=
  runLive "AUTOMIX_UPDATE" (Instr.automixUpdate groups).wf (effAutomixUpdate groups) s

/-! ### Ducking (R241) -/

/-- H_f of R241. -/
def duckFrames (e : Engine) (r : Duck) : Nat := ceilDiv (r.hold * houseHz e) (1000 * frameLen e)

/-- Sets a duck rule and shows it in `SUM_DUCK_ACT`. -/
def setDuck (k : Nat) (r : Duck) (e : Engine) : Engine :=
  setBitF .SUM_DUCK_ACT_ACT 0 k r.active { e with mix := { e.mix with ducks := tput none e.mix.ducks k (some r) } }

/-- The trigger's peak over the frame reaches the threshold: only that of 0 dBFS is a whole number of 2^-64. -/
def loudTrigger (e : Engine) (r : Duck) : Bool :=
  let peak := (samplesOf e r.trig).foldl (fun m x => max m x.natAbs) 0
  if r.thr = 0 then decide (2 ^ 31 ≤ peak) else decide (pow10Q64 (-((1000 * r.thr : Nat) : Int)) < 2 ^ 33 * peak)

/-- A rule at the tick that ends a frame: loud in it, it becomes or stays active; else it ends when its hold expires with that tick (R241). -/
def duckRuleTick (e : Engine) (k : Nat) (r : Duck) : Engine :=
  if loudTrigger e r then setDuck k { r with active := true, ending := false, until_ := frameNo e + duckFrames e r + 1 } e
  else if r.active && r.ending && decide (r.until_ ≤ frameNo e + 1) then setDuck k { r with active := false, ending := false } e
  else e

/-- The duck rules at the tick; during a supervisor restart they hold (R239). Called before the frame number rises. -/
def duckTick (e : Engine) : Engine :=
  if !supUp e then e
  else e.mix.ducks.foldl (fun e p => match p.2 with | some r => duckRuleTick e p.1 r | none => e) e

/-- The hold after the last loud frame expires: the rule is inactive from the tick of frame m + H_f + 1 on (R241). The command may come in the
frame before that tick, or after it: then the targets of the rule's gain points are formed at once. -/
def effDuckHoldExpiry (k : Nat) (e : Engine) : Engine :=
  match tget none e.mix.ducks k with
  | some r =>
    if !supUp e || !r.active then e
    else if r.until_ ≤ frameNo e then refreshPend (r.gps.foldl formTarget (setDuck k { r with active := false, ending := false } e))
    else if r.until_ = frameNo e + 1 then { e with mix := { e.mix with ducks := tput none e.mix.ducks k (some { r with ending := true }) } }
    else e
  | none => e

def execDuckHoldExpiry (rule : Nat) (s : State) : Host.Outcome State Fault Refusal :=
  runLive "DUCK_HOLD_EXPIRY" (Instr.duckHoldExpiry rule).wf (effDuckHoldExpiry rule) s

/-! ### Generators (R244, R245) -/

/-- A level in hundredths of a dB below full scale as a linear value with 32 fraction bits. -/
def genLevel (d : Nat) : Nat := pow10Q64 (-((d * 10 : Nat) : Int)) / 2 ^ 32

/-- The level that a generator ramps to: within ±0.01 dB for a sine and ±0.1 dB for noise, one value for each mode and level (Table 7.8). -/
def genTarget (g : Gen) : Nat :=
  let v := genLevel g.level
  if g.on && g.mode != 0 then (clamp 0 (2 ^ 32 : Nat) (within 13 (4 * g.level + g.mode : Nat) v (v * (if g.mode = 1 then 1150 else 11440) / 1000000 : Nat))).toNat
  else 0

/-- The level at ramp position `p` (R244). -/
def genLevelAt (g : Gen) (p : Nat) : Nat :=
  if 64 ≤ p then genTarget g
  else ((g.from_ : Int) + ((genTarget g : Int) - g.from_) * ((p + 1 : Nat) : Int) / 64).toNat

/-- sin(2π phase / 2^32) in Q31. -/
def sineQ31 (phase : Nat) : Int :=
  let q := phase / 2 ^ 30 % 4
  let r := phase % 2 ^ 30
  let v := fun a => sinQuarter a (2 ^ 30) / 2 ^ 33
  match q with
  | 0 => v r
  | 1 => v (2 ^ 30 - r)
  | 2 => -v r
  | _ => -v (2 ^ 30 - r)

/-- Sample `k` of a frame of a generator (Table 7.8). A sine departs from the exact one by at most 5 × 10^-8 of its level, so that no spurious
component passes −140 dB. White noise takes the level with the sign of the maximal-length sequence, so that its RMS is the level (DESIGN CHOICE,
log 160); pink noise is a sequence of the device's own. -/
def genSample (g : Gen) (k : Nat) : Int :=
  let lv := genLevelAt g (g.rpos + k)
  match g.mode with
  | 1 =>
    let ph := (g.phase + k * g.inc) % 2 ^ 32
    satQ31 (within 20 (ph : Nat) (rne (sineQ31 ph * lv) 32) ((lv / 40000000 : Nat) : Int))
  | 2 =>
    let x := rne lv 1
    satQ31 (if Config.mls ((Config.seedPlace g.seed + g.age + k) % (2 ^ 31 - 1)) then x else -x)
  | 3 => satQ31 (rne (Config.pink g.seed (g.age + k) * lv) 32)
  | _ => 0

/-- The generators' samples of the frame that starts, and their advance to the next. -/
def genTick (e : Engine) : Engine :=
  e.mix.gens.foldl (fun e p =>
    match p.2 with
    | some g =>
      let n := frameLen e
      let e := setSig (0x3200 + p.1) ((List.range n).map (genSample g)) e
      let g' := { g with phase := (g.phase + n * g.inc) % 2 ^ 32, age := g.age + n, rpos := min 64 (g.rpos + n) }
      let keep := if g.on || decide (g'.rpos < 64) then some g' else none
      setBitF .SUM_GEN_STAT_RUN 0 p.1 (g.on && g.mode != 0) { e with mix := { e.mix with gens := tput none e.mix.gens p.1 keep } }
    | none => e) e

end Sys2Proof.Machine
end

