-- ==== Sys2Proof/Machine/ItemDone.lean ====
section
/-! DEFINITION. The completion of items, the late check and output assembly (R52, R75–R79, R158, R285). -/
namespace Sys2Proof.Machine

/-! ### Completion (R158) -/

/-- The signals that the completed item of a kind delivers; for a bridge item the samples given say how many the channel made. -/
def workOf (i : Nat) (out : List (Nat × List Int)) (e : Engine) : Engine :=
  let d := admItem e i
  match dKind d with
  | 1 => runSumming d e
  | 2 => runBridge d (out.head?.map fun p => p.2.length) e
  | 4 => runMetering e
  | _ =>
    let e := out.foldl (fun e p => deliver p.1 p.2 e) e
    { e with sched := { e.sched with outs := tput none e.sched.outs i (some (out.map (·.1))) } }

/-- The item has ended normally: a cell item has issued `WAITW` outside a handler; another runs without an error response. -/
def itemEnded (e : Engine) (i : Nat) : Bool :=
  let r := getRun e i
  decide (r.st = .running) &&
    (if dKind (admItem e i) = 0 then (getCell e r.exec).item == some i && (getCell e r.exec).ended && (getCell e r.exec).handler.isNone
     else !r.err)

def effItemCompletion (i t : Nat) (out : List (Nat × List Int)) (e : Engine) : Engine :=
  if itemEnded e i then
    let e := if dKind (admItem e i) = 0 then commitAll (getRun e i).exec e else e
    completeItem i t (workOf i out e)
  else e

def execItemCompletion (item t : Nat) (out : List (Nat × List Int)) (s : State) : Host.Outcome State Fault Refusal :=
  runLive "ITEM_COMPLETION" (Instr.itemCompletion item t out).wf (effItemCompletion item t out) s

/-! ### The late check (R75, R76, R79) -/

/-- The item was released in the frame and has not completed. -/
def isLate (r : ItemRun) : Bool := [ItemSt.parked, .queued, .overflow, .slot, .held, .running].contains r.st

/-- A released item is late unless its cell has issued `WAITW`: it then counts as complete in the frame (R113). -/
def lateItem (e : Engine) (i : Nat) : Bool :=
  isLate (getRun e i) && !(dKind (admItem e i) == 0 && itemEnded e i)

def lateItems (e : Engine) : List Nat := (e.sched.run.map (·.1)).filter (lateItem e)

/-- The sources whose frame value depends on a late item or on one that did not run. -/
def deadSources (e : Engine) : List Nat :=
  (admIdx e).flatMap fun i =>
    let r := getRun e i
    if lateItem e i || (decide (r.st = .waiting) && !e.sched.shed.contains i) then outsOf e i else []

/-- Aborts one late item: its executor is free at the end of the window, and a cell that runs it takes the frame-abort interrupt, unless a
handler holds that up (R106, R111). -/
def abortLate (e : Engine) (i : Nat) : Engine :=
  let r := getRun e i
  let w := windowEnd e
  let cell := dKind (admItem e i) == 0
  let e := if r.st = .held ∨ (r.st = .slot ∧ dFeeds (admItem e i) ≠ 0) ∨ (r.st = .running ∧ !cell) then freeExec i w e else e
  let e := setRun i { r with st := .late }
    { e with sched := { e.sched with faults := e.sched.faults ++ [(i, 4)], overflow := e.sched.overflow.filter (· != i) } }
  if cell && decide (r.st = .running) then
    let c := r.exec
    let e := settleCell c (setCell c { getCell e c with frameAbort := true } e)
    if (getCell e c).handler.isSome then e
    else takeInterrupt c ((dueCause (getCell e c)).getD 4) w e
  else e

/-- The sink's mode of concealment: mute when an item whose signal it carries says so. -/
def sinkMute (e : Engine) (used : List Nat) : Bool :=
  (admIdx e).any fun i => dConc (admItem e i) == 1 && (outsOf e i).any fun s => used.contains s

/-- The end of a frame for a sink, its samples carried to the end and its gain point applied: concealment, fade-in and the counts
(R75, R77, R79, R193). -/
def closeSink (dead : List Nat) (e : Engine) (t : Nat) : Engine :=
  let n := sinkLen e t
  let k := sinkTo e t n (getSink e t)
  let e := setSink t k e
  let g := carriedOf e t
  let e := bumpF .SUM_STAT_GP_SAT 0 g.2 e
  let e := match boundGp e t with | some i => setGp i (gpTo e i n) e | none => e
  let late := k.used.any dead.contains
  let soft := k.used.any fun s => (getConc e s).now
  let bad := fun s => dead.contains s || (getConc e s).now
  let k := judgeCauses e (bad k.cur) (bad k.fb) k
  if late then
    let z := concealed k.conc.h k.conc.run (sinkMute e (k.used.filter dead.contains)) n
    setSink t { k with z := z, count := min (k.count + 1) (2 ^ 32 - 1),
                       conc := { k.conc with run := k.conc.run + 1, now := true } } (bumpF .SYS_CONCEAL_TOTAL_CONCEAL 0 1 e)
  else
    let z := if k.conc.now then fadedIn g.1 else g.1
    if soft then
      setSink t { k with z := z, count := min (k.count + 1) (2 ^ 32 - 1),
                         conc := { k.conc with run := k.conc.run + 1, now := false } } (bumpF .SYS_CONCEAL_TOTAL_CONCEAL 0 1 e)
    else setSink t { k with z := z, conc := { h := z.getLastD 0, run := 0, now := false, mute := false } } e

/-- Carries every gain point on to the end of the frame. -/
def closeGps (e : Engine) : Engine :=
  e.mix.gps.foldl (fun e p => setGp p.1 (gpTo e p.1 (gpLen e p.1)) e) e

/-- Event 0x0104 of a frame with late or aborted items: one event, of one of them; the spec does not say of which (R79). -/
def postLate (sinks : Nat) (e : Engine) : Engine :=
  match e.sched.faults with
  | [] => e
  | fs =>
    let p := takeFree e
    let f := fs.getD (p.1.toNat % fs.length) (0, 0)
    postEvent 0x0104 [2 ^ 50 * f.1 + 2 ^ 46 * f.2 + sinks] p.2

/-! ### Output assembly (R285, R382) -/

/-- What a sink puts out in the frame assembled for a member that has taken over warm: the epoch's value in the frames up to T + 2, then
the crossfade from it in the first computed frame. -/
def warmOut (e : Engine) (t : Nat) (ys : List Int) : List Int :=
  match e.pair.warmT with
  | none => if getF .PAIR_STAT_ROLE 0 e = 3 ∧ getF .PAIR_CFG_MODE 0 e = 1 ∧ !e.sched.running then ys.map fun _ => tget 0 e.pair.held t else ys
  | some w =>
    let h := tget 0 e.pair.held t
    let n := ys.length
    if frameNo e < w + 2 then ys.map fun _ => h
    else if frameNo e = w + 2 then ys.zipIdx.map fun p => rneDiv (h * ((n - p.2 - 1 : Nat) : Int) + p.1 * ((p.2 + 1 : Nat) : Int)) n
    else ys

/-- What a sink puts out: what it carried, and silence while the graph does not run (Table 15.6). -/
def outOf (e : Engine) (t : Nat) : List Int :=
  let z := (getSink e t).z
  warmOut e t (if e.sched.running then z else z.map fun _ => 0)

/-- Bytes of samples. -/
def sampleBytes (ys : List Int) : List Byte := ys.flatMap fun y => leBytes (y % 2 ^ 32).toNat 4

/-- Sinks of the port and fabric buffers that are silent have their sample positions 0. -/
def clearOut (e : Engine) : Engine :=
  let inPort := fun a : Nat => decide (0x20180000 ≤ a) && decide (a < 0x202C8000)
    && decide (a % 0x400 / 4 < domLen e (portDom e (0x1000 + (a - 0x20180000) / 0x400)).1)
  let inFab := fun a : Nat => decide (0x20400000 ≤ a) && decide (a < 0x20480000) && decide (a % 0x100 / 4 < frameLen e)
  { e with mem := e.mem.filter fun c => !(inPort c.1 || inFab c.1),
           ecc := e.ecc.filter fun c => !(inPort c.1 || inFab c.1) }

/-- One sink's values reach its transmit buffer. -/
def assembleSink (e : Engine) (t : Nat) : Engine :=
  let ys := outOf e t
  if t < 0x1000 then { e with mix := { e.mix with netTx := tput [] e.mix.netTx t ys } }
  else if t < 0x1520 then
    let e := store (outBuf t) (sampleBytes (ys.take 248)) e
    if (portDom e t).1 = 2 then store (outBuf t + 1020) (leBytes (min 248 ys.length) 4) e else e
  else if 0x1800 ≤ t ∧ t < 0x2000 then store (0x20400000 + 0x100 * (t - 0x1800)) (sampleBytes (ys.take (frameLen e))) e
  else e

def assemble (e : Engine) : Engine :=
  let e := clearOut { e with mix := { e.mix with netTx := [] }, fab := { e.fab with switchNow := e.fab.switchNow ++ e.fab.switch, switch := [] } }
  (e.mix.sinks.map fun p => p.1).foldl assembleSink e

/-- The late check, the sinks' frame values, the event of the frame, and output assembly. -/
def effLateCheck (e : Engine) : Engine :=
  let late := if e.sched.running then lateItems e else []
  let dead := if e.sched.running then deadSources e else []
  let e := refreshDepth (late.foldl abortLate e)
  let e := (e.mix.sinks.map fun p => p.1).foldl (closeSink dead) (closeGps e)
  let hit := (e.mix.sinks.filter fun p => p.2.conc.run != 0).length
  let e := if late.isEmpty then e else markFault (bumpF .SYS_LATE_FRAMES_LATE 0 1 e)
  let e := postLate hit e
  let e := { e with sched := { e.sched with faults := [], snap := { e.sched.snap with late := e.sched.snap.late + (if late.isEmpty then 0 else 1) } } }
  assemble e

def execLateCheck (s : State) : Host.Outcome State Fault Refusal :=
  runLive "LATE_CHECK" Instr.lateCheck.wf effLateCheck s

end Sys2Proof.Machine
end

