-- ==== Sys2Proof/Machine/Ports.lean ====
section
/-! DEFINITION. Audio ports (chapter 9): ids and configuration, the checks of `PORT_CFG` and `GROUP_START`, capture into the port buffers,
the words on the pins, states, groups, phase and clock faults. -/
namespace Sys2Proof.Machine

/-! ### Ids and configuration (Table 9.1, R288–R296) -/

/-- Kind of a port id: 0 serial, 1 PDM, 2 AES3, 3 MADI. -/
def portKind (p : Nat) : Nat := if p < 0x20 then 0 else if p < 0x28 then 1 else if p < 0x38 then 2 else 3

/-- The number of a port among those of its kind. -/
def portIdx (p : Nat) : Nat := match portKind p with
  | 0 => p
  | 1 => p - 0x20
  | 2 => p - 0x28
  | _ => p - 0x38

/-- First signal number of a port, and the signals it has (Table 9.1). -/
def portBase (p : Nat) : Nat := match portKind p with
  | 0 => 0x1000 + 32 * p
  | 1 => 0x1520 + 4 * portIdx p
  | 2 => 0x1400 + 2 * portIdx p
  | _ => 0x1420 + 64 * portIdx p
def portSize (p : Nat) : Nat := [32, 4, 2, 64].getD (portKind p) 0

/-- A field that the kinds of port have in registers of their own; PDM interfaces lack `d`. -/
def portFld (s d a m : Fld) (p : Nat) (e : Engine) : Nat :=
  getF ([s, d, a, m].getD (portKind p) s) (portIdx p) e

def portEn (e : Engine) (p : Nat) : Bool := portFld .PORT_SAPCFG_EN .PORT_PDMCFG_EN .PORT_AESCFG_EN .PORT_MADICFG_EN p e != 0
def portGroup (e : Engine) (p : Nat) : Nat := portFld .PORT_SAPCFG_GROUP .PORT_PDMCFG_GROUP .PORT_AESCFG_GROUP .PORT_MADICFG_GROUP p e

/-- The rate domain of a port's signals. -/
def domOfPort (e : Engine) (p : Nat) : Nat × Nat := portDom e (portBase p)

/-- The engine drives the port's clock: a serial master or a PDM interface (Table 9.2). -/
def portMaster (e : Engine) (p : Nat) : Bool := portKind p == 1 || (portKind p == 0 && isF .PORT_SAPCFG_MASTER p e)

/-- The port's transmitter is on; every enabled serial port transmits. -/
def portSends (e : Engine) (p : Nat) : Bool := match portKind p with
  | 0 => true
  | 1 => false
  | 2 => isF .PORT_AESCFG_TXEN (portIdx p) e
  | _ => isF .PORT_MADICFG_TXEN (portIdx p) e

/-- Channels of the configuration in use. -/
def portChans (e : Engine) (p : Nat) : Nat := match portKind p with
  | 0 => getF .PORT_SAPCFG_SLOTS p e + 1
  | 1 => 4
  | 2 => 2
  | _ => [56, 64, 32].getD (getF .PORT_MADICFG_CH (portIdx p) e) 0

/-- Bits of a word on the pins; a PDM interface has a 1-bit stream (R291) whose decimated samples are Q1.31. -/
def portBits (e : Engine) (p : Nat) : Nat := match portKind p with
  | 0 => [16, 24, 32].getD (getF .PORT_SAPCFG_W p e) 24
  | 1 => 32
  | _ => 24

/-- A rate of the 44.1 kHz family. -/
def is441 (hz : Nat) : Bool := hz % 44100 == 0

/-- The synthesiser of the family of a rate (R289). -/
def synthHz (hz : Nat) : Nat := if is441 hz then 270950400 else 294912000

/-- The clock `clk` is the synthesiser divided by an integer of at least 6. -/
def synthOk (hz clk : Nat) : Bool := clk != 0 && synthHz hz % clk == 0 && decide (6 ≤ synthHz hz / clk)

/-- The samples of a frame of a Foreign domain fit its buffer (R289). -/
def foreignFits (e : Engine) (hz : Nat) : Bool := decide (frameLen e * hz ≤ 248 * houseHz e)

def sapOk (e : Engine) (p v : Nat) : Bool :=
  let f := fun hi lo => v / 2 ^ lo % 2 ^ (hi - lo + 1)
  let slots := f 25 21 + 1
  let dom := (f 20 19, f 18 15)
  let hz := domHz e dom
  let bclk := slots * ([16, 24, 32].getD (f 27 26) 32) * hz
  let srcK := getF .ROUTE_FN_CFG_SRC (f 18 15) e
  let foreign := f 20 19 == 2
  decide (f 29 28 < 3) && decide (f 27 26 < 3) && decide (2 ≤ slots) && (f 29 28 == 2 || slots == 2) && decide (f 20 19 < 3)
    && decide (f 10 7 ≤ 8) && decide (1 ≤ f 6 0) && decide (bclk ≤ 49152000)
    && (f 30 30 == 0 || synthOk hz bclk)
    && (!foreign || (foreignFits e hz && (if f 30 30 = 1 then srcK == 4 else srcK == 0 && getF .ROUTE_FN_CFG_INDEX (f 18 15) e == p)))

def pdmOk (e : Engine) (v : Nat) : Bool :=
  let r := v / 2 ^ 28 % 8
  let clk := ([24, 32, 48, 64, 96, 128].getD r 0) * houseHz e
  decide (r < 6) && v / 2 ^ 11 % 2 ^ 15 == 0 && v % 128 == 0 && decide (v / 128 % 16 ≤ 8)
    && decide (1024000 ≤ clk) && decide (clk ≤ 6144000) && synthOk (houseHz e) clk

def aesOk (e : Engine) (madi : Bool) (v : Nat) : Bool :=
  let f := fun hi lo => v / 2 ^ lo % 2 ^ (hi - lo + 1)
  let hz := domHz e (f 20 19, f 18 15)
  let ch := if hz ≤ 48000 then decide (f 29 28 < 2) else f 29 28 == 2 && (hz == 88200 || hz == 96000)
  (if madi then ch && f 13 13 == 0 else f 29 28 == 0 && decide (hz ≤ 192000)) && f 27 21 == 0 && decide (f 20 19 < 3) && f 12 11 == 0
    && decide (f 10 7 ≤ 8) && decide (1 ≤ f 6 0) && (f 20 19 != 2 || foreignFits e hz)

/-- Sets the fields of a port's configuration register from its value (Tables 9.9–9.11). -/
def setPortCfg (p v : Nat) (e : Engine) : Engine :=
  let n := portIdx p
  let put := fun (l : List (Fld × Nat)) (e : Engine) => l.foldl (fun e (q : Fld × Nat) => setF q.1 n (v / 2 ^ q.2) e) e
  match portKind p with
  | 0 => put [(.PORT_SAPCFG_EN, 31), (.PORT_SAPCFG_MASTER, 30), (.PORT_SAPCFG_FMT, 28), (.PORT_SAPCFG_W, 26), (.PORT_SAPCFG_SLOTS, 21),
      (.PORT_SAPCFG_DOM, 19), (.PORT_SAPCFG_FN, 15), (.PORT_SAPCFG_FSINV, 14), (.PORT_SAPCFG_BEDGE, 13), (.PORT_SAPCFG_FSW, 12),
      (.PORT_SAPCFG_DLY, 11), (.PORT_SAPCFG_GROUP, 7), (.PORT_SAPCFG_QUAL, 0)] e
  | 1 => put [(.PORT_PDMCFG_EN, 31), (.PORT_PDMCFG_RATIO, 28), (.PORT_PDMCFG_MINPH, 27), (.PORT_PDMCFG_DCB, 26), (.PORT_PDMCFG_GROUP, 7)] e
  | 2 => put [(.PORT_AESCFG_EN, 31), (.PORT_AESCFG_TXEN, 30), (.PORT_AESCFG_DOM, 19), (.PORT_AESCFG_FN, 15), (.PORT_AESCFG_CSAUTO, 14),
      (.PORT_AESCFG_VTX, 13), (.PORT_AESCFG_GROUP, 7), (.PORT_AESCFG_QUAL, 0)] e
  | _ => put [(.PORT_MADICFG_EN, 31), (.PORT_MADICFG_TXEN, 30), (.PORT_MADICFG_CH, 28), (.PORT_MADICFG_DOM, 19), (.PORT_MADICFG_FN, 15),
      (.PORT_MADICFG_CSAUTO, 14), (.PORT_MADICFG_GROUP, 7), (.PORT_MADICFG_QUAL, 0)] e

/-- The value that a port's configuration register holds. -/
def portCfgWord (e : Engine) (p : Nat) : Nat :=
  let n := portIdx p
  let get := fun (l : List (Fld × Nat)) => l.foldl (fun v (q : Fld × Nat) => v + getF q.1 n e * 2 ^ q.2) 0
  match portKind p with
  | 0 => get [(.PORT_SAPCFG_EN, 31), (.PORT_SAPCFG_MASTER, 30), (.PORT_SAPCFG_FMT, 28), (.PORT_SAPCFG_W, 26), (.PORT_SAPCFG_SLOTS, 21),
      (.PORT_SAPCFG_DOM, 19), (.PORT_SAPCFG_FN, 15), (.PORT_SAPCFG_FSINV, 14), (.PORT_SAPCFG_BEDGE, 13), (.PORT_SAPCFG_FSW, 12),
      (.PORT_SAPCFG_DLY, 11), (.PORT_SAPCFG_GROUP, 7), (.PORT_SAPCFG_QUAL, 0)]
  | 1 => get [(.PORT_PDMCFG_EN, 31), (.PORT_PDMCFG_RATIO, 28), (.PORT_PDMCFG_MINPH, 27), (.PORT_PDMCFG_DCB, 26), (.PORT_PDMCFG_GROUP, 7)]
  | 2 => get [(.PORT_AESCFG_EN, 31), (.PORT_AESCFG_TXEN, 30), (.PORT_AESCFG_DOM, 19), (.PORT_AESCFG_FN, 15), (.PORT_AESCFG_CSAUTO, 14),
      (.PORT_AESCFG_VTX, 13), (.PORT_AESCFG_GROUP, 7), (.PORT_AESCFG_QUAL, 0)]
  | _ => get [(.PORT_MADICFG_EN, 31), (.PORT_MADICFG_TXEN, 30), (.PORT_MADICFG_CH, 28), (.PORT_MADICFG_DOM, 19), (.PORT_MADICFG_FN, 15),
      (.PORT_MADICFG_CSAUTO, 14), (.PORT_MADICFG_GROUP, 7), (.PORT_MADICFG_QUAL, 0)]

/-- The sources that a sink's routes name. -/
def sinkSources (k : Sink) : List Nat :=
  [k.cur, k.fb, k.out] ++ (k.pend.map (·.src)).toList ++ (k.act.map (·.src)).toList

/-- Every existing route still joins signals of one domain. -/
def routesJoin (e : Engine) : Bool := e.mix.sinks.all fun p => (sinkSources p.2).all fun s => joins e s p.1

/-- The status of a `PORT_CFG` record (R310). -/
def portCfgCheck (ws : List Word64) (e : Engine) : Nat :=
  let w0 := ws.getD 0 0
  let w1 := ws.getD 1 0
  let p := bits w0 63 56
  let v := w1.toNat % 2 ^ 32
  if 0x3C ≤ p then 0x0401
  else if bits w0 55 0 ≠ 0 ∨ bits w1 63 32 ≠ 0 then 0x0103
  else if !(match portKind p with
    | 0 => sapOk e p v
    | 1 => pdmOk e v
    | k => aesOk e (k == 3) v) then 0x0103
  else if routesJoin (setPortCfg p v e) then 0 else 0x0122

/-! ### Port records -/

def getPort (e : Engine) (p : Nat) : Port := tget Port.idle e.ports.port p
def setPort (p : Nat) (v : Port) (e : Engine) : Engine := { e with ports := { e.ports with port := tput Port.idle e.ports.port p v } }
def getGroup (e : Engine) (g : Nat) : Group := tget Group.idle e.ports.groups g
def setGroup (g : Nat) (v : Group) (e : Engine) : Engine := { e with ports := { e.ports with groups := tput Group.idle e.ports.groups g v } }

def portState (e : Engine) (p : Nat) : Nat := getF .PORT_STAT_STATE p e
/-- The port is in RUN. -/
def portRuns (e : Engine) (p : Nat) : Bool := portState e p == 2

/-- All port ids, and the signals that a port's configuration fills. -/
def allPorts : List Nat := List.range 0x3C
def portSrcs (e : Engine) (p : Nat) : List Nat := (List.range (min (portSize p) (portChans e p))).map (portBase p + ·)

def setFifo (s : Nat) (l : List Word) (e : Engine) : Engine := { e with mix := { e.mix with fifo := tput [] e.mix.fifo s l } }

/-- Discards what a port has captured. -/
def clearFifo (p : Nat) (e : Engine) : Engine :=
  (List.range (portSize p)).foldl (fun e c =>
    { e with mix := { e.mix with fifo := tput [] e.mix.fifo (portBase p + c) [], fifoNext := tput [] e.mix.fifoNext (portBase p + c) [] } }) e

/-- A signed value saturated to an n-bit field. -/
def satField (n : Nat) (v : Int) : Nat := ((satTo n v).1 % (2 ^ n : Nat)).toNat

/-- A frame-count second: frames until a report of R304 or R305 may follow another. -/
def secFrames (e : Engine) : Nat := ceilDiv (houseHz e) (frameLen e)

/-! ### Configuration applies (R298, R300, R302) -/

/-- The port goes to CLOCKED or DISABLED and starts afresh. -/
def restartPort (p : Nat) (e : Engine) : Engine :=
  let g := portGroup e p
  let e := clearFifo p (setF .PORT_STAT_STATE p (if portEn e p then 1 else 0) e)
  let e := setF .PORT_STAT_QUALD p (portMaster e p).toNat (setF .PORT_STAT_THETA p 0 (setF .PORT_STAT_RATEOFS p 0 e))
  let old := getPort e p
  setPort p { Port.idle with want := portEn e p && (g == 0 || (getGroup e (g - 1)).running), slips := old.slips, slipAt := old.slipAt,
                             phases := old.phases, phaseAt := old.phaseAt } e

/-- The CRC-8 of AES3 channel status over a byte, least significant bit first. PRESUMED (log entry 15): x^8 + x^4 + x^3 + x^2 + 1, from all ones. -/
def csCrcBit : Nat → Nat → Nat
  | 0, c => c
  | n + 1, c => csCrcBit n (if c % 2 = 1 then c / 2 ^^^ 0xB8 else c / 2)
def csCrc (bs : List Byte) : Nat := bs.foldl (fun c b => csCrcBit 8 (c ^^^ b.toNat)) 0xFF

/-- The channel-status block that a transmitter sends under CSAUTO (R295). PRESUMED (log entry 15): the field codes of AES3. -/
def csAuto (hz : Nat) (bs : List Byte) : List Byte :=
  let b0 := (bs.getD 0 0).toNat % 64 + (match hz with | 32000 => 0xC0 | 44100 => 0x40 | 48000 => 0x80 | _ => 0)
  let b4 := (bs.getD 4 0).toNat % 8 + (bs.getD 4 0).toNat / 128 * 128
    + (match hz with | 88200 => 0x50 | 96000 => 0x10 | 176400 => 0x58 | 192000 => 0x18 | _ => 0)
  let bs := (bs.set 0 (BitVec.ofNat 8 b0)).set 4 (BitVec.ofNat 8 b4)
  bs.set 23 (BitVec.ofNat 8 (csCrc (bs.take 23)))

/-- The transmitter of a port among those that send channel status. -/
def csIdx (p : Nat) : Nat := if portKind p = 3 then 16 + portIdx p else portIdx p

/-- The block that a transmitter sends (R295, R296), from the record's bytes. A MADI record has none (R310): its channels carry a block of the same
layout from zeros, always with the CRCC (DEDUCED, log 150). -/
def csBlock (e : Engine) (p : Nat) (bs : List Byte) : List Byte :=
  let hz := domHz e (domOfPort e p)
  if portKind p = 3 then
    let z := List.replicate 24 0
    if isF .PORT_MADICFG_CSAUTO (portIdx p) e then csAuto hz z else z.set 23 (BitVec.ofNat 8 (csCrc (z.take 23)))
  else if isF .PORT_AESCFG_CSAUTO (portIdx p) e then csAuto hz bs else bs

/-- A `PORT_CFG` record applies (R298, R302, R310). -/
def applyPortCfg (ws : List Word64) (e : Engine) : Engine :=
  let p := bits (ws.getD 0 0) 63 56
  let v := (ws.getD 1 0).toNat % 2 ^ 32
  let old := portCfgWord e p
  let leaves := portGroup e p != 0 && old / 2048 == v / 2048 && old % 128 == v % 128 && v / 128 % 16 == 0
  let bs := ((ws.drop 2).take 3).flatMap fun w => leBytes w.toNat 8
  let sameCs := portKind p != 2 || tget [] e.ports.csTx (portIdx p) == csBlock e p bs
  let e := setPortCfg p v e
  if leaves && sameCs then e
  else
    let e := if 2 ≤ portKind p then { e with ports := { e.ports with csTx := tput [] e.ports.csTx (csIdx p) (csBlock e p bs) } } else e
    restartPort p e

/-! ### Groups (R300–R302, R311) -/

/-- The first frame whose tick falls at or after a PTP time in ns, by the media-to-PTP mapping (R300, R360). -/
def ptpFrame (e : Engine) (ns : Nat) : Nat :=
  let d : Int := (2 ^ 32 * ns : Nat) - (e.ptp.t0 : Int)
  let pl := pullOf e
  -- samples × (2^32 · 10^9 · den)
  let num : Int := (e.ptp.n0 : Int) * ((2 ^ 32 * 10 ^ 9 * pl.2 : Nat) : Int) + d * ((houseHz e * pl.1 : Nat) : Int)
  (-((-num) / ((2 ^ 32 * 10 ^ 9 * pl.2 * frameLen e : Nat) : Int))).toNat

/-- The local clock is locked (R311). -/
def ptpLocked (e : Engine) : Bool := e.ptp.locked

def grpOf (ws : List Word64) : Nat := bits (ws.getD 0 0) 63 61
/-- The trigger that a record names: frame, PTP time, or START_SYNC edge. -/
def grpTrig (e : Engine) (ws : List Word64) : Trig :=
  match bits (ws.getD 0 0) 60 59 with
  | 0 => .frame (ws.getD 1 0).toNat
  | 1 => .frame (ptpFrame e (1000000000 * (ws.getD 1 0).toNat + (ws.getD 2 0).toNat))
  | _ => .sync (!bit (ws.getD 0 0) 58)

/-- The status of a `GROUP_START` (`start`) or `GROUP_STOP` record that applies at frame `a` (R311). -/
def groupCheck (start : Bool) (a : Nat) (ws : List Word64) (e : Engine) : Nat :=
  let w0 := ws.getD 0 0
  let k := bits w0 60 59
  let g := getGroup e (grpOf ws)
  if k = 3 ∨ bits w0 57 0 ≠ 0 ∨ (k ≠ 2 ∧ bit w0 58) ∨ (k = 1 ∧ 1000000000 ≤ (ws.getD 2 0).toNat) then 0x0103
  else if k = 0 ∧ (ws.getD 1 0).toNat < a + 2 then 0x0306
  else if k = 1 ∧ !ptpLocked e then 0x0601
  else if start ∧ (g.start.isSome ∨ g.running) then 0x0103
  else 0

/-- RESULT of a group record. -/
def groupResult (ws : List Word64) (e : Engine) : Nat := match grpTrig e ws with | .frame n => n | .sync _ => 0

/-- A group record applies: the group is armed, or its stop is set. -/
def applyGroup (start : Bool) (ws : List Word64) (e : Engine) : Engine :=
  let i := grpOf ws
  let g := getGroup e i
  if start then (if g.start.isSome || g.running then e else setGroup i { g with start := some (grpTrig e ws) } e)
  else setGroup i { g with stop := some (grpTrig e ws) } e

/-- Enabled members of group `g`. -/
def membersOfGroup (e : Engine) (g : Nat) : List Nat := allPorts.filter fun p => portEn e p && portGroup e p == g + 1

def trigDue (now : Nat) : Option Trig → Bool
  | some (.frame n) => decide (n ≤ now)
  | _ => false

/-- A group at a tick: its stop first, then its start. A member in MISMATCH stays there (R306; log entry 127). -/
def groupTick (e : Engine) (i : Nat) : Engine :=
  let now := frameNo e
  let g := getGroup e i
  let stops := trigDue now g.stop
  let e := if stops ∧ (g.running ∨ g.start.isSome) then
      let e := (membersOfGroup e i).foldl (fun e p =>
        if portState e p = 0 ∨ portState e p = 4 then e
        else clearFifo p (setPort p { getPort e p with want := false } (setF .PORT_STAT_STATE p 1 e))) e
      postEvent 0x0507 [2 ^ 61 * i, now] (setGroup i Group.idle e)
    else if stops then setGroup i { g with stop := none } e else e
  let g := getGroup e i
  if trigDue now g.start then
    let e := (membersOfGroup e i).foldl (fun e p => setPort p { getPort e p with want := true } e) e
    postEvent 0x0506 [2 ^ 61 * i, now] (setGroup i { g with start := none, running := true, startAt := now } e)
  else e

/-- An edge on START_SYNC in frame r names frame r + 2 (R300, R301). -/
def syncTrig (rising : Bool) (n : Nat) (t : Option Trig) : Option Trig :=
  match t with
  | some (.sync r) => if r = rising then some (.frame n) else t
  | t => t

def effStartSyncEdge (rising later : Bool) (e : Engine) : Engine :=
  let n := frameNo e + (if later then 3 else 2)
  [0, 1, 2, 3, 4, 5, 6, 7].foldl (fun e i =>
    let g := getGroup e i
    setGroup i { g with start := syncTrig rising n g.start, stop := syncTrig rising n g.stop } e) e

def execStartSyncEdge (rising later : Bool) (s : State) : Host.Outcome State Fault Refusal :=
  runLive "START_SYNC_EDGE" (Instr.startSyncEdge rising later).wf (effStartSyncEdge rising later) s

/-! ### Capture (R286, R287, R293, R303) -/

/-- A word of `w` bits enters the buffer MSB-justified (R286). -/
def justify (w word : Nat) : Word := BitVec.ofNat 32 (word % 2 ^ w * 2 ^ (32 - w))

/-- The port has a phase θ (R303). -/
def hasTheta (e : Engine) (p : Nat) : Bool := !portMaster e p && (domOfPort e p).1 != 2

/-- The time of t ns lies in the last two house samples of the frame, at the pulled rate. -/
def lastTwo (e : Engine) (t : Nat) : Bool :=
  decide (1000000000 * (frameLen e - 2) * (pullOf e).2 ≤ t * (houseHz e * (pullOf e).1))

/-- A captured sample joins the source's words that wait for their commit. -/
def captureWord (p ch : Nat) (x : Word) (theta : Int) (t : Nat) (e : Engine) : Engine :=
  if !portRuns e p || !decide (ch < portChans e p) then e
  else
    let q := getPort e p
    let e := if hasTheta e p then setF .PORT_STAT_THETA p (satField 10 (theta / 4)) (setPort p { q with theta := theta } e) else e
    if q.overran then e
    else
      let s := portBase p + ch
      let e := { e with ports := { e.ports with capLast := tput 0 e.ports.capLast s x } }
      if (domOfPort e p).1 = 2 && lastTwo e t then
        { e with mix := { e.mix with fifoNext := tput [] e.mix.fifoNext s (tget [] e.mix.fifoNext s ++ [x]) } }
      else setFifo s (tget [] e.mix.fifo s ++ [x]) e

/-- The oversampling ratio of a PDM interface (R291). -/
def pdmRatio (e : Engine) (p : Nat) : Nat := [24, 32, 48, 64, 96, 128].getD (getF .PORT_PDMCFG_RATIO (portIdx p) e) 32

/-- Bits of a microphone that the decimator looks back on: twice its group delay of 10 house samples, and one (Table 9.4). -/
def pdmSpan (r : Nat) : Nat := 20 * r + 1

/-- A coefficient of the decimator; of linear phase, it is symmetric. -/
def pdmTap (r : Nat) (minPh : Bool) (k : Nat) : Int := Config.pdmTap r minPh (if minPh then k else min k (20 * r - k))

/-- The decimated sample of the newest bits (R292): a weighted mean of ±1 whose weights are the device's own, so that a bit density d gives 2d − 1. -/
def decimate (r : Nat) (minPh : Bool) (bits : List Bool) : Int :=
  let ts := (bits.take (pdmSpan r)).zipIdx.map fun p => (pdmTap r minPh p.2, p.1)
  let all := ((List.range (pdmSpan r)).map (pdmTap r minPh)).foldl (· + ·) 0
  if all ≤ 0 then 0 else satQ31 (rneDiv ((ts.foldl (fun s p => if p.2 then s + p.1 else s - p.1) 0) * 2 ^ 31) all.toNat)

/-- The first-order high-pass filter of DCB at house rate `hz` (R292): its state is the last input, and the last output in 2⁻¹⁶ of a step. -/
def dcBlock (hz : Nat) (st : Int × Int) (x : Int) : Int × Int :=
  -- 2π × the corner over the rate, in 2^-40: 2π = 6283185.307 … 10^-6
  let k : Nat := 2 ^ 40 * 6283185 * (clamp 3600 4400 (Config.dcCorner hz)).toNat / (10 ^ 9 * hz)
  (x, st.2 + (x - st.1) * 65536 - rneDiv (st.2 * k) (2 ^ 40))

/-- The bits of `word` for one house sample of a microphone, the first of them the highest, reach the decimator and its filter. -/
def pdmSample (p ch word : Nat) (e : Engine) : Word × Engine :=
  let s := portBase p + ch
  let r := pdmRatio e p
  let bs := ((List.range r).map fun i => word.testBit i) ++ tget [] e.ports.pdmBits s
  let x := decimate r (isF .PORT_PDMCFG_MINPH (portIdx p) e) bs
  let e := { e with ports := { e.ports with pdmBits := tput [] e.ports.pdmBits s (bs.take (pdmSpan 128)) } }
  if isF .PORT_PDMCFG_DCB (portIdx p) e then
    let st := dcBlock (houseHz e) (tget (0, 0) e.ports.pdmDc s) x
    (BitVec.ofInt 32 (satQ31 (rneDiv st.2 65536)), { e with ports := { e.ports with pdmDc := tput (0, 0) e.ports.pdmDc s st } })
  else (BitVec.ofInt 32 x, { e with ports := { e.ports with pdmDc := tput (0, 0) e.ports.pdmDc s (0, 0) } })

/-- A received word of a serial port or MADI interface, or the bits of a microphone in one house sample (R286, R291, R292, R296). Bit 24 of a MADI
word marks its channel inactive. -/
def effPortWordCapture (p ch word : Nat) (theta : Int) (t : Nat) (e : Engine) : Engine :=
  if portKind p = 1 then
    if !portRuns e p || !decide (ch < 4) then e else let y := pdmSample p ch word e; captureWord p ch y.1 theta t y.2
  else captureWord p ch (if portKind p = 3 ∧ word / 2 ^ 24 % 2 = 1 then 0 else justify (portBits e p) word) theta t e

def execPortWordCapture (port ch word : Nat) (theta : Int) (t : Nat) (s : State) : Host.Outcome State Fault Refusal :=
  runLive "PORT_WORD_CAPTURE" (Instr.portWordCapture port ch word theta t).wf (effPortWordCapture port ch word theta t) s

/-- A received AES3 subframe (R293). -/
def effAes3Subframe (n sub word : Nat) (parityErr v : Bool) (theta : Int) (t : Nat) (e : Engine) : Engine :=
  let p := 0x28 + n
  if portEn e p then
    let e := setF (if sub = 0 then .PORT_AESSTAT_VA else .PORT_AESSTAT_VB) n v.toNat e
    let e := if parityErr then bumpF .PORT_AESSTAT_PARERR n 1 e else e
    captureWord p sub (if parityErr then tget 0 e.ports.capLast (portBase p + sub) else justify 24 word) theta t e
  else e

def execAes3Subframe (n sub word : Nat) (parityErr v : Bool) (theta : Int) (t : Nat) (s : State) : Host.Outcome State Fault Refusal :=
  runLive "AES3_SUBFRAME" (Instr.aes3Subframe n sub word parityErr v theta t).wf (effAes3Subframe n sub word parityErr v theta t) s

/-- The received channel-status bytes of subframe A (Table 9.16). -/
def csOfA (e : Engine) (n : Nat) : List Byte := (List.range 6).flatMap fun w => leBytes (getF .PORT_AESCS_CS (8 * n + w) e) 4

/-- A channel-status block of 192 frames (R294). PRESUMED (log entry 15): bit 0 of byte 0 marks a professional block, bits 1:0 of byte 4 are its
reference grade and bits 7:6 of byte 0 its sampling-frequency code. -/
def takeStatus (n sub : Nat) (bytes : List Byte) (crcOk : Bool) (e : Engine) : Engine :=
  if !portEn e (0x28 + n) then e
  else if !crcOk then bumpF .PORT_AESSTAT_CRCERR n 1 e
  else if sub = 0 then
    let b := fun i => (bytes.getD i 0).toNat
    let pro := b 0 % 2
    let e := if csOfA e n = bytes then e else
      postEvent 0x0508 (2 ^ 56 * (0x28 + n) :: (List.range 3).map fun j => leNat ((bytes.drop (8 * j)).take 8)) e
    let e := (List.range 6).foldl (fun e w => setF .PORT_AESCS_CS (8 * n + w) (leNat ((bytes.drop (4 * w)).take 4)) e) e
    let e := setF .PORT_AESSTAT_FS n (b 0 / 64) (setF .PORT_AESSTAT_PRO n pro e)
    let e := setF .PORT_AESSTAT_GRADE n (if pro = 1 then b 4 % 4 else 0) e
    match tget [] e.ports.csB n with
    | [] => e
    | bb => setF .PORT_AESSTAT_CSDIFF n (bb != bytes).toNat e
  else setF .PORT_AESSTAT_CSDIFF n (bytes != csOfA e n).toNat { e with ports := { e.ports with csB := tput [] e.ports.csB n bytes } }

/-! ### Qualification and clock faults (R297, R306–R308) -/

/-- The Foreign domains whose clock the port is: SRC 0 to 2 and its number (Table 6.12). -/
def fnOfPort (e : Engine) (p : Nat) : List Nat :=
  let src := match portKind p with | 0 => 0 | 2 => 1 | _ => 2
  (List.range 16).filter fun k => portKind p != 1 && isF .ROUTE_FN_CFG_EN k e && getF .ROUTE_FN_CFG_SRC k e == src
    && getF .ROUTE_FN_CFG_INDEX k e == portIdx p

/-- A port with an external clock, in a state other than DISABLED. -/
def measured (e : Engine) (p : Nat) : Bool := !portMaster e p && portState e p != 0

/-- The slave clock has run for QUAL × 10 ms; `ofs` is its rate offset in 0.1 ppm. -/
def effQualification (p : Nat) (ofs : Int) (e : Engine) : Engine :=
  if measured e p ∧ ((domOfPort e p).1 = 2 ∨ ofs.natAbs ≤ 10000) then
    let e := setF .PORT_STAT_QUALD p 1 (setF .PORT_STAT_RATEOFS p (satField 16 ofs) e)
    let e := if portKind p = 2 then setF .PORT_AESSTAT_LOCK (portIdx p) 1 e else e
    (fnOfPort e p).foldl (fun e k => setF .ROUTE_FN_STAT_OFFSET k (satField 24 (ofs * 10)) (setF .ROUTE_FN_STAT_PRESENT k 1 e)) e
  else e

def execQualification (port : Nat) (ofs : Int) (s : State) : Host.Outcome State Fault Refusal :=
  runLive "QUALIFICATION" (Instr.qualification port ofs).wf (effQualification port ofs) s

/-- The sources of a port are declared lost. -/
def losePort (p : Nat) (e : Engine) : Engine := (portSrcs e p).foldl (fun e s => declareLost s e) e

/-- No valid word start for more than two frame periods: in RUN the port goes to LOST at the next tick. -/
def clockStopped (p : Nat) (e : Engine) : Engine :=
  if measured e p then
    let e := setF .PORT_STAT_QUALD p 0 e
    let e := if portKind p = 2 then setF .PORT_AESSTAT_LOCK (portIdx p) 0 e else e
    let e := (fnOfPort e p).foldl (fun e k => setF .ROUTE_FN_STAT_LOST k 1 (setF .ROUTE_FN_STAT_PRESENT k 0 e)) e
    if portRuns e p ∧ !(getPort e p).stop then
      losePort p (postEvent 0x0503 [2 ^ 56 * p] (setPort p { getPort e p with stop := true } e))
    else e
  else e

/-- A word period off by more than 1 bit, or a coding violation: the clock has to qualify anew (R297). -/
def effGlitch (p : Nat) (e : Engine) : Engine :=
  if measured e p then
    let e := setF .PORT_STAT_QUALD p 0 e
    if portRuns e p then setPort p { getPort e p with glitch := true } e else e
  else e

def execGlitch (port : Nat) (s : State) : Host.Outcome State Fault Refusal :=
  runLive "GLITCH" (Instr.glitch port).wf (effGlitch port) s

/-- The measured rate of two consecutive windows of 1024 words: shown in `PORT_STATp.RATEOFS` (Table 9.12), and a mismatch when it lies
outside ±1000 ppm in H or D (R306). -/
def effRateMismatch (p : Nat) (ofs : Int) (e : Engine) : Engine :=
  if measured e p then
    let e := setF .PORT_STAT_RATEOFS p (satField 16 ofs) e
    if (domOfPort e p).1 = 2 ∨ ofs.natAbs ≤ 10000 then e
    else if portRuns e p then setPort p { getPort e p with mism := some ofs } e else setF .PORT_STAT_QUALD p 0 e
  else e

def execRateMismatch (port : Nat) (ofs : Int) (s : State) : Host.Outcome State Fault Refusal :=
  runLive "RATE_MISMATCH" (Instr.rateMismatch port ofs).wf (effRateMismatch port ofs) s

/-- The output store of a port from word `k` of the frame on (R305): run dry, it sends its last word again; too full, it discards words. -/
def outStore (p : Nat) (ahead : Bool) (k : Nat) (e : Engine) : Engine :=
  (List.range (portSize p)).foldl (fun e c =>
    let t := portBase p + c
    let ys := tget [] e.ports.pins t
    let head := ys.take (k % (ys.length + 1))
    let ys := if ahead then head ++ List.replicate (ys.length - head.length) (head.getLastD 0) else head
    { e with ports := { e.ports with pins := tput [] e.ports.pins t ys } }) e

/-- |θ| has reached 4 within a frame (R305). The command does not say at which word: a free value. -/
def effElasticOverrun (p : Nat) (ahead : Bool) (e : Engine) : Engine :=
  if portRuns e p && hasTheta e p then
    let k := takeFree e
    outStore p ahead k.1.toNat (setPort p (if ahead then { getPort e p with overran := true } else { getPort e p with under := true }) k.2)
  else e

def execElasticOverrun (port : Nat) (ahead : Bool) (s : State) : Host.Outcome State Fault Refusal :=
  runLive "ELASTIC_OVERRUN" (Instr.elasticOverrun port ahead).wf (effElasticOverrun port ahead) s

/-! ### The port engine at a frame tick -/

/-- The words of the frame that a source's input buffer holds. -/
def heldWords (e : Engine) (s : Nat) : List Word :=
  let d := portDom e s
  (wordsAt e (inBuf s) (if d.1 = 2 then min 248 (read32 e (inBuf s + 1020)) else domLen e d.1)).map fun v => BitVec.ofInt 32 v

/-- Drops `n` samples of a port's captured words (n above 0) or repeats the last sample committed (n below 0), on all channels. -/
def shiftPort (p : Nat) (n : Int) (e : Engine) : Engine :=
  (portSrcs e p).foldl (fun e s =>
    let l := tget [] e.mix.fifo s
    setFifo s (if 0 ≤ n then l.drop n.toNat else List.replicate (-n).toNat ((heldWords e s).getLastD 0) ++ l) e) e

/-- Reports of slips and of re-phases, each at most once a second (R304, R305). -/
def reportPort (p : Nat) (e : Engine) : Engine :=
  let q := getPort e p
  let now := frameNo e
  let due := fun at_ : Nat => at_ == 0 || decide (at_ - 1 + secFrames e ≤ now)
  let e := if 0 < q.slips ∧ due q.slipAt then
      postEvent 0x0501 [2 ^ 56 * p + q.slips % 2 ^ 32] (setPort p { q with slips := 0, slipAt := now + 1 } e) else e
  let q := getPort e p
  if 0 < q.phases ∧ due q.phaseAt then
    postEvent 0x0502 [2 ^ 56 * p + 2 ^ 32 * satField 16 q.phShift + q.phases % 2 ^ 32] (setPort p { q with phases := 0, phaseAt := now + 1 } e)
  else e

/-- Words that the buffer lacks after an overrun: the spec says only that the store discards incoming words. -/
def padFree (p : Nat) (e : Engine) : Engine :=
  (portSrcs e p).foldl (fun e s =>
    let l := tget [] e.mix.fifo s
    let n := domLen e (domOfPort e p).1 + 2 * (domLen e (domOfPort e p).1 / frameLen e) - l.length
    let pad := (List.range n).map fun j => (Config.freeValue (e.free + j)).setWidth 32
    setFifo s (l ++ pad) { e with free := e.free + n }) e

/-- Words that an underrun leaves out hold the last captured sample (R305). -/
def padLast (p : Nat) (e : Engine) : Engine :=
  (portSrcs e p).foldl (fun e s =>
    let l := tget [] e.mix.fifo s
    let n := domLen e (domOfPort e p).1 + 2 * (domLen e (domOfPort e p).1 / frameLen e) - l.length
    setFifo s (l ++ List.replicate n (tget 0 e.ports.capLast s)) e) e

/-- A glitch is taken: the input frame, of a Foreign port all its words, is replaced by the previous one, and the port re-phases at the next
tick. -/
def takeGlitch (p : Nat) (e : Engine) : Engine :=
  let d := domOfPort e p
  let e := (portSrcs e p).foldl (fun e s =>
    setFifo s (heldWords e s ++ if d.1 = 2 then [] else (tget [] e.mix.fifo s).drop (domLen e d.1)) e) e
  let e := bumpF .PORT_XRUN_GLITCH p 1 (markFault <| bumpF .PORT_SLIP_SLIPS p 1 e)
  setPort p { getPort e p with rephase := true, slips := (getPort e p).slips + 1 } e

/-- The θ of a port moves by whole samples toward 0. -/
def moveTheta (p : Nat) (n : Int) (e : Engine) : Engine :=
  let th := (getPort e p).theta - n * 256
  setF .PORT_STAT_THETA p (satField 10 (th / 4)) (setPort p { getPort e p with theta := th } e)

/-- Samples, signed, that a re-phase drops or repeats: as many as bring |θ| to at most 0.5. -/
def rephaseBy (theta : Int) : Int :=
  let n := (ceilDiv (theta.natAbs - 128) 256 : Nat)
  if 0 ≤ theta then n else -(n : Int)

/-- The faults of one port that fall due at the tick, the first in the order of R307; the answer's number is what the output repeats (above
0) or drops in the frame that starts. -/
def portFault (e : Engine) (p : Nat) : Engine :=
  let q := getPort e p
  let clear := fun e : Engine => setPort p { getPort e p with reset := false, stop := false, mism := none, glitch := false, overran := false, under := false } e
  if q.reset then
    -- a re-initialised port waits in CLOCKED until the function resumes (Table 15.9)
    let e := restartPort p e
    if resetting e 1 p then setPort p { getPort e p with want := false } e else e
  else if !portRuns e p then clear e
  else if q.stop then
    clear (clearFifo p (setF .PORT_STAT_LOSTS p 1 (setF .PORT_STAT_STATE p 3 (markFault e))))
  else if let some ofs := q.mism then
    let e := setF .PORT_STAT_QUALD p 0 (setF .PORT_STAT_MISMS p 1 (setF .PORT_STAT_STATE p 4 e))
    clear (clearFifo p (losePort p (postEvent 0x0505 [2 ^ 56 * p + (ofs % 2 ^ 32).toNat] e)))
  else if q.glitch then clear (takeGlitch p (if q.rephase then setPort p { q with rephase := false } e else e))
  else if q.rephase ∨ 448 ≤ q.theta.natAbs ∨ q.overran ∨ q.under then
    let n := rephaseBy q.theta
    -- words that the input store discarded or lacked have moved the capture already
    let e := if q.overran then padFree p e else if q.under then padLast p e else shiftPort p n e
    let e := bumpF .PORT_XRUN_XRUN p 1 (markFault <| moveTheta p n e)
    clear (setPort p { getPort e p with rephase := false, phases := (getPort e p).phases + 1, phShift := n } e)
  else if 192 < q.theta.natAbs then
    let n : Int := if 0 < q.theta then 1 else -1
    let e := bumpF .PORT_SLIP_SLIPS p 1 (markFault <| moveTheta p n (shiftPort p n e))
    clear (setPort p { getPort e p with slips := (getPort e p).slips + 1 } e)
  else e

/-- Samples that a port's output repeats (above 0) or drops in the frame that starts: the move of θ by its fault. -/
def outShift (e e' : Engine) (p : Nat) : Int :=
  ((getPort e p).theta - (getPort e' p).theta) / 256

/-- A word as the pins carry it (R286): RNE to the word width, saturated. -/
def pinWord (w : Nat) (x : Int) : Int := (satTo w (rne x (32 - w))).1

/-- What an AES3 or MADI output sends beside its words (R295, R296, R351): VTX and the block of channel status, or what an AM824 stream passes. -/
def txStatus (e : Engine) (p c : Nat) : TxStatus :=
  let n := portIdx p
  { v := portKind p == 2 && isF .PORT_AESCFG_VTX n e
    vuc := if portKind p = 2 then tget [] e.ports.vuc (2 * n + c) else []
    cs := tget [] e.ports.csTx (csIdx p) }

/-- The words that a port puts on its pins in the frame that starts: the previous frame's output buffers (R285, R299, Table 9.5). `n` is the
port's output slip. The spec gives no words for an AES3 or MADI transmitter whose receiver is LOST: the buffer's words or 0. -/
def emitPort (n : Int) (e : Engine) (p : Nat) : Engine :=
  let d := domOfPort e p
  let st := portState e p
  let lost := st == 3 && portKind p != 0
  let pf := takeFree e
  let e := if lost then pf.2 else e
  let data := st == 2 || (lost && pf.1.getLsbD 0)
  let idle := portKind p != 0 && d.1 == 2 && getF .ROUTE_FN_CFG_SRC d.2 e != 4
  let quiet := !portEn e p || !portSends e p || (st == 3 && portKind p == 0) || st == 0 || idle
  (List.range (portSize p)).foldl (fun e c =>
    let t := portBase p + c
    let ys : List Int :=
      if quiet || !decide (c < portChans e p) then []
      else
        let ys := wordsAt e (outBuf t) (if d.1 = 2 then min 248 (read32 e (outBuf t + 1020)) else domLen e d.1)
        let ys := if data then ys.map (pinWord (portBits e p)) else ys.map fun _ => 0
        if 0 ≤ n then ys ++ List.replicate n.toNat (ys.getLastD 0) else ys.take (ys.length - (-n).toNat)
    let st := if portKind p < 2 || quiet || !decide (c < portChans e p) then none else some (txStatus e p c)
    { e with ports := { e.ports with pins := tput [] e.ports.pins t ys, sent := tput none e.ports.sent t st } }) e

/-- The faults of all ports at a tick, and the words that each sends in the frame that starts: the frame of the fault sends what its
state and slip say. -/
def portFaults (e : Engine) : Engine :=
  allPorts.foldl (fun e p =>
    let e' := portFault e p
    let n := outShift e e' p
    reportPort p (setPort p { getPort e' p with shift := n } e')) e

/-- Input commit (R285): the words captured in the frame that ended reach the input buffer; a word that did not come is 0. The last word of the
frame before it stays known (R185). -/
def commitSource (runs : Bool) (e : Engine) (s : Nat) : Engine :=
  let d := portDom e s
  let l := tget [] e.mix.fifo s
  let n := if d.1 = 2 then min 248 l.length else domLen e d.1
  let ys := if runs then l.take n ++ List.replicate (n - l.length) 0 else List.replicate n 0
  let old := if d.1 = 2 then min 248 (read32 e (inBuf s + 1020)) else n
  let ys' := ys ++ List.replicate (old - ys.length) 0
  let last := if old = 0 then 0 else signed 32 (read32 e (inBuf s + 4 * (old - 1)))
  let e := { e with mix := { e.mix with prevSrc := tput 0 e.mix.prevSrc s last } }
  let e := if ys'.all (· == 0) && (readBytes e (inBuf s) (4 * ys'.length)).all (· == 0) then e
    else store (inBuf s) (ys'.flatMap fun w => leBytes w.toNat 4) e
  let e := if d.1 = 2 then store (inBuf s + 1020) (leBytes n 4) e else e
  { e with mix := { e.mix with
      fifo := tput [] e.mix.fifo s (if runs then (if d.1 = 2 then tget [] e.mix.fifoNext s else l.drop n) else [])
      fifoNext := if d.1 = 2 then tput [] e.mix.fifoNext s [] else e.mix.fifoNext } }

/-- The input buffers of every port that runs or whose buffers hold samples. -/
def inputCommit (e : Engine) : Engine :=
  allPorts.foldl (fun e p =>
    if portEn e p || portState e p != 0 then
      (List.range (portSize p)).foldl (fun e c =>
        commitSource (portRuns e p && decide (c < portChans e p)) e (portBase p + c)) e
    else
      { e with mem := e.mem.filter fun b => !(decide (inBuf (portBase p) ≤ b.1) && decide (b.1 < inBuf (portBase p + portSize p))) }) e

/-- A port enters RUN when it is wanted and qualified, and returns to it from LOST (R298, R300, R308). -/
def portStart (e : Engine) (p : Nat) : Engine :=
  let q := getPort e p
  let st := portState e p
  let go := isF .PORT_STAT_QUALD p e && ((st == 1 && q.want) || st == 3)
  if go then
    let g := portGroup e p
    let d := domOfPort e p
    let k := if d.1 = 2 then 0 else 2 * (domLen e d.1 / frameLen e)
    let e := (portSrcs e p).foldl (fun e s => declareFound s (setFifo s (List.replicate k 0) e)) (clearFifo p e)
    let e := setPort p { q with theta := 0, rephase := false,
                                start := if st = 3 then q.start else if g = 0 then frameNo e else (getGroup e (g - 1)).startAt } e
    let e := setF .PORT_STAT_THETA p 0 (setF .PORT_STAT_STATE p 2 e)
    if st = 3 then postEvent 0x0504 [2 ^ 56 * p] e else e
  else e

/-- Groups and starts at a tick, after the frame's directives have applied; then input commit and the words on the pins. -/
def portTick (e : Engine) : Engine :=
  let e := [0, 1, 2, 3, 4, 5, 6, 7].foldl groupTick e
  let e := inputCommit e
  let e := allPorts.foldl portStart e
  allPorts.foldl (fun e p => emitPort (getPort e p).shift (setPort p { getPort e p with shift := 0 } e) p) e

end Sys2Proof.Machine
end

