-- ==== Sys2Proof/Machine/Clock.lean ====
section
/-! DEFINITION. Clock and reference management (chapter 10): reference slots, quality levels, selection, transitions of the DPLL,
holdover, the video cadence, and the checks of `REF_CFG` and `REF_PRIO`. -/
namespace Sys2Proof.Machine

/-! ### Reference slots (R314–R323) -/

def getSlot (e : Engine) (n : Nat) : RefSlot := tget RefSlot.idle e.clk.slots n
def setSlot (n : Nat) (v : RefSlot) (e : Engine) : Engine := { e with clk := { e.clk with slots := tput RefSlot.idle e.clk.slots n v } }

def refType (e : Engine) (n : Nat) : Nat := getF .CLK_REFCFG_TYPE n e
def refInst (e : Engine) (n : Nat) : Nat := getF .CLK_REFCFG_INST n e
def refEn (e : Engine) (n : Nat) : Bool := isF .CLK_REFCFG_EN n e
def refQual (e : Engine) (n : Nat) : Bool := isF .CLK_REFSTAT_QUAL n e

/-- Twice the nominal frequency of a slot of MULT as a fraction: f_H × 2^j, with f_H the pulled house rate (R315). -/
def refHz2 (e : Engine) (mult : Nat) : Nat × Nat := (houseHz e * (pullOf e).1 * [2, 4, 8, 1].getD mult 2, (pullOf e).2)

/-- The nominal frequency lies within the limit of Table 10.1. -/
def refHzOk (e : Engine) (ty mult : Nat) : Bool :=
  let f := refHz2 e mult
  if ty = 0 ∨ ty = 2 then decide (f.1 ≤ 384000 * f.2)
  else if ty = 3 then decide (f.1 ≤ 192000 * f.2) else true

/-- The QL that a PTP master's class and accuracy give (R318). -/
def ptpQlFrom (e : Engine) (cls acc : Nat) : Nat → Nat
  | 0 => 15
  | k + 1 =>
    let i := 15 - k
    if isF .CLK_PTPQL_EN i e && getF .CLK_PTPQL_CLASS i e == cls && decide (acc ≤ getF .CLK_PTPQL_ACCMAX i e) then getF .CLK_PTPQL_QL i e
    else ptpQlFrom e cls acc k

/-- The base QL of a slot (Table 10.2). -/
def baseQl (e : Engine) (n : Nat) : Nat :=
  if refType e n = 5 then (if isF .CLK_REFCFG_QLSRC n e then e.clk.fabQl else getF .CLK_REFCFG_QLPROV n e)
  else if !isF .CLK_REFCFG_QLSRC n e then getF .CLK_REFCFG_QLPROV n e
  else match refType e n with
    | 2 => match getF .PORT_AESSTAT_GRADE (refInst e n) e with
      | 1 => getF .CLK_AESQL_GRADE1 0 e
      | 2 => getF .CLK_AESQL_GRADE2 0 e
      | _ => 15
    | 4 => match (tget PtpInst.off e.ptp.inst (refInst e n)).master with
      | some a => ptpQlFrom e a.cls a.acc 16
      | none => 15
    | _ => getF .CLK_REFCFG_QLPROV n e

/-- The port whose receiver an AES3 or MADI slot listens to has EN = 0 (R316). -/
def receiverOff (e : Engine) (n : Nat) : Bool :=
  match refType e n with
  | 2 => !portEn e (0x28 + refInst e n)
  | 3 => !portEn e (0x38 + refInst e n)
  | _ => false

/-- The cause of a slot's disqualification (Table 10.17), 0 when the slot is qualified and 8 when it is not enabled. -/
def refCause (e : Engine) (n : Nat) : Nat :=
  let ofs := signed 32 (getF .CLK_REFOFS_OFS n e)
  if !refEn e n then 8
  else if refType e n = 5 ∧ isF .FAB_NODE_TM 0 e then 6
  else if !isF .CLK_REFSTAT_PRESENT n e then 1
  else if 1000 * getF .CLK_DRIFT_HARD 0 e < ofs.natAbs then 2
  else if baseQl e n = 15 then 3
  else if (getSlot e n).acqFail then 4
  else if !refHzOk e (refType e n) (getF .CLK_REFCFG_MULT n e) then 5
  else 0

/-- OUTQL of the DPLL's state (R319). -/
def outQl (e : Engine) : Nat :=
  match getF .CLK_STAT_STATE 0 e with
  | 0 => getF .CLK_SEL_OSCQL 0 e
  | 1 => getF .CLK_REFSTAT_EQL (getF .CLK_STAT_SEL 0 e) e
  | _ => max (getF .CLK_SEL_HOQL 0 e) e.clk.lastEql

/-- Keeps OUTQL, and the EQL that the locked slot had when it was last good, up to date. -/
def refreshOutQl (e : Engine) : Engine :=
  let e := if getF .CLK_STAT_STATE 0 e = 1 ∧ refQual e (getF .CLK_STAT_SEL 0 e) then { e with clk := { e.clk with lastEql := getF .CLK_REFSTAT_EQL (getF .CLK_STAT_SEL 0 e) e } } else e
  setF .CLK_STAT_OUTQL 0 (outQl e) e

/-- Brings a slot's QL, qualification and eligibility up to date (R317, R319, R323). The fabric time master's own fabric slot shows cause 6 even if
it was never qualified (R316). -/
def evalSlot (e : Engine) (n : Nat) : Engine :=
  let e := if receiverOff e n ∧ isF .CLK_REFSTAT_PRESENT n e then setF .CLK_REFSTAT_LOSS n 1 (setF .CLK_REFSTAT_PRESENT n 0 e) else e
  let b := baseQl e n
  let q := if isF .CLK_REFSTAT_SOFT n e then min 15 (b + 2) else b
  let e := setF .CLK_REFSTAT_EQL n q (setF .CLK_REFSTAT_BQL n b e)
  let cause := refCause e n
  let e := if cause = 6 then setF .CLK_REFRATE_CAUSE n 6 e else e
  let was := refQual e n
  let e : Engine :=
    if cause = 0 ∧ !was then
      let w := getF .CLK_REFCFG_WTR n e
      let e := setF .CLK_REFSTAT_QUAL n 1 (setF .CLK_REFSTAT_WTRREM n w (setSlot n { getSlot e n with waiting := w != 0, wtrFrom := e.sample, wtrLen := w } e))
      postEvent 0x0602 [2 ^ 61 * n + 2 ^ 60 + 2 ^ 56 * getF .CLK_REFRATE_CAUSE n e] e
    else if cause ≠ 0 ∧ was then
      let e := setF .CLK_REFSTAT_QUAL n 0 (setF .CLK_REFSTAT_WTRREM n 0 (setSlot n { getSlot e n with waiting := false } e))
      let e := if cause = 8 then e else setF .CLK_REFRATE_CAUSE n cause e
      postEvent 0x0602 [2 ^ 61 * n + 2 ^ 56 * getF .CLK_REFRATE_CAUSE n e] e
    else e
  let elig := refQual e n && !(getSlot e n).waiting && decide (q ≤ getF .CLK_SEL_QLTHR 0 e)
  refreshOutQl (setF .CLK_REFSTAT_ELIG n elig.toNat e)

/-- The seconds left of the wait-to-restore timers, by the house samples that have passed (Table 10.16). -/
def wtrTick (e : Engine) (n : Nat) : Engine :=
  let k := getSlot e n
  if k.waiting then
    let pl := pullOf e
    setF .CLK_REFSTAT_WTRREM n (k.wtrLen - (e.sample - k.wtrFrom) * pl.2 / (houseHz e * pl.1)) e
  else e

/-- `ROUTE_FN_STATk` of the Foreign domains that take their clock from a word-clock input (R200), as the slot that watches the input finds it. -/
def wordFns (e : Engine) (n : Nat) : List Nat :=
  if refType e n = 0 then (List.range 16).filter fun k =>
    isF .ROUTE_FN_CFG_EN k e && getF .ROUTE_FN_CFG_SRC k e == 3 && getF .ROUTE_FN_CFG_INDEX k e == refInst e n
  else []

def wordLost (n : Nat) (e : Engine) : Engine :=
  (wordFns e n).foldl (fun e k => setF .ROUTE_FN_STAT_LOST k 1 (setF .ROUTE_FN_STAT_PRESENT k 0 e)) e

def wordFound (n : Nat) (e : Engine) : Engine := (wordFns e n).foldl (fun e k => setF .ROUTE_FN_STAT_PRESENT k 1 e) e

/-- The offset of a word clock from NOM in 0.01 ppm, as the house clock measures it: both are known against OSC_IN, the input in 0.001 ppm. -/
def wordOffset (e : Engine) (n k : Nat) (ofs : Int) : Int :=
  let f := refHz2 e (getF .CLK_REFCFG_MULT n e)
  let nom := 2 * nomHz (getF .ROUTE_FN_CFG_NOM k e) * f.2
  roundDiv (((f.1 : Int) - (nom : Int)) * 10 ^ 8 * 1000 + (f.1 : Int) * (100 * ofs - signed 32 (getF .CLK_FREQ_FREQ 0 e) / 10)) (nom * 1000)

def wordMeasured (n : Nat) (ofs : Int) (e : Engine) : Engine :=
  (wordFns e n).foldl (fun e k => setF .ROUTE_FN_STAT_OFFSET k (satField 24 (wordOffset e n k ofs)) (setF .ROUTE_FN_STAT_PRESENT k 1 e)) e

/-! ### The DPLL (R324–R332) -/

/-- The house domain's frequency stays within ±100 ppm (R327); in 10⁻¹². -/
def clampFreq (f : Int) : Int := clamp (-100000000) 100000000 f

def getFreq (e : Engine) : Int := signed 32 (getF .CLK_FREQ_FREQ 0 e)
def setFreq (f : Int) (e : Engine) : Engine := setF .CLK_FREQ_FREQ 0 (satField 32 (clampFreq f)) e

/-- A free number within ±w, for a value that the spec leaves to the loop. -/
def freeWithin (w : Nat) (e : Engine) : Int × Engine := let p := takeFree e; ((p.1.toNat % (2 * w + 1) : Nat) - (w : Int), p.2)

/-- The frequency to which the output moves: no change of state steps it (R328). -/
def setGoal (f : Option Int) (e : Engine) : Engine := { e with clk := { e.clk with goal := f.map clampFreq } }

/-- The output moves toward its frequency by an amount that the spec does not give, and stays when it is there. -/
def glide (e : Engine) : Engine :=
  match e.clk.goal with
  | none => e
  | some g =>
    let f := getFreq e
    if f = g then setGoal none e
    else let p := freeWithin 100000000 e; setFreq (clamp (min f g) (max f g) p.1) p.2

/-- Tracking bandwidth in mHz, lock window in ps, and lock dwell in ms, of a slot of a type (Table 10.4). -/
def trackBw (e : Engine) (n : Nat) : Nat :=
  match refType e n with
  | 0 => 10000
  | 1 => 1000
  | 2 | 3 => 4000
  | 4 => [10, 20, 50, 100, 200, 500, 1000].getD (getF .CLK_REFCFG_BW n e) 100
  | _ => 100000
def lockWindow (ty : Nat) : Nat := [100000, 100000, 200000, 200000, 1000000, 20000].getD ty 20000
def lockDwell (ty : Nat) : Nat := [1000, 2000, 2000, 2000, 10000, 100].getD ty 100

/-- The tracking stage's bandwidth in the DPLL's state and phase (Tables 10.4, 10.6): ACQ tracks at ten times it, at most 100 Hz. -/
def loopBw (e : Engine) : Nat :=
  let b := trackBw e (getF .CLK_STAT_SEL 0 e)
  match getF .CLK_STAT_STATE 0 e, getF .CLK_STAT_PHASE 0 e with
  | 1, _ => b
  | 3, 1 => min (10 * b) 100000
  | 3, 3 => b
  | _, _ => 0

def refreshLoop (e : Engine) : Engine := { e with clk := { e.clk with bw := loopBw e } }

/-- A phase of a transition begins. -/
def setPhase (ph : Nat) (e : Engine) : Engine := refreshLoop (setF .CLK_STAT_PHASE 0 ph e)

/-- Event 0x0601. -/
def postDpll (e : Engine) : Engine :=
  postEvent 0x0601 [2 ^ 61 * getF .CLK_STAT_STATE 0 e + 2 ^ 59 * getF .CLK_STAT_PHASE 0 e + 2 ^ 56 * getF .CLK_STAT_SEL 0 e
    + 2 ^ 52 * getF .CLK_STAT_OUTQL 0 e] e

/-- The DPLL enters a state with a phase; `sel` is the locked or target slot. -/
def enterDpll (st ph : Nat) (sel : Option Nat) (e : Engine) : Engine :=
  let was := getF .CLK_STAT_STATE 0 e
  let e := setF .CLK_STAT_PHASE 0 ph (setF .CLK_STAT_STATE 0 st e)
  let e := match sel with
    | some n => setF .CLK_STAT_SEL 0 n (setF .CLK_STAT_SELV 0 1 e)
    | none => setF .CLK_STAT_SELV 0 0 e
  let e := refreshOutQl (refreshLoop e)
  if was = st ∧ st ≠ 3 then e else postDpll e

/-- The mean of a list, rounded. -/
def meanInt (l : List Int) : Int := if l.isEmpty then 0 else roundDiv (l.foldl (· + ·) 0) l.length

/-- The holdover frequency: the mean over the 60 s that end 1 s before, else over what there is (R331). The 61 records of the last 61 s hold those 60. -/
def holdFreq (h : List Int) : Int := if 61 ≤ h.length then meanInt ((h.drop 1).take 60) else meanInt h

/-- FREERUN: the frequency moves to the trimmed one of OSC_IN. -/
def enterFree (e : Engine) : Engine :=
  let e := enterDpll 0 0 none (setF .CLK_STAT_PENDV 0 0 e)
  setGoal (some (signed 24 (getF .CLK_OSC_TRIM 0 e))) e

/-- HOLDOVER, or FREERUN with less than 1 s of history. A state that is left is left at once, and the frequency moves to the holdover frequency. -/
def enterHold (e : Engine) : Engine :=
  if e.clk.hist.isEmpty then enterFree e
  else
    let f := holdFreq e.clk.hist
    let e := setF .CLK_HOFREQ_HOFREQ 0 (satField 32 f) (setGoal (some f) e)
    if getF .CLK_STAT_STATE 0 e = 2 then e else enterDpll 2 0 none (setF .CLK_STAT_PENDV 0 0 e)

/-- What the transition will act by, whatever `REF_CFG` brings while it runs (R333). -/
def planFor (e : Engine) (n : Nat) : TransPlan :=
  { build := !isF .CLK_SEL_SWMODE 0 e, slew := getF .CLK_SEL_SLEW 0 e, ty := refType e n, mult := getF .CLK_REFCFG_MULT n e }

/-- A transition to a slot starts (R327, R329): phase HOLD, at the holdover frequency. -/
def startTransition (n : Nat) (e : Engine) : Engine :=
  let e := if e.clk.hist.isEmpty then e else
    let f := holdFreq e.clk.hist
    setF .CLK_HOFREQ_HOFREQ 0 (satField 32 f) (setGoal (some f) e)
  enterDpll 3 0 (some n) (setF .CLK_STAT_PENDV 0 0 { e with clk := { e.clk with pendSeen := false, plan := planFor e n } })

/-- The slot that the DPLL is locked to, or its target. -/
def selSlot (e : Engine) : Nat := getF .CLK_STAT_SEL 0 e
def dpllIn (e : Engine) (st : Nat) : Bool := getF .CLK_STAT_STATE 0 e == st
/-- The DPLL is in a phase of a transition. -/
def phaseIn (e : Engine) (ph : Nat) : Bool := dpllIn e 3 && getF .CLK_STAT_PHASE 0 e == ph

/-- The hardware's reaction to the loss of the locked slot (R332). -/
def checkLocked (e : Engine) : Engine := if dpllIn e 1 && !refQual e (selSlot e) then enterHold e else e

/-- The order (EQL, PRIO, slot). -/
def refKey (e : Engine) (n : Nat) : Nat := 1024 * getF .CLK_REFSTAT_EQL n e + getF .CLK_REFCFG_PRIO n e * 16 + n

def allSlots : List Nat := [0, 1, 2, 3, 4, 5, 6, 7]

/-- The first candidate in ascending order. -/
def bestOf (e : Engine) : List Nat → Option Nat
  | [] => none
  | n :: t => match bestOf e t with
    | none => some n
    | some m => if refKey e n ≤ refKey e m then some n else some m

/-- The best candidate of a selection run (R324). -/
def bestSlot (e : Engine) : Option Nat :=
  if getF .CLK_SEL_MODE 0 e = 1 then
    (if refQual e (getF .CLK_SEL_FORCE 0 e) then some (getF .CLK_SEL_FORCE 0 e) else none)
  else bestOf e (allSlots.filter fun n => isF .CLK_REFSTAT_ELIG n e)

/-- PENDING, and event 0x0604 the first time it holds a slot in a transition (R325). -/
def setPending (p : Option Nat) (e : Engine) : Engine :=
  match p with
  | none => setF .CLK_STAT_PENDV 0 0 e
  | some n =>
    let e := setF .CLK_STAT_PENDV 0 1 (setF .CLK_STAT_PENDING 0 n e)
    if e.clk.pendSeen then e
    else postEvent 0x0604 [2 ^ 61 * n + 2 ^ 58 * selSlot e] { e with clk := { e.clk with pendSeen := true } }

/-- The end of a selection run, outside a transition. -/
def chooseRef (best : Option Nat) (e : Engine) : Engine :=
  match best with
  | none => if dpllIn e 1 then enterHold e else e
  | some n => if !dpllIn e 1 || selSlot e != n then startTransition n e else setF .CLK_STAT_PENDV 0 0 e

/-- A selection run (R324). -/
def selectRef (e : Engine) : Engine :=
  let e := allSlots.foldl evalSlot e
  match getF .CLK_SEL_MODE 0 e with
  | 2 => enterHold e
  | 3 => if dpllIn e 0 then e else enterFree e
  | _ =>
    let best := bestSlot e
    if dpllIn e 3 then
      if refQual e (selSlot e) then setPending (if best = some (selSlot e) then none else best) e
      else chooseRef best (enterHold e)
    else chooseRef best e

def effSelectionRun (e : Engine) : Engine := if supUp e then selectRef e else e

def execSelectionRun (s : State) : Host.Outcome State Fault Refusal :=
  runLive "SELECTION_RUN" Instr.selectionRun.wf effSelectionRun s

/-! ### References come and go (R320–R323) -/

/-- The loss rule of Table 10.4 is met. The gap that a supervisor restart leaves in PTP does not meet it (R326). -/
def effLossOfSignal (n : Nat) (e : Engine) : Engine :=
  if refEn e n ∧ isF .CLK_REFSTAT_PRESENT n e ∧ (refType e n ≠ 4 ∨ supUp e) then
    wordLost n <| checkLocked (evalSlot (setF .CLK_REFSTAT_LOSS n 1 (setF .CLK_REFSTAT_PRESENT n 0 (setSlot n { getSlot e n with ofs := [] } e))) n)
  else e

def execLossOfSignal (slot : Nat) (s : State) : Host.Outcome State Fault Refusal :=
  runLive "LOSS_OF_SIGNAL" (Instr.lossOfSignal slot).wf (effLossOfSignal slot) s

/-- The signal of an enabled slot is there (again). -/
def effReferenceSignalReturn (n : Nat) (e : Engine) : Engine :=
  if refEn e n ∧ !isF .CLK_REFSTAT_PRESENT n e ∧ !receiverOff e n then
    wordFound n <| evalSlot (setF .CLK_REFSTAT_PRESENT n 1 (setSlot n { getSlot e n with acqFail := false } e)) n
  else e

def execReferenceSignalReturn (slot : Nat) (s : State) : Host.Outcome State Fault Refusal :=
  runLive "REFERENCE_SIGNAL_RETURN" (Instr.referenceSignalReturn slot).wf (effReferenceSignalReturn slot) s

/-- The change of the offset over the gates held, at most 10 s, and their number (R321). -/
def driftOf (l : List Int) : Int × Nat := (l.headD 0 - l.getLastD 0, l.length - 1)

/-- |drift rate| exceeds `lim` in units of 0.05 ppm/s; the offsets are in 0.001 ppm. -/
def driftOver (l : List Int) (lim : Nat) : Bool := let d := driftOf l; decide (lim * 50 * d.2 < d.1.natAbs)

/-- The windows of `CLK_DRIFT` act on a present slot (R322): what an offset beyond them sets. -/
def checkWindows (n : Nat) (e : Engine) : Engine :=
  let ofs := signed 32 (getF .CLK_REFOFS_OFS n e)
  let soft := decide (1000 * getF .CLK_DRIFT_SOFT 0 e < ofs.natAbs) || driftOver (getSlot e n).ofs (2 * getF .CLK_DRIFT_RATE 0 e)
  let e : Engine := if soft && !isF .CLK_REFSTAT_SOFT n e then
      postEvent 0x0603 [2 ^ 61 * n + 2 ^ 60 + satField 32 ofs] (setF .CLK_REFSTAT_SOFT n 1 e) else e
  if 1000 * getF .CLK_DRIFT_HARD 0 e < ofs.natAbs then setF .CLK_REFSTAT_HARDS n 1 e else e

/-- A 1 s gate ends (R321, R322). -/
def effFrequencyMeasurement (n : Nat) (ofs : Int) (e : Engine) : Engine :=
  if refEn e n ∧ isF .CLK_REFSTAT_PRESENT n e then
    let l := (ofs :: (getSlot e n).ofs).take 11
    let d := driftOf l
    let e := setSlot n { getSlot e n with ofs := l } e
    let e := setF .CLK_REFOFS_OFS n (satField 32 ofs) e
    let e := setF .CLK_REFRATE_RATE n (satField 16 (if d.2 = 0 then 0 else roundDiv d.1 (10 * d.2))) e
    checkLocked (evalSlot (checkWindows n (wordMeasured n ofs e)) n)
  else e

def execFrequencyMeasurement (slot : Nat) (ofs : Int) (s : State) : Host.Outcome State Fault Refusal :=
  runLive "FREQUENCY_MEASUREMENT" (Instr.frequencyMeasurement slot ofs).wf (effFrequencyMeasurement slot ofs) s

/-- Ten seconds within SOFT − 2 ppm and RATE / 2 (R322). -/
def effSoftAlarmClear (n : Nat) (e : Engine) : Engine :=
  let ofs := signed 32 (getF .CLK_REFOFS_OFS n e)
  if isF .CLK_REFSTAT_SOFT n e ∧ ofs.natAbs ≤ 1000 * (getF .CLK_DRIFT_SOFT 0 e - 2)
      ∧ !driftOver (getSlot e n).ofs (getF .CLK_DRIFT_RATE 0 e) then
    evalSlot (postEvent 0x0603 [2 ^ 61 * n + satField 32 ofs] (setF .CLK_REFSTAT_SOFT n 0 e)) n
  else e

def execSoftAlarmClear (slot : Nat) (s : State) : Host.Outcome State Fault Refusal :=
  runLive "SOFT_ALARM_CLEAR" (Instr.softAlarmClear slot).wf (effSoftAlarmClear slot) s

/-- The wait-to-restore timer runs out (R323). -/
def effWtrExpiry (n : Nat) (e : Engine) : Engine :=
  if (getSlot e n).waiting then evalSlot (setF .CLK_REFSTAT_WTRREM n 0 (setSlot n { getSlot e n with waiting := false } e)) n else e

def execWtrExpiry (slot : Nat) (s : State) : Host.Outcome State Fault Refusal :=
  runLive "WTR_EXPIRY" (Instr.wtrExpiry slot).wf (effWtrExpiry slot) s

/-! ### Transition phases (R329, R330) -/

/-- The first phase measurement of the target: ACQ tracks its frequency. -/
def effHoldPhaseEnd (e : Engine) : Engine :=
  if phaseIn e 0 then
    let p := freeWithin 100000000 e
    setGoal (some p.1) (setPhase 1 p.2)
  else e

def execHoldPhaseEnd (s : State) : Host.Outcome State Fault Refusal :=
  runLive "HOLD_PHASE_END" Instr.holdPhaseEnd.wf effHoldPhaseEnd s

/-- Samples from the PTP epoch to the mapping's t₀, by its rate. -/
def epochSamples (e : Engine) : Int :=
  let pl := pullOf e
  roundDiv ((e.ptp.t0 * houseHz e * pl.1 : Nat) : Int) (2 ^ 32 * 10 ^ 9 * pl.2)

/-- The video frame rate by FRATE: N_v and D_v (R335). -/
def frateOf (c : Nat) : Nat × Nat :=
  [(24000, 1001), (24, 1), (25, 1), (30000, 1001), (30, 1), (50, 1), (60000, 1001), (60, 1)].getD c (60, 1)

/-- N and S of the cadence (R335). -/
def cadence (e : Engine) : Nat × Nat :=
  let r := frateOf (getF .CLK_VIDCFG_FRATE 0 e)
  let g := Nat.gcd (houseHz e * r.2) r.1
  (r.1 / g, houseHz e * r.2 / g)

/-- `CLK_CAD` at the sample `x` (R335, R336). -/
def refreshCad (x : Nat) (e : Engine) : Engine :=
  let c := cadence e
  let p := (((x : Int) - (e.clk.cad0 : Int)) % (c.2 : Int)).toNat
  let k := ceilDiv ((p + 1) * c.1) c.2 - 1
  let e := setF .CLK_CAD_N 0 c.1 (setF .CLK_CAD_IDX 0 k e)
  setF .CLK_CAD_LEN 0 ((k + 1) * c.2 / c.1 - k * c.2 / c.1) e

/-- A sample of the cadence at which a video frame starts (R335). -/
def videoStart (e : Engine) (x : Nat) : Bool :=
  let c := cadence e
  let p := (((x : Int) - (e.clk.cad0 : Int)) % (c.2 : Int)).toNat
  ceilDiv (p * c.1) c.2 * c.2 / c.1 == p

/-- Frame k = 0 of the cadence at the alignment point of SMPTE ST 2059-1 (R336). -/
def placePtpCad (e : Engine) : Engine :=
  { e with clk := { e.clk with cad0 := (((e.ptp.n0 : Int) - epochSamples e) % ((cadence e).2 : Int)).toNat } }

/-- A phase modulo the period a / b ps, by the shorter way. -/
def shorterWay (phi : Int) (p : Nat × Nat) : Int :=
  let m := (phi * (p.2 : Int)) % (p.1 : Int)
  roundDiv (if (p.1 : Int) < 2 * m then m - p.1 else m) p.2

/-- The phase offset on which ALIGN acts (R320, R330, R336), from the measured `phi` in ps: modulo one period of a word clock, AES3 or MADI frame; for
video the active edge of VREF_F (`FEDGE`) nearest to the start of cadence frame 0, delayed by OFFSET, modulo one cadence; absolute for PTP and
fabric. -/
def alignPhase (e : Engine) (phi : Int) : Int :=
  let q := e.clk.plan
  let v := frateOf (getF .CLK_VIDCFG_FRATE 0 e)
  let f := refHz2 e q.mult
  match q.ty with
  | 0 | 2 | 3 => shorterWay phi (2 * 10 ^ 12 * f.2, f.1)
  | 1 => shorterWay (shorterWay phi (10 ^ 12 * v.2, v.1) + 1000 * getF .CLK_VIDCFG_OFFSET 0 e) (10 ^ 12 * v.2 * (cadence e).1, v.1)
  | _ => phi

/-- ACQ ends with the measured phase offset in ps: build-out keeps the house phase and stores φ, slew runs it off at SLEW ppm in the direction that
reduces it (R330). A PTP target with |φ| above 1 ms is built out, and the mapping is rewritten as for a time discontinuity (R363). -/
def effAcqEnd (phi : Int) (e : Engine) : Engine :=
  if phaseIn e 1 then
    let q := e.clk.plan
    let phi := alignPhase e phi
    let far := q.ty == 4 && decide (1000000000 < phi.natAbs)
    let build := q.build || far
    let t := freeWithin 100000000 e
    let e := setPhase 2 (setGoal none { t.2 with clk := { t.2.clk with target := t.1 } })
    let slew := if build ∨ phi = 0 then 0 else if 0 < phi then (q.slew : Int) else -(q.slew : Int)
    let e := setF .CLK_PHERR_PHERR 0 (satField 32 (if build then 0 else phi)) (setFreq (t.1 + 1000000 * slew) e)
    let e := setF .CLK_BUILDOUT_BUILDOUT 0 (if build then satField 32 phi else 0) e
    let e := if far then { e with ptp := { e.ptp with rewrite := some (roundDiv (2 ^ 32 * phi) 1000) } } else e
    if q.ty = 4 then placePtpCad e else e
  else e

def execAcqEnd (phi : Int) (s : State) : Host.Outcome State Fault Refusal :=
  runLive "ACQ_END" (Instr.acqEnd phi).wf (effAcqEnd phi) s

/-- ACQ has not ended within 100 s: cause 4, and HOLDOVER. -/
def effAcqTimeout (e : Engine) : Engine :=
  if phaseIn e 1 then
    let n := selSlot e
    enterHold (evalSlot (setSlot n { getSlot e n with acqFail := true } e) n)
  else e

def execAcqTimeout (s : State) : Host.Outcome State Fault Refusal :=
  runLive "ACQ_TIMEOUT" Instr.acqTimeout.wf effAcqTimeout s

/-- The phase is built out, or slewed to within the lock window: DWELL tracks the target. -/
def effAlignEnd (e : Engine) : Engine :=
  if phaseIn e 2 then
    let p := freeWithin (lockWindow e.clk.plan.ty) e
    setF .CLK_PHERR_PHERR 0 (satField 32 p.1) (setFreq p.2.clk.target (setPhase 3 p.2))
  else e

def execAlignEnd (s : State) : Host.Outcome State Fault Refusal :=
  runLive "ALIGN_END" Instr.alignEnd.wf effAlignEnd s

/-- The dwell ends: LOCKED. -/
def effDwellEnd (e : Engine) : Engine :=
  if phaseIn e 3 then enterDpll 1 0 (some (selSlot e)) e else e

def execDwellEnd (s : State) : Host.Outcome State Fault Refusal :=
  runLive "DWELL_END" Instr.dwellEnd.wf effDwellEnd s

/-- The tracked frequency of a second of LOCKED, in 10⁻¹² (R331), within the limit of R327. A loop that gets no PTP phase errors holds its frequency
(R326). -/
def effHoldoverHistoryRecord (freq : Int) (e : Engine) : Engine :=
  if dpllIn e 1 then
    let f := if refType e (selSlot e) = 4 ∧ !supUp e then getFreq e else clampFreq freq
    let h := (f :: e.clk.hist).take 61
    let e := setGoal none (setFreq f { e with clk := { e.clk with hist := h } })
    setF .CLK_STAT_HOVALID 0 (decide (60 ≤ h.length)).toNat (setF .CLK_STAT_HOSEC 0 (min 60 h.length) e)
  else e

def execHoldoverHistoryRecord (freq : Int) (s : State) : Host.Outcome State Fault Refusal :=
  runLive "HOLDOVER_HISTORY_RECORD" (Instr.holdoverHistoryRecord freq).wf (effHoldoverHistoryRecord freq) s

/-! ### `REF_CFG` and `REF_PRIO` (R337, R338) -/

/-- A video format that Table 10.12 allows. -/
def formatOk (frate lines : Nat) : Bool :=
  match lines with
  | 0 => frate == 3
  | 1 => frate == 2
  | 2 => frate == 5 || frate == 6 || frate == 7
  | _ => true

/-- Another enabled slot names the input. -/
def inputTaken (e : Engine) (n ty inst : Nat) : Bool := allSlots.any fun m => m != n && refEn e m && refType e m == ty && refInst e m == inst

/-- The status of a `REF_CFG` record. -/
def refCfgCheck (ws : List Word64) (e : Engine) : Nat :=
  let w0 := ws.getD 0 0
  let w1 := ws.getD 1 0
  let f := bits w1
  let rest := match bits w0 63 60 with | 0 => bits w0 56 0 | 5 => bits w0 55 0 | _ => bits w0 59 0
  let ok := rest == 0 && f 63 32 == 0 && match bits w0 63 60 with
    | 0 =>
      let ty := f 30 28
      decide (ty < 6) && decide (f 27 24 < [2, 1, 16, 4, 2, 1].getD ty 0) && (f 23 22 == 0 || ty == 0 || ty == 2 || ty == 3)
        && refHzOk e ty (f 23 22) && (f 21 21 == 0 || ty == 2 || ty == 4 || ty == 5) && decide (f 12 3 ≤ 600) && decide (f 2 0 < 7)
        && (f 31 31 == 0 || !inputTaken e (bits w0 59 57) ty (f 27 24))
    | 1 => f 26 24 == 0 && decide (f 23 20 ≤ 14) && decide (1 ≤ f 10 8) && decide (f 10 8 ≤ 5) && f 7 0 == 0
    | 2 => decide (4 ≤ f 23 16) && decide (f 23 16 ≤ 90) && decide (3 ≤ f 31 24) && decide (f 31 24 < f 23 16) && decide (1 ≤ f 15 8) && f 7 0 == 0
    | 3 => f 25 24 == 0 && formatOk (f 31 29) (f 28 27)
    | 4 => f 31 8 == 0
    | 5 => f 30 24 == 0 && f 7 4 == 0
    | 6 => f 30 29 != 3 && f 26 25 != 3 && f 23 22 != 3 && f 19 0 == 0
    | 7 => f 30 24 == 0
    | _ => false
  if ok then 0 else 0x0103

/-- Sets fields from a word: field and its lowest bit. -/
def putFields (i v : Nat) (l : List (Fld × Nat)) (e : Engine) : Engine :=
  l.foldl (fun e (q : Fld × Nat) => setF q.1 i (v / 2 ^ q.2) e) e

/-- A slot's record applies: its fields but PRIO and QLPROV; another input must show its signal first. -/
def applyRefSlot (n v : Nat) (e : Engine) : Engine :=
  let same := refEn e n && v / 2 ^ 31 % 2 == 1 && refType e n == v / 2 ^ 28 % 8 && refInst e n == v / 2 ^ 24 % 16
    && getF .CLK_REFCFG_MULT n e == v / 2 ^ 22 % 4
  let e := putFields n v [(.CLK_REFCFG_EN, 31), (.CLK_REFCFG_TYPE, 28), (.CLK_REFCFG_INST, 24), (.CLK_REFCFG_MULT, 22), (.CLK_REFCFG_QLSRC, 21),
    (.CLK_REFCFG_WTR, 3), (.CLK_REFCFG_BW, 0)] e
  let e := setSlot n { getSlot e n with acqFail := false, ofs := if same then (getSlot e n).ofs else [] } e
  let e := if !same && isF .CLK_REFSTAT_SOFT n e then postEvent 0x0603 [2 ^ 61 * n + getF .CLK_REFOFS_OFS n e] e else e
  let e := if same then e else setF .CLK_REFOFS_OFS n 0 (setF .CLK_REFRATE_RATE n 0 (setF .CLK_REFSTAT_SOFT n 0 (setF .CLK_REFSTAT_PRESENT n 0 e)))
  refreshLoop (checkLocked (evalSlot e n))

/-- PTP is selected, and its transition has placed the cadence. -/
def ptpCadence (e : Engine) : Bool := refType e (selSlot e) == 4 && (dpllIn e 1 || (dpllIn e 3 && decide (2 ≤ getF .CLK_STAT_PHASE 0 e)))

/-- A `REF_CFG` record applies. -/
def applyRefCfg (ws : List Word64) (e : Engine) : Engine :=
  let w0 := ws.getD 0 0
  let v := (ws.getD 1 0).toNat % 2 ^ 32
  let all := fun e => allSlots.foldl evalSlot e
  match bits w0 63 60 with
  | 0 => applyRefSlot (bits w0 59 57) v e
  | 1 => all (putFields 0 v [(.CLK_SEL_MODE, 30), (.CLK_SEL_FORCE, 27), (.CLK_SEL_QLTHR, 20), (.CLK_SEL_HOQL, 16), (.CLK_SEL_OSCQL, 12),
      (.CLK_SEL_SWMODE, 11), (.CLK_SEL_SLEW, 8)] e)
  | 2 =>
    let e := putFields 0 v [(.CLK_DRIFT_SOFT, 24), (.CLK_DRIFT_HARD, 16), (.CLK_DRIFT_RATE, 8)] e
    checkLocked (all ((allSlots.filter fun n => refEn e n && isF .CLK_REFSTAT_PRESENT n e).foldl (fun e n => checkWindows n e) e))
  | 3 =>
    let place := fun e => if ptpCadence e then placePtpCad e else e
    refreshCad e.sample <| place (putFields 0 v [(.CLK_VIDCFG_FRATE, 29), (.CLK_VIDCFG_LINES, 27), (.CLK_VIDCFG_FEDGE, 26), (.CLK_VIDCFG_OFFSET, 0)] e)
  | 4 => all (putFields 0 v [(.CLK_AESQL_GRADE1, 4), (.CLK_AESQL_GRADE2, 0)] e)
  | 5 => all (putFields (bits w0 59 56) v [(.CLK_PTPQL_EN, 31), (.CLK_PTPQL_CLASS, 16), (.CLK_PTPQL_ACCMAX, 8), (.CLK_PTPQL_QL, 0)] e)
  | 6 => putFields 0 v [(.CLK_OUTCFG_MCLKEN, 31), (.CLK_OUTCFG_MCLKDIV, 29), (.CLK_OUTCFG_MCLKFAM, 28), (.CLK_OUTCFG_WC0EN, 27),
      (.CLK_OUTCFG_WC0RATE, 25), (.CLK_OUTCFG_WC1EN, 24), (.CLK_OUTCFG_WC1RATE, 22), (.CLK_OUTCFG_FPEN, 21), (.CLK_OUTCFG_FPSRC, 20)] e
  | 7 =>
    let e := setF .CLK_OSC_TRIM 0 v e
    if dpllIn e 0 then setGoal none (setFreq (signed 24 v) e) else e
  | _ => e

/-- The status of a `REF_PRIO` record. -/
def refPrioCheck (ws : List Word64) : Nat := if bits (ws.getD 0 0) 51 0 = 0 then 0 else 0x0103

/-- A `REF_PRIO` record applies. -/
def applyRefPrio (ws : List Word64) (e : Engine) : Engine :=
  let w := ws.getD 0 0
  let n := bits w 63 61
  let e := setF .CLK_REFCFG_PRIO n (bits w 60 57) e
  let e := if bit w 52 then e else setF .CLK_REFCFG_QLPROV n (bits w 56 53) e
  checkLocked (evalSlot e n)

/-! ### Receivers as references (R316, R317, R320) -/

/-- The enabled slots that listen to the receiver of a port. -/
def slotsOfPort (e : Engine) (p : Nat) : List Nat :=
  allSlots.filter fun n => refEn e n && ((refType e n == 2 && p == 0x28 + refInst e n) || (refType e n == 3 && p == 0x38 + refInst e n))

/-- What a port's receiver shows has changed: its slots follow, and a locked one that is lost is left at once (R332). -/
def receiverChanged (p : Nat) (e : Engine) : Engine := checkLocked ((slotsOfPort e p).foldl evalSlot e)

/-- A `PORT_CFG` record applies, to the port and to the slots that listen to it. -/
def applyPort (ws : List Word64) (e : Engine) : Engine := receiverChanged (bits (ws.getD 0 0) 63 56) (applyPortCfg ws e)

/-- A channel-status block, whose reference grade the slot of the receiver takes (Table 10.2). -/
def effChannelStatusBlock (n sub : Nat) (bytes : List Byte) (crcOk : Bool) (e : Engine) : Engine :=
  receiverChanged (0x28 + n) (takeStatus n sub bytes crcOk e)

def execChannelStatusBlock (n sub : Nat) (bytes : List Byte) (crcOk : Bool) (s : State) : Host.Outcome State Fault Refusal :=
  runLive "CHANNEL_STATUS_BLOCK" (Instr.channelStatusBlock n sub bytes crcOk).wf (effChannelStatusBlock n sub bytes crcOk) s

/-- A clock that stops leaves the receiver unlocked: the slots that listen to it lose their signal (Table 10.4). -/
def effClockStopDetect (p : Nat) (e : Engine) : Engine :=
  if measured e p then (slotsOfPort e p).foldl (fun e n => effLossOfSignal n e) (clockStopped p e) else e

def execClockStopDetect (port : Nat) (s : State) : Host.Outcome State Fault Refusal :=
  runLive "CLOCK_STOP_DETECT" (Instr.clockStopDetect port).wf (effClockStopDetect port) s

/-! ### Clock outputs (R334) -/

/-- The frequency of the synthesiser that feeds MCLK_OUT: that of the house family, or of the other at 147/160 of SA (R315). -/
def mclkSynth (e : Engine) : Nat := if is441 (houseHz e) == isF .CLK_OUTCFG_MCLKFAM 0 e then 294912000 else 294912000 * 147 / 160

/-- A word-clock output: f_H, 2 f_H or f_H / 2 with a rising edge at house sample instants. -/
def wclkOut (e : Engine) (en rate : Fld) : Nat × Nat :=
  if isF en 0 e then (houseHz e * [2, 4, 1].getD (getF rate 0 e) 2 * (pullOf e).1, 2 * (pullOf e).2) else (0, 1)

/-- The outputs in the frame that starts: they run in every DPLL state and follow the house clock; a disabled one is low. -/
def clockOuts (e : Engine) : ClkOut :=
  { mclk := if isF .CLK_OUTCFG_MCLKEN 0 e then (mclkSynth e / [6, 12, 24].getD (getF .CLK_OUTCFG_MCLKDIV 0 e) 12 * (pullOf e).1, (pullOf e).2) else (0, 1)
    wclk0 := wclkOut e .CLK_OUTCFG_WC0EN .CLK_OUTCFG_WC0RATE
    wclk1 := wclkOut e .CLK_OUTCFG_WC1EN .CLK_OUTCFG_WC1RATE
    fpulse := if !isF .CLK_OUTCFG_FPEN 0 e then []
      else if isF .CLK_OUTCFG_FPSRC 0 e then (List.range (frameLen e)).filter fun k => videoStart e (e.sample + k)
      else [0] }

/-- The clock at a frame tick: the timers of R323, the frequency's move (R328), the cadence and the outputs. -/
def clockTick (e : Engine) : Engine :=
  let e := refreshCad e.sample (glide (allSlots.foldl wtrTick e))
  { e with clk := { e.clk with out := clockOuts e } }

end Sys2Proof.Machine
end

