-- ==== Sys2Proof/Machine/Ptp.lean ====
section
/-! DEFINITION. The local clock, PTP instances, the media-to-PTP mapping, captures and pulses (chapter 11). -/
namespace Sys2Proof.Machine

/-! ### The local clock (R354, R355) -/

/-- Ticks of TM up to house sample `x`: 250 MHz over the pulled house rate (R315). -/
def tmAt (e : Engine) (x : Nat) : Nat := let pl := pullOf e; 250000000 * x * pl.2 / (houseHz e * pl.1)

/-! ### Instances (R355, R358, R359) -/

def getInst (e : Engine) (i : Nat) : PtpInst := tget PtpInst.off e.ptp.inst i
def setInst (i : Nat) (v : PtpInst) (e : Engine) : Engine := { e with ptp := { e.ptp with inst := tput PtpInst.off e.ptp.inst i v } }

def instEn (p : PtpInst) : Bool := bit p.w0 58
def instMaster (p : PtpInst) : Bool := bit p.w0 57
def instP2p (p : PtpInst) : Bool := bit p.w0 54
def instV6 (p : PtpInst) : Bool := bit p.w0 53

/-- portState of an instance. -/
def ptpState (e : Engine) (i : Nat) : Nat := getF (if i = 0 then .PTP_STAT_STATE0 else .PTP_STAT_STATE1) 0 e

/-- Identity of the engine's clock on a port. PRESUMED (log entry 23): the EUI-64 that IEEE 1588 forms from the MAC address. -/
def clockId (e : Engine) (i : Nat) : Nat :=
  let mac := 2 ^ 32 * getF .NET_MACHI_MAC i e + getF .NET_MACLO_MAC i e
  2 ^ 40 * (mac / 2 ^ 24) + 0xFFFE * 2 ^ 24 + mac % 2 ^ 24

/-- The class and accuracy announced as master: those of the first enabled entry whose QL is OUTQL, else 248 and 0xFE (R358). -/
def ownQuality (e : Engine) : Nat × Nat :=
  match (List.range 16).find? fun k => isF .CLK_PTPQL_EN k e && getF .CLK_PTPQL_QL k e == getF .CLK_STAT_OUTQL 0 e with
  | some k => (getF .CLK_PTPQL_CLASS k e, getF .CLK_PTPQL_ACCMAX k e)
  | none => (248, 0xFE)

/-- The instance's own dataset. PRESUMED (log entry 23): an offsetScaledLogVariance of 0xFFFF. -/
def ownData (e : Engine) (i : Nat) : Announce :=
  let q := ownQuality e
  let w := (getInst e i).w0
  { prio1 := bits w 29 22, cls := q.1, acc := q.2, var := 0xFFFF, prio2 := bits w 21 14, gm := clockId e i, steps := 0 }

/-- The grandmaster the instance sees changes its state: event 0x0704. -/
def setPtpState (i st : Nat) (e : Engine) : Engine :=
  if ptpState e i = st then e
  else
    let e := setF (if i = 0 then .PTP_STAT_STATE0 else .PTP_STAT_STATE1) 0 st e
    let gm := match (getInst e i).master with | some a => a.gm | none => clockId e i
    postEvent 0x0704 [2 ^ 56 * i + 2 ^ 48 * st, gm] e

/-- The order of datasets of the best-master algorithm: lexical in the listed fields. -/
def dataList (a : Announce) : List Nat := [a.prio1, a.cls, a.acc, a.var, a.prio2, a.gm, a.steps]
def lexLt : List Nat → List Nat → Bool
  | a :: as, b :: bs => decide (a < b) || (a == b && lexLt as bs)
  | _, _ => false

/-- The reference slot that names an instance. -/
def slotOfInst (e : Engine) (i : Nat) : Option Nat := allSlots.find? fun n => refEn e n && refType e n == 4 && refInst e n == i

/-- An instance follows a master. -/
def isSlave (e : Engine) (i : Nat) : Bool := ptpState e i == 9

/-- EQL of an instance's slot; 15 without one. -/
def instEql (e : Engine) (i : Nat) : Nat := match slotOfInst e i with | some n => getF .CLK_REFSTAT_EQL n e | none => 15

/-- The DPLL is locked to, or in transition to, a PTP slot. -/
def coupled (e : Engine) : Bool := (dpllIn e 1 || dpllIn e 3) && refType e (selSlot e) == 4

/-- The timekeeper instance (R355). -/
def timekeeper (e : Engine) : Option Nat :=
  if coupled e then some (refInst e (selSlot e) % 2)
  else if isSlave e 0 ∧ isSlave e 1 then some (if instEql e 1 < instEql e 0 then 1 else 0)
  else if isSlave e 0 then some 0 else if isSlave e 1 then some 1 else none

/-- Brings the discipline and the timekeeper up to date (R355). -/
def refreshPtp (e : Engine) : Engine :=
  let tk := timekeeper e
  let disc := if coupled e then 0 else if tk.isSome then 1 else 2
  let e := setF .PTP_STAT_TKV 0 tk.isSome.toNat (setF .PTP_STAT_TK 0 (tk.getD 0) (setF .PTP_STAT_DISC 0 disc e))
  let e := if disc = 0 then setIncr (2 ^ 34) e else e
  if disc = 2 then { e with ptp := { e.ptp with locked := false } } else e

/-- The best-master choice with the instance's own dataset, and the port state it gives (R358). -/
def chooseMaster (i : Nat) (e : Engine) : Engine :=
  let p := getInst e i
  let own := instMaster p && (match p.master with | some a => lexLt (dataList (ownData e i)) (dataList a) | none => true)
  let st := if own then 6 else match p.master with
    | some _ => if ptpState e i = 9 then 9 else 8
    | none => 4
  refreshPtp (setPtpState i st e)

/-- An Announce (R358): a better master, or news of the present one. -/
def effAnnounceReceived (i : Nat) (a : Announce) (e : Engine) : Engine :=
  let p := getInst e i
  if !instEn p || !supUp e then e
  else
    let better : Bool := match p.master with
      | some m => m.gm == a.gm || lexLt (dataList a) (dataList m)
      | none => true
    if !better then e
    else
      let new : Bool := match p.master with | some m => m.gm != a.gm | none => true
      let e := setInst i { p with master := some a, big := false } e
      let e := if new ∧ ptpState e i = 9 then setPtpState i 8 e else e
      allSlots.foldl evalSlot (chooseMaster i e)

def execAnnounceReceived (inst : Nat) (a : Announce) (s : State) : Host.Outcome State Fault Refusal :=
  runLive "ANNOUNCE_RECEIVED" (Instr.announceReceived inst a).wf (effAnnounceReceived inst a) s

/-- announceReceiptTimeout (R359): the master is gone. -/
def effAnnounceReceiptTimeout (i : Nat) (e : Engine) : Engine :=
  let p := getInst e i
  if instEn p ∧ p.master.isSome ∧ supUp e then
    allSlots.foldl evalSlot (chooseMaster i (setInst i { p with master := none, big := false } e))
  else e

def execAnnounceReceiptTimeout (inst : Nat) (s : State) : Host.Outcome State Fault Refusal :=
  runLive "ANNOUNCE_RECEIPT_TIMEOUT" (Instr.announceReceiptTimeout inst).wf (effAnnounceReceiptTimeout inst) s

/-- INCR under the servo: within ±500 ppm of nominal; the spec gives no loop (R355). -/
def servoIncr (e : Engine) : Engine :=
  let p := takeFree e
  setIncr (2 ^ 34 - 8589934 + p.1.toNat % 17179869) p.2

/-- A Sync: the servo's offset o in ns, and whether the servo reports the clock locked (R360, R362). A servo that reports unlocked loses its slot's
signal (Table 10.4); coupled, the offset is the phase error of the DPLL (R326). -/
def effSyncReceived (i : Nat) (ofs : Int) (locked : Bool) (e : Engine) : Engine :=
  let p := getInst e i
  if !instEn p || p.master.isNone || !(ptpState e i == 8 || ptpState e i == 9) || !supUp e then e
  else
    let e := setF .PTP_OFS_OFS i (satField 32 ofs) e
    let e := if locked then refreshPtp (setPtpState i 9 e) else (slotOfInst e i).elim e fun n => effLossOfSignal n e
    if timekeeper e ≠ some i then e
    else
      let e := if coupled e then setF .CLK_PHERR_PHERR 0 (satField 32 (1000 * ofs)) e else e
      let first := locked && !e.ptp.everLocked
      let e := { e with ptp := { e.ptp with locked := locked, everLocked := e.ptp.everLocked || locked,
                                            mapped := e.ptp.mapped && !first } }
      if ofs.natAbs ≤ 1000000 then
        let e := setInst i { getInst e i with big := false } e
        if coupled e then e else servoIncr e
      else if (getInst e i).big then
        setInst i { getInst e i with big := false } { e with ptp := { e.ptp with step := some ofs } }
      else setInst i { getInst e i with big := true } e

def execSyncReceived (inst : Nat) (ofs : Int) (locked : Bool) (s : State) : Host.Outcome State Fault Refusal :=
  runLive "SYNC_RECEIVED" (Instr.syncReceived inst ofs locked).wf (effSyncReceived inst ofs locked) s

/-- Big-endian bytes. -/
def beBytes (v n : Nat) : List Byte := (leBytes v n).reverse

/-! ### Captures and pulses (R357, R465) -/

/-- An edge on capture pin n, when the pin carries its function: the clock within ±4 ns. -/
def effCaptureEdge (n t : Nat) (e : Engine) : Engine :=
  if bitF .SYS_GPIO_FUNC_FUNC 0 n e then
    let v := (within 14 (t : Int) (clockNs e t : Int) 4).toNat
    setF .PTP_CAP_S_CAP n (v / 1000000000) (setF .PTP_CAP_NS_CAP n (v % 1000000000) e)
  else e

def execCaptureEdge (n t : Nat) (s : State) : Host.Outcome State Fault Refusal :=
  runLive "CAPTURE_EDGE" (Instr.captureEdge n t).wf (effCaptureEdge n t) s

/-- A pulse fires: a single one is done, a train waits for its next edge. -/
def firePulse (n : Nat) (p : Pulse) (e : Engine) : Engine :=
  let e := if bitF .SYS_GPIO_FUNC_FUNC 0 (4 + n) e then { e with ptp := { e.ptp with fired := tput (0, 0) e.ptp.fired n (p.next, p.next + p.width) } } else e
  let q := if p.period = 0 then none else some { p with next := p.next + p.period }
  setBitF .PTP_PULSE_ACT 0 n q.isSome { e with ptp := { e.ptp with pulses := tput none e.ptp.pulses n q } }

def effPulseFire (n t : Nat) (e : Engine) : Engine :=
  match tget none e.ptp.pulses n with
  | some p => if p.next ≤ clockNs e t + 8 then firePulse n p e else e
  | none => e

def execPulseFire (n t : Nat) (s : State) : Host.Outcome State Fault Refusal :=
  runLive "PULSE_FIRE" (Instr.pulseFire n t).wf (effPulseFire n t) s

/-- The next edge of a train at or after `now`. -/
def trainNext (p : Pulse) (now : Nat) : Nat := if now ≤ p.start then p.start else p.start + ceilDiv (now - p.start) p.period * p.period

/-- A pulse channel after a step of the clock to `now` (R365). -/
def stepPulse (now : Nat) (e : Engine) (n : Nat) : Engine :=
  match tget none e.ptp.pulses n with
  | some p =>
    if p.period = 0 then (if p.next ≤ now then firePulse n p e else e)
    else { e with ptp := { e.ptp with pulses := tput none e.ptp.pulses n (some { p with next := trainNext p now }) } }
  | none => e

/-! ### `PTP_CFG` (R367) -/

/-- The status of a `PTP_CFG` record. -/
def ptpCfgCheck (ws : List Word64) (e : Engine) : Nat :=
  let w0 := ws.getD 0 0
  let w1 := ws.getD 1 0
  let w2 := ws.getD 2 0
  let sg := fun hi lo => signed 4 (bits w0 hi lo)
  let ok : Bool := match bits w0 63 60 with
    | 0 => bits w0 13 0 == 0 && bits w1 45 0 == 0 && w2 == 0 && decide (-7 ≤ sg 45 42) && decide (sg 45 42 ≤ 1) && decide (-3 ≤ sg 41 38)
        && decide (sg 41 38 ≤ 3) && decide (-7 ≤ sg 37 34) && decide (sg 37 34 ≤ 5) && decide (2 ≤ bits w0 33 30) && decide (bits w0 33 30 ≤ 10)
    | 1 => bits w0 59 0 == 0 && bits w1 63 48 == 0 && bits w2 63 32 == 0 && decide (bits w2 31 0 < 1000000000) && getF .PTP_STAT_DISC 0 e == 2
    | 2 => bits w0 39 0 == 0 && w1 == 0 && w2 == 0 && decide (1 ≤ bits w0 59 56) && decide (bits w0 59 56 ≤ 10)
    | 3 => bits w0 59 0 == 0 && w1 == 0 && w2 == 0
    | 4 => bits w0 58 0 == 0
    | 5 => bits w0 56 32 == 0 && bits w1 63 48 == 0 && decide (bits w2 63 32 < 1000000000)
    | _ => false
  if ok then 0 else 0x0103

/-- The whole house samples that a step or remap of `o` (2^-32 ns) moves the mapping by: round(o × f_nom × π). -/
def samplesOfStep (e : Engine) (o : Int) : Int :=
  let pl := pullOf e
  roundDiv (o * ((houseHz e * pl.1 : Nat) : Int)) (2 ^ 32 * 10 ^ 9 * pl.2)

/-- The time of `s` house samples in 2^-32 ns. -/
def timeOfSamples (e : Engine) (s : Int) : Int :=
  let pl := pullOf e
  roundDiv (s * ((2 ^ 32 * 10 ^ 9 * pl.2 : Nat) : Int)) (houseHz e * pl.1)

/-- PTP time of house sample n by the mapping, in 2^-32 ns (R360). -/
def mapTime (e : Engine) (n : Nat) : Int := (e.ptp.t0 : Int) + timeOfSamples e ((n : Int) - (e.ptp.n0 : Int))

/-- The registers of the mapping. -/
def showMap (e : Engine) : Engine :=
  let ns := e.ptp.t0 / 2 ^ 32
  let e := setF .PTP_MAP_N0_LO_N0 0 e.ptp.n0 (setF .PTP_MAP_N0_HI_N0 0 (e.ptp.n0 / 2 ^ 32) e)
  setF .PTP_MAP_T0_SL_T0 0 (ns / 1000000000) (setF .PTP_MAP_T0_NS_T0 0 (ns % 1000000000) e)

/-- The local clock steps by `o` ns (R362): the mapping rewrite waits for the next tick; queued pulses act. -/
def stepClock (o : Int) (t : Nat) (e : Engine) : Engine :=
  let v := ((e.ptp.time : Int) + 2 ^ 32 * o).toNat
  let e := { e with ptp := { e.ptp with time := v, step := none, rewrite := some (2 ^ 32 * o) }
                    net := { e.net with xmit := e.net.xmit.map fun p => (p.1, { p.2 with busy := p.2.busy + 100 * o, share := p.2.share + 100 * o }) } }
  let e := setF .PTP_STAT_STEPS 0 1 (showTime v e)
  let e := postEvent 0x0701 [(o % 2 ^ 64).toNat, frameNo e + 1] e
  [0, 1, 2, 3].foldl (stepPulse (clockNs e t)) e

/-- A `PTP_CFG` record applies, but for a step's effect on queued host frames. -/
def applyPtpCfg (ws : List Word64) (e : Engine) : Engine :=
  let w0 := ws.getD 0 0
  let w1 := ws.getD 1 0
  let w2 := ws.getD 2 0
  let i := bits w0 59 59
  match bits w0 63 60 with
  | 0 =>
    let old := getInst e i
    let e := setInst i { PtpInst.off with w0 := w0, w1 := w1, ingress := old.ingress, egress := old.egress } e
    let e := if bit w0 58 then (if bit w0 57 then chooseMaster i e else setPtpState i 4 e) else setPtpState i 3 e
    allSlots.foldl evalSlot (refreshPtp e)
  | 2 => setF .PTP_SERVO_SLEW 0 (bits w0 59 56) (setF .PTP_SERVO_MAPLIM 0 (bits w0 55 40) e)
  | 3 => { e with ptp := { e.ptp with rewrite := some ((e.ptp.time : Int) - mapTime e e.sample) } }
  | 4 => setInst i { getInst e i with ingress := signed 64 w1.toNat, egress := signed 64 w2.toNat } e
  | 5 =>
    let n := bits w0 59 58
    let start := 1000000000 * bits w1 47 0 + bits w2 63 32
    let p : Pulse := { start := start, next := start, period := bits w2 31 0, width := bits w0 31 0 }
    let p := if p.period = 0 then p else { p with next := trainNext p (clockNs e 0) }
    let q := if bit w0 57 then some p else none
    setBitF .PTP_PULSE_ACT 0 n q.isSome { e with ptp := { e.ptp with pulses := tput none e.ptp.pulses n q } }
  | _ => e

/-! ### The local clock and the mapping at a frame tick (R360–R364) -/

/-- The mapping is set at the tick when the engine starts or first locks. -/
def firstMap (e : Engine) : Engine :=
  if e.ptp.mapped then e else { e with ptp := { e.ptp with n0 := e.sample, t0 := e.ptp.time, mapped := true } }

/-- The rewrite of R363 at the tick of frame m + 1. -/
def rewriteMap (e : Engine) : Engine :=
  match e.ptp.rewrite with
  | none => e
  | some o =>
    let s := samplesOfStep e o
    let d := timeOfSamples e s
    let e' := { e with ptp := { e.ptp with rewrite := none, old := some (e.ptp.n0, e.ptp.t0), oldAt := e.sample, oldRes := o - d, t0 := ((e.ptp.t0 : Int) + d).toNat } }
    if coupled e then setF .CLK_BUILDOUT_BUILDOUT 0 (satField 32 (roundDiv (1000 * (o - d)) (2 ^ 32))) e' else e'

/-- MAPERR in 1/256 samples, and event 0x0705 (R361). -/
def checkMap (e : Engine) : Engine :=
  let pl := pullOf e
  let err := roundDiv ((mapTime e e.sample - (e.ptp.time : Int)) * ((houseHz e * pl.1 * 256 : Nat) : Int)) (2 ^ 32 * 10 ^ 9 * pl.2)
  let lim := getF .PTP_SERVO_MAPLIM 0 e
  let e := setF .PTP_MAPERR_MAPERR 0 (satField 32 err) e
  if e.ptp.mapHigh then (if 2 * err.natAbs < lim then { e with ptp := { e.ptp with mapHigh := false } } else e)
  else if lim < err.natAbs then postEvent 0x0705 [(err % 2 ^ 64).toNat] { e with ptp := { e.ptp with mapHigh := true } }
  else e

/-- The clock advances to the tick; then the mapping. -/
def ptpTick (e : Engine) : Engine :=
  let e := refreshPtp e
  let tm := tmAt e e.sample
  let v := e.ptp.time + (tm - e.ptp.tm) * incr e
  let e := showTime v { e with ptp := { e.ptp with time := v, tm := tm } }
  checkMap (showMap (rewriteMap (firstMap e)))

/-- A second after a rewrite only the new mapping places packets (R364). -/
def effReceiveGraceEnd (e : Engine) : Engine := { e with ptp := { e.ptp with old := none } }

def execReceiveGraceEnd (s : State) : Host.Outcome State Fault Refusal :=
  runLive "RECEIVE_GRACE_END" Instr.receiveGraceEnd.wf effReceiveGraceEnd s

end Sys2Proof.Machine
end

