-- ==== Sys2Proof/Machine/Net.lean ====
section
/-! DEFINITION. Network media (chapter 11): stream records and their checks, received frames, loss and recovery, media packets, host
frames, and steps of the clock. -/
namespace Sys2Proof.Machine

/-! ### Stream records (R344–R346, R366) -/

def recW (r : List Word64) (i hi lo : Nat) : Nat := bits (r.getD i 0) hi lo
def recStream (r : List Word64) : Nat := recW r 0 63 55
def recEn (r : List Word64) : Bool := recW r 0 54 54 == 1
def recPath (r : List Word64) (q : Nat) : Bool := recW r 0 (52 + q) (52 + q) == 1
def recV6 (r : List Word64) : Bool := recW r 0 51 51 == 1
def recEnc (r : List Word64) : Nat := recW r 0 50 49
/-- The stream's rate in Hz. -/
def recHz (r : List Word64) : Nat := if recW r 0 45 45 = 1 then 96000 else 48000
/-- P, in samples of the stream (Table 11.1). -/
def recP (r : List Word64) : Nat := [6, 12, 16, 48, 192].getD (recW r 0 48 46) 6 * (recHz r / 48000)
def recChans (r : List Word64) : Nat := recW r 0 44 39 + 1
def recFirst (r : List Word64) : Nat := recW r 0 38 27
def recD (r : List Word64) : Nat := recW r 0 26 23 + 1
def recDom (r : List Word64) : Nat × Nat := (recW r 0 15 14, recW r 0 13 10)
/-- Bytes of a sample. -/
def encBytes (k : Nat) : Nat := [2, 3, 4].getD k 4
def recPayload (r : List Word64) : Nat := recChans r * recP r * encBytes (recEnc r)

/-- Line bits a second that a stream takes on a port (R346). -/
def recRate (r : List Word64) : Nat := 8 * (recHz r / recP r) * (recPayload r + if recV6 r then 102 else 82)

/-- The records of the streams in use of a direction. -/
def rxRecs (e : Engine) : List (List Word64) := e.net.rx.filterMap fun p => p.2.map (·.rec_)
def txRecs (e : Engine) : List (List Word64) := e.net.tx.filterMap fun p => p.2.map (·.rec_)

/-- The rate of a record's domain fits the stream; only a house of the 44.1 kHz family has the other family's synthesiser run at 48 or 96 kHz
(R345). -/
def recDomOk (e : Engine) (r : List Word64) : Bool :=
  match recDom r with
  | (0, _) => recHz r == houseHz e
  | (1, _) => recHz r == houseHz e * 2 ^ getF .ROUTE_CFG_DRATIO 0 e
  | (2, k) => is441 (houseHz e) && getF .ROUTE_FN_CFG_SRC k e == 4 && isF .ROUTE_FN_CFG_EN k e && nomHz (getF .ROUTE_FN_CFG_NOM k e) == recHz r
  | _ => false

def lineHz (e : Engine) (q : Nat) : Nat := if getF .NET_PORTCFG_SPEED q e = 1 then 10000000000 else 25000000000

/-- Two records share a channel. -/
def recsMeet (a b : List Word64) : Bool := decide (recFirst a < recFirst b + recChans b) && decide (recFirst b < recFirst a + recChans a)

/-- Bytes of receive buffer of a stream. -/
def rxBytes (r : List Word64) : Nat := recChans r * (recD r + 3) * recP r * 4

/-- The status of a `STREAM_TX` or `STREAM_RX` record. -/
def streamCheck (rx : Bool) (r : List Word64) (e : Engine) : Nat :=
  let others := (if rx then rxRecs e else txRecs e).filter fun o => recStream o != recStream r
  let am := recEnc r == 2
  let fields := recW r 0 53 52 != 0 && recEnc r != 3 && decide (recW r 0 48 46 ≤ 4) && decide (recFirst r + recChans r ≤ 4096)
    && decide ((recDom r).1 ≤ 2) && recW r 0 3 0 == 0
    && (if am then decide (0x28 ≤ recW r 0 9 4) && decide (recW r 0 9 4 ≤ 0x37) else recW r 0 9 4 == 0)
    && (if rx then decide (1 ≤ recW r 2 31 24) else decide (recW r 2 19 0 ≤ 1000)) && decide (recPayload r ≤ 1440)
  if !recEn r then 0
  else if !fields then 0x0103
  else if !recDomOk e r then 0x0122
  else if others.any (recsMeet r) then 0x0401
  else if (am && decide (32 ≤ (others.filter fun o => recEnc o == 2).length))
      || ([0, 1].any fun q => recPath r q && decide (9 * lineHz e q / 10 < (((r :: others).filter fun o => recPath o q).map recRate).sum))
      || (rx && decide (3 * 2 ^ 20 < ((r :: others).map rxBytes).sum)) then 0x040B
  else 0

/-! ### Stream sample indices (R347, R360) -/

/-- k of a stream as a fraction: its rate over the pulled house rate. -/
def ratioOf (e : Engine) (r : List Word64) : Nat × Nat :=
  let pl := pullOf e
  if (recDom r).1 = 2 then (recHz r * pl.2, houseHz e * pl.1) else if (recDom r).1 = 1 then (2 ^ getF .ROUTE_CFG_DRATIO 0 e, 1) else (1, 1)

/-- round(t₀ × f_s) of a mapping; f_s is k × f_nom × π. -/
def mapStamp (e : Engine) (k : Nat × Nat) (t0 : Nat) : Nat :=
  let pl := pullOf e
  (roundDiv ((t0 * houseHz e * pl.1 * k.1 : Nat) : Int) (2 ^ 32 * 10 ^ 9 * pl.2 * k.2)).toNat

/-- The first stream sample at or after house sample n, counted from the mapping's n₀. -/
def firstIdx (k : Nat × Nat) (n0 n : Nat) : Int := -(-(((n : Int) - (n0 : Int)) * (k.1 : Int)) / (k.2 : Int))

/-- The stream sample index, from n₀, of an RTP timestamp: the one nearest to the present index. -/
def idxOfStamp (e : Engine) (k : Nat × Nat) (m : Nat × Nat) (ts : Nat) : Int :=
  let cur := firstIdx k m.1 e.sample
  let d : Int := ((ts : Int) - (mapStamp e k m.2 : Int) - cur) % 2 ^ 32
  cur + (if d < 2 ^ 31 then d else d - 2 ^ 32)

/-- The key of a buffered sample. -/
def rxKey (i : Int) (c : Nat) : Nat := ((i + 2 ^ 40) * 64).toNat + c

def getRx (e : Engine) (s : Nat) : Option RxS := tget none e.net.rx s
def setRx (s : Nat) (v : Option RxS) (e : Engine) : Engine := { e with net := { e.net with rx := tput none e.net.rx s v } }
def getTx (e : Engine) (s : Nat) : Option TxS := tget none e.net.tx s
def setTx (s : Nat) (v : Option TxS) (e : Engine) : Engine := { e with net := { e.net with tx := tput none e.net.tx s v } }

/-- The receive sources, or transmit sinks, of a record. -/
def recSignals (r : List Word64) : List Nat := (List.range (recChans r)).map (recFirst r + ·)

/-- An AM824 stream that goes passes nothing more to its AES3 transmitter. -/
def dropVuc (r : List Word64) (e : Engine) : Engine :=
  let a := 2 * (recW r 0 9 4 - 0x28)
  if recEnc r ≠ 2 then e else { e with ports := { e.ports with vuc := tput [] (tput [] e.ports.vuc a []) (a + 1) [] } }

/-- A `STREAM_RX` record applies. -/
def applyStreamRx (r : List Word64) (e : Engine) : Engine :=
  let s := recStream r
  let e := match getRx e s with
    | some o => dropVuc o.rec_ <| (recSignals o.rec_).foldl (fun e c => declareFound c (setSig c [] { e with mix := { e.mix with rxDom := tput (0, 0) e.mix.rxDom c (0, 0) } })) e
    | none => e
  let e := setF .NET_RXSTAT_PATHS s 0 (setF .NET_RXSTAT_STATE s (if recEn r then 1 else 0) e)
  if recEn r then
    setRx s (some { rec_ := r, buf := [], labels := [], seqs := [], slotOfs := 0, missAt := -1, recover := false })
      ((recSignals r).foldl (fun e c => { e with mix := { e.mix with rxDom := tput (0, 0) e.mix.rxDom c (recDom r) } }) e)
  else setRx s none e

/-- A `STREAM_TX` record applies in frame a: the stream starts with the samples emitted in frame a + 1 (R350). -/
def applyStreamTx (r : List Word64) (e : Engine) : Engine :=
  let s := recStream r
  let e := match getTx e s with
    | some o => (recSignals o.rec_).foldl (fun e c => { e with mix := { e.mix with txDom := tput (0, 0) e.mix.txDom c (0, 0) } }) e
    | none => e
  let e := setF .NET_TXSTAT_RUN s 0 e
  if recEn r then
    setTx s (some { rec_ := r, start := frameNo e + 1, j := 0, q := List.replicate (recChans r) [], at_ := 0, sent := 0, built := [] })
      ((recSignals r).foldl (fun e c => { e with mix := { e.mix with txDom := tput (0, 0) e.mix.txDom c (recDom r) } }) e)
  else setTx s none e

/-! ### Received frames (R342) -/

/-- A big-endian number of `n` bytes at `i`. -/
def beAt (b : List Byte) (i n : Nat) : Nat := leNat ((b.drop i).take n).reverse

/-- The parts of a frame that the sort reads. PRESUMED (log entry 24): the Ethernet, IP and UDP headers. -/
structure Pkt where
  dmac : Nat
  /-- UDP: source and destination address, ports, and payload. -/
  udp : Option (Nat × Nat × Nat × Nat × List Byte)
  deriving DecidableEq, Repr

def parseUdp (src dst : Nat) (b : List Byte) : Option (Nat × Nat × Nat × Nat × List Byte) :=
  if 8 ≤ b.length ∧ 8 ≤ beAt b 4 2 ∧ beAt b 4 2 ≤ b.length then some (src, dst, beAt b 0 2, beAt b 2 2, (b.take (beAt b 4 2)).drop 8) else none

def parseFrame (f : List Byte) : Pkt :=
  let o := if beAt f 12 2 = 0x8100 then 18 else 14
  let ty := beAt f (o - 2) 2
  let b := f.drop o
  { dmac := beAt f 0 6,
    udp := if ty = 0x0800 ∧ beAt b 9 1 = 17 then parseUdp (beAt b 12 4) (beAt b 16 4) (b.drop (beAt b 0 1 % 16 * 4))
      else if ty = 0x86DD ∧ beAt b 6 1 = 17 then parseUdp (beAt b 8 16) (beAt b 24 16) (b.drop 40) else none }

/-- An address of an enabled PTP instance (R358). PRESUMED (log entry 23): the multicast addresses of IEEE 1588 over UDP. -/
def ptpAddr (p : PtpInst) (a : Nat) : Bool :=
  if instV6 p then (a % 2 ^ 112 == 0x181 && a / 2 ^ 120 == 0xFF) || a == 0xFF020000000000000000000000000000 + 0x6B
  else a == 0xE0000181 || a == 0xE000006B

/-- An address of a record's path, IPv4 in the low half of the first word. -/
def recAddr (r : List Word64) (w q : Nat) : Nat :=
  let hi := (r.getD (w + 2 * q) 0).toNat
  if recV6 r then 2 ^ 64 * hi + (r.getD (w + 2 * q + 1) 0).toNat else hi % 2 ^ 32

/-- The stream that a datagram on path q belongs to. -/
def streamOf (e : Engine) (q src dst dport : Nat) : Option Nat :=
  (e.net.rx.find? fun p => match p.2 with
    | some x => recPath x.rec_ q && dst == recAddr x.rec_ 3 q && dport == recW x.rec_ 1 31 16
        && (recAddr x.rec_ 7 q == 0 || recAddr x.rec_ 7 q == src)
    | none => false).map (·.1)

/-- A payload sample as Q1.31 (R286): L16, L24, or the audio bits of an AM824 subframe. -/
def decodeSample (enc : Nat) (b : List Byte) : Int :=
  signed 32 (match enc with
    | 0 => 2 ^ 16 * beAt b 0 2
    | 1 => 2 ^ 8 * beAt b 0 3
    | _ => 2 ^ 8 * beAt b 1 3)

/-- Takes samples placed by a discarded copy out of the buffer. -/
def unplace (base : Int) (n chans : Nat) (b : Table (Option Int)) : Table (Option Int) :=
  (List.range (n * chans)).foldl (fun b j => tput none b (rxKey (base + (j / chans : Nat)) (j % chans)) none) b

/-- The house sample index `t` ns after the tick. -/
def sampleNow (e : Engine) (t : Nat) : Nat := let pl := pullOf e; e.sample + t * houseHz e * pl.1 / (1000000000 * pl.2)

/-- Where a packet's first sample is placed: under the new mapping when that lies within the window, else under the old one (R347, R364).
`cur` is the present stream index and `lo` the first index not committed, by mapping. -/
def placeAt (e : Engine) (r : List Word64) (ts t : Nat) : Int :=
  let k := ratioOf e r
  let now := sampleNow e t
  let under := fun m : Nat × Nat => idxOfStamp e k m ts + ((recD r * recP r : Nat) : Int)
  let inWin := fun (m : Nat × Nat) (i : Int) => decide (firstIdx k m.1 e.sample ≤ i)
    && decide (i + ((recP r - 1 : Nat) : Int) ≤ firstIdx k m.1 now + (((recD r + 3) * recP r : Nat) : Int))
  let new := (e.ptp.n0, e.ptp.t0)
  match e.ptp.old with
  | none => under new
  | some o => if inWin new (under new) then under new else under o + (firstIdx k e.ptp.n0 o.1)

/-- Places an accepted packet (R347–R349): late samples stay out, an early packet is dropped. PRESUMED (log entry 28): V, U and C are the low bits
of an AM824 label byte. -/
def placePacket (s q seq ts t : Nat) (pay : List Byte) (x : RxS) (e : Engine) : Engine :=
  let r := x.rec_
  let k := ratioOf e r
  let p := recP r
  let i := placeAt e r ts t
  let lo := firstIdx k e.ptp.n0 e.sample
  let cur := firstIdx k e.ptp.n0 (sampleNow e t)
  if resetting e 3 s then e
  else if cur + (((recD r + 3) * p : Nat) : Int) < i + ((p - 1 : Nat) : Int) then bumpF .NET_RXCNT_EARLY s 1 e
  else
    let e := if i < lo then bumpF .NET_RXCNT_LATE s 1 (markFault e) else e
    let n := recChans r
    let w := encBytes (recEnc r)
    let buf := (List.range (p * n)).foldl (fun b j =>
      let idx := i + (j / n : Nat)
      if idx < lo then b else tput none b (rxKey idx (j % n)) (some (decodeSample (recEnc r) ((pay.drop (j * w)).take w)))) x.buf
    let labels := if recEnc r ≠ 2 then x.labels else (List.range (p * n)).foldl (fun b j =>
      let idx := i + (j / n : Nat)
      if idx < lo then b else tput 0 b (rxKey idx (j % n)) (beAt pay (j * w) 1 % 8 + 1)) x.labels
    let used := decide (lo ≤ i + ((p - 1 : Nat) : Int))
    let x := { x with buf := buf, labels := labels, seqs := ((seq, ts, q) :: x.seqs).take 64, slotOfs := i % (p : Int) }
    if !used then setRx s (some x) e
    else
      let e := if getF .NET_RXSTAT_STATE s e = 1 then setBitF .NET_RXSTAT_PATHS s q true (setF .NET_RXSTAT_STATE s 2 e) else e
      setRx s (some x) e

/-- An RTP packet reaches its stream on path q (R347, R349). PRESUMED (log entry 24): the RTP header of RFC 3550. -/
def receiveMedia (s q t : Nat) (b : List Byte) (e : Engine) : Engine :=
  match getRx e s with
  | none => e
  | some x =>
    let r := x.rec_
    let seq := beAt b 2 2
    let ts := beAt b 4 4
    let pay := b.drop (12 + 4 * (beAt b 0 1 % 16))
    let ok := beAt b 0 1 / 64 == 2 && beAt b 1 1 % 128 == recW r 0 22 16 && (recW r 1 63 32 == 0 || beAt b 8 4 == recW r 1 63 32)
      && pay.length == recPayload r
    if !ok then e
    else
      match x.seqs.find? fun c => c.1 == seq && c.2.2 != q with
      | some c =>
        if c.2.1 = ts then e
        else
          let e := bumpF .NET_RXSTAT_PMIS s 1 e
          if q = 0 then
            placePacket s q seq ts t pay { x with buf := unplace (placeAt e r c.2.1 t) (recP r) (recChans r) x.buf } e
          else e
      | none => if x.seqs.any fun c => c.1 == seq && c.2.1 == ts then e else placePacket s q seq ts t pay x e

/-- The CRC-32 of Ethernet over a byte, least significant bit first. PRESUMED (log entry 24): IEEE 802.3. -/
def crc32Bit : Nat → Nat → Nat
  | 0, c => c
  | n + 1, c => crc32Bit n (if c % 2 = 1 then c / 2 ^^^ 0xEDB88320 else c / 2)
def crc32 (bs : List Byte) : Nat := bs.foldl (fun c b => crc32Bit 8 (c ^^^ b.toNat)) 0xFFFFFFFF ^^^ 0xFFFFFFFF

/-- The multicast filter of a port passes a destination (Table 11.9). -/
def mcPass (e : Engine) (q : Nat) (dmac : List Byte) : Bool :=
  let h := crc32 dmac / 2 ^ 24
  bitF .NET_MCFILT_MCFILT (8 * q + h / 32) (h % 32) e

/-! ### The transmitter of a port (R343) -/

def getXmit (e : Engine) (q : Nat) : Xmit := tget Xmit.idle e.net.xmit q
def setXmit (q : Nat) (x : Xmit) (e : Engine) : Engine := { e with net := { e.net with xmit := tput Xmit.idle e.net.xmit q x } }

/-- 1/100 ns that a byte takes on the wire of a port (Table 11.7). -/
def byteTime (e : Engine) (q : Nat) : Nat :=
  let s := getF .NET_PORTCFG_SPEED q e
  if q < 2 then (if s = 1 then 80 else 32) else [800, 8000, 80000].getD s 800

/-- The wire time of a frame of `n` bytes without its FCS: with the FCS at least 64 bytes, preamble and inter-frame gap included. -/
def wireTime (e : Engine) (q n : Nat) : Int := ((max 64 (n + 4) + 20) * byteTime e q : Nat)

/-- A media packet that waits for its start: its launch time L in 1/100 ns, its stream, and its wire time. -/
structure Launch where
  l : Int
  s : Nat
  w : Int

/-- Bytes of a stream's frame without the FCS (R346). -/
def frameBytes (r : List Word64) : Nat := 14 + (if recW r 2 63 52 = 0 then 0 else 4) + (if recV6 r then 40 else 20) + 8 + 12 + recPayload r

/-- The mapping's time of stream sample `i` of a packet whose first sample is `first`, in 2^-32 ns of the local clock: a packet built under the old
mapping keeps its instant, and a step that the mapping has yet to follow moves none (R360, R365). -/
def streamTime (e : Engine) (k : Nat × Nat) (first i : Int) : Int :=
  let pl := pullOf e
  let t0 := match e.ptp.old with
    | some o => if first < firstIdx k o.1 e.ptp.oldAt then (o.2 : Int) + (e.ptp.t0 - o.2) + e.ptp.oldRes else e.ptp.t0
    | none => e.ptp.t0
  t0 + e.ptp.rewrite.getD 0 + roundDiv (i * ((2 ^ 32 * 10 ^ 9 * pl.2 * k.2 : Nat) : Int)) (houseHz e * pl.1 * k.1)

/-- The launch time of the j-th packet that a stream holds (R350). -/
def launchTime (e : Engine) (x : TxS) (j : Nat) : Int :=
  let p : Int := recP x.rec_
  streamTime e (ratioOf e x.rec_) (x.at_ + j * p) (x.at_ + (j + 1) * p) * 100 / 2 ^ 32 + 100000 * (recW x.rec_ 2 19 0 : Nat)

/-- Packets that a stream holds. -/
def readyPackets (x : TxS) : Nat := match x.q with | [] => 0 | l :: ls => ls.foldl (fun n c => min n (c.length / recP x.rec_)) (l.length / recP x.rec_)

/-- A packet put into its place in a list, behind those that it does not precede. -/
def insertBy (lt : Launch → Launch → Bool) (x : Launch) : List Launch → List Launch
  | [] => [x]
  | y :: ys => if lt x y then x :: y :: ys else y :: insertBy lt x ys

/-- The media packets that wait on a port, in the order of their launch times. -/
def mediaDue (e : Engine) (q : Nat) : List Launch :=
  let all := e.net.tx.flatMap fun p => match p.2 with
    | some x =>
      if recPath x.rec_ q && isF .NET_TXSTAT_RUN p.1 e then
        ((List.range (readyPackets x)).drop (x.sent / 2 ^ q % 2)).map fun j => ⟨launchTime e x j, p.1, wireTime e q (frameBytes x.rec_)⟩
      else []
    | none => []
  all.foldl (fun l x => insertBy (fun a b => decide (a.l < b.l)) x l) []

/-- Packets back to back in ascending stream number from `at_`: each with its start, and the end of the last. -/
def backToBack (at_ : Int) : List Launch → List (Int × Launch) × Int
  | [] => ([], at_)
  | x :: xs =>
    let st := max at_ x.l
    let r := backToBack (st + x.w) xs
    ((st, x) :: r.1, r.2)

/-- A group of packets in ascending stream number, those of one stream in their order. -/
def byStream (g : List Launch) : List Launch := g.foldl (fun l x => insertBy (fun a b => decide (a.s < b.s)) x l) []

/-- The scheduled starts of R343: packets whose wire times would overlap form a group. `g` is the group so far, in the order of launch times. -/
def scheduleFrom (at_ : Int) (g : List Launch) : List Launch → List (Int × Launch)
  | [] => (backToBack at_ (byStream g)).1
  | x :: xs =>
    let r := backToBack at_ (byStream g)
    if g.isEmpty || decide (x.l < r.2) then scheduleFrom at_ (g ++ [x]) xs else r.1 ++ scheduleFrom r.2 [x] xs

/-- The media packets scheduled on a port. -/
def mediaSchedule (e : Engine) (q : Nat) : List (Int × Launch) := if q < 2 then scheduleFrom (getXmit e q).busy [] (mediaDue e q) else []

/-- A frame of wire time `w` that is no media packet may start at `now`: the wire is free, and the frame does not run past the scheduled start of the
next media packet (R343). -/
def otherMay (e : Engine) (q : Nat) (now w : Int) : Bool :=
  decide ((getXmit e q).busy ≤ now) && (match mediaSchedule e q with | (st, _) :: _ => decide (now + w ≤ st) | [] => true)

/-- The first moment from `now` on at which such a frame may start. -/
def firstFree (e : Engine) (q : Nat) (now w : Int) : Int :=
  (mediaSchedule e q).foldl (fun at_ p => if at_ + w ≤ p.1 then at_ else max at_ (p.1 + p.2.w)) (max now (getXmit e q).busy)

/-- A frame of `n` bytes without its FCS starts on a port's wire, shown as `f`. -/
def putFrame (q : Nat) (at_ : Int) (n : Nat) (f : List Byte) (e : Engine) : Engine :=
  setXmit q { getXmit e q with busy := max (getXmit e q).busy (at_ + wireTime e q n) } { e with net := { e.net with wire := tput [] e.net.wire q f } }

/-! ### Host frames (R352, R353) -/

/-- The frame is for the host. -/
def forHost (e : Engine) (q : Nat) (f : List Byte) : Bool :=
  let d := beAt f 0 6
  q == 2 || d == 0xFFFFFFFFFFFF || d == 2 ^ 32 * getF .NET_MACHI_MAC q e + getF .NET_MACLO_MAC q e
    || (beAt f 0 1 % 2 == 1 && mcPass e q (f.take 6))

/-- Event 0x0706 with the drops since the last one, at most once a second. -/
def tellDrops (e : Engine) : Engine :=
  let now := frameNo e
  if e.net.drops ≠ 0 ∧ (e.net.dropAt = 0 ∨ e.net.dropAt - 1 + secFrames e ≤ now) then
    postEvent 0x0706 [e.net.drops] { e with net := { e.net with drops := 0, dropAt := now + 1 } }
  else e

/-- A host frame is dropped for want of a buffer. -/
def dropHost (e : Engine) : Engine :=
  tellDrops (bumpF .NET_STAT_HRXDROP 0 1 { e with net := { e.net with drops := e.net.drops + 1 } })

def hrxSize (e : Engine) : Nat := 2 ^ getF .NET_HRX_CFG_LOG2 0 e
def htxSize (e : Engine) : Nat := 2 ^ getF .NET_HTX_CFG_LOG2 0 e

/-- The host address of entry `k` of the receive and transmit rings. -/
def hrxEntry (e : Engine) (k : Nat) : Nat :=
  2 ^ 32 * getF .NET_HRX_BASE_HI_BASE 0 e + getF .NET_HRX_BASE_LO_BASE 0 e + 32 * k
def htxEntry (e : Engine) (k : Nat) : Nat :=
  2 ^ 32 * getF .NET_HTX_BASE_HI_BASE 0 e + getF .NET_HTX_BASE_LO_BASE 0 e + 32 * k

/-- Host memory through the outbound window: reads outside it give 0. -/
def hostRead64 (e : Engine) (h : Nat) : Word64 := match hostAt e h 8 with | some a => read64 e a | none => 0
def hostWrite64 (h : Nat) (v : Word64) (e : Engine) : Engine :=
  match hostAt e h 8 with | some a => write64 a v e | none => bumpF .HOST_PCIE_STAT_OUTRNG 0 1 e
def hostWriteBytes (h : Nat) (bs : List Byte) (e : Engine) : Engine :=
  match hostAt e h bs.length with | some a => writeBytes a bs e | none => bumpF .HOST_PCIE_STAT_OUTRNG 0 1 e

/-- A frame for the host fills the next posted buffer (Table 11.2). -/
def hostReceive (q t : Nat) (f : List Byte) (e : Engine) : Engine :=
  let head := getF .NET_HRX_HEAD_HEAD 0 e
  if e.host.linkOff ∨ !isF .NET_HRX_CFG_EN 0 e ∨ head = getF .NET_HRX_TAIL_TAIL 0 e then dropHost e
  else
    let a := hrxEntry e head
    let ns := if q = 2 then 0 else clockNs e t
    let e := hostWriteBytes (hostRead64 e a).toNat (f.take 2048) e
    let e := hostWrite64 (a + 8) (BitVec.ofNat 64 (2 ^ 48 * (f.length % 2 ^ 16) + 2 ^ 46 * q + 1)) e
    let e := hostWrite64 (a + 16) (BitVec.ofNat 64 (2 ^ 16 * (ns / 1000000000))) e
    let e := hostWrite64 (a + 24) (BitVec.ofNat 64 (2 ^ 32 * (ns % 1000000000))) e
    let e := setF .NET_HRX_HEAD_HEAD 0 ((head + 1) % hrxSize e) e
    if isF .NET_HRX_CFG_IRQ 0 e then fireMsi (getF .NET_HRX_CFG_VEC 0 e) e else e

/-- A port runs a FEC: RS at 25 Gb/s only (R341). -/
def fecOn (e : Engine) (q : Nat) : Bool :=
  getF .NET_PORTCFG_FEC q e == 1 || (getF .NET_PORTCFG_FEC q e == 2 && decide (q < 2) && getF .NET_PORTCFG_SPEED q e == 0)

/-- A received Ethernet frame, without its FCS, is sorted; a frame above the 1522 bytes of R341 is dropped (DESIGN CHOICE, log 164). `cor` and `unc` are the FEC blocks corrected and found uncorrectable since the last frame. -/
def effEthFrameReceive (q : Nat) (f : List Byte) (cor unc t : Nat) (e : Engine) : Engine :=
  let e := if fecOn e q then bumpF .NET_PORTSTAT_FECCOR q cor (bumpF .NET_PORTSTAT_FECUNC q unc e) else e
  if !isF .NET_PORTCFG_EN q e then e
  else if 1518 < f.length then bumpF .NET_STAT_DROP 0 1 e
  else if q = 2 then hostReceive q t f e
  else
    let k := parseFrame f
    let host := fun e : Engine => if forHost e q f then hostReceive q t f e else bumpF .NET_STAT_DROP 0 1 e
    match k.udp with
    | none => host e
    | some (src, dst, _, dport, b) =>
      if (dport == 319 || dport == 320) && instEn (getInst e q) && ptpAddr (getInst e q) dst then e
      else match streamOf e q src dst dport with
        | some s => receiveMedia s q t b e
        | none => host e

def execEthFrameReceive (port : Nat) (frame : List Byte) (cor unc t : Nat) (s : State) : Host.Outcome State Fault Refusal :=
  runLive "ETH_FRAME_RECEIVE" (Instr.ethFrameReceive port frame cor unc t).wf (effEthFrameReceive port frame cor unc t) s

/-- Ring positions from `h`, `n` of them. -/
def ringFrom (h n size : Nat) : List Nat := (List.range n).map fun j => (h + j) % size

/-- The entries of the host transmit ring that wait. -/
def htxWaiting (e : Engine) : List Nat :=
  let h := getF .NET_HTX_HEAD_HEAD 0 e
  let sz := htxSize e
  if e.host.linkOff || !isF .NET_HTX_CFG_EN 0 e then []
  else (ringFrom h ((getF .NET_HTX_TAIL_TAIL 0 e + sz - h) % sz) sz).filter fun k => !bit (hostRead64 e (htxEntry e k + 8)) 0

/-- Advances the head over entries that are done. -/
def advanceHtx : Nat → Engine → Engine
  | 0, e => e
  | n + 1, e =>
    let h := getF .NET_HTX_HEAD_HEAD 0 e
    if h ≠ getF .NET_HTX_TAIL_TAIL 0 e ∧ bit (hostRead64 e (htxEntry e h + 8)) 0 then
      advanceHtx n (setF .NET_HTX_HEAD_HEAD 0 ((h + 1) % htxSize e) e)
    else e

/-- An entry completes with a status (Table 11.3). -/
def htxDone (k status : Nat) (e : Engine) : Engine :=
  let a := htxEntry e k + 8
  let w := hostRead64 e a
  let w' := BitVec.ofNat 64 (2 ^ 32 * bits w 63 32 + 2 ^ 16 * status + bits w 15 1 * 2 + 1)
  let q := bits w 47 46
  let e := if (getXmit e q).held = some k then setXmit q { getXmit e q with held := none } e else e
  let e := bumpF .NET_STAT_LATE 0 (if status = 0x0604 then 1 else 0) (hostWrite64 a w' e)
  let e := if isF .NET_HTX_CFG_IRQ 0 e then fireMsi (getF .NET_HTX_CFG_VEC 0 e) e else e
  advanceHtx (htxSize e) e

/-- LEN of an entry. -/
def htxLen (e : Engine) (k : Nat) : Nat := bits (hostRead64 e (htxEntry e k + 8)) 63 48

/-- The frame of an entry starts on the wire of its port at clock time `now`, in 1/100 ns; the next host frame waits until ten times its wire time
has passed (R352; DESIGN CHOICE, log 163). A frame outside the 60 to 1518 bytes of Table 11.3 is not sent (DESIGN CHOICE, log 164). -/
def htxSend (k status : Nat) (now : Int) (e : Engine) : Engine :=
  let q := bits (hostRead64 e (htxEntry e k + 8)) 47 46
  let buf := (hostRead64 e (htxEntry e k)).toNat
  let n := htxLen e k
  let f := match hostAt e buf n with | some a => readBytes e a n | none => List.replicate n 0
  if n < 60 ∨ 1518 < n then htxDone k status e
  else
    let e := setXmit q { getXmit e q with share := now + 10 * wireTime e q n } e
    htxDone k status (if e.pair.muted && q != 2 then e else putFrame q now n f e)

/-- A host frame may start: the transmitter is free for it and its share is not used up (R343, R352). -/
def htxMay (e : Engine) (q k : Nat) (now : Int) : Bool :=
  otherMay e q now (wireTime e q (htxLen e k)) && decide ((getXmit e q).share ≤ now)

/-- The launch time of an entry in ns. -/
def htxTime (e : Engine) (k : Nat) : Nat :=
  1000000000 * bits (hostRead64 e (htxEntry e k + 16)) 63 16 + bits (hostRead64 e (htxEntry e k + 24)) 63 32

def htxTimed (e : Engine) (k : Nat) : Bool :=
  let w := hostRead64 e (htxEntry e k + 8)
  bit w 45 && bits w 47 46 != 2

/-- The entry at the head of a port's queue, `t` ns after the tick (R353): one whose launch time has come while it waited at the head goes out as
soon as R343 lets it; one that finds its launch time past goes out as late. -/
def effHostTransmitEntry (q t : Nat) (e : Engine) : Engine :=
  match (htxWaiting e).find? fun k => bits (hostRead64 e (htxEntry e k + 8)) 47 46 == q with
  | none => e
  | some k =>
    if !isF .NET_PORTCFG_EN q e then e
    else
      let now := clockNs e t
      let lt := htxTime e k
      let may := htxMay e q k (100 * (now : Int))
      if !htxTimed e k then (if may then htxSend k 0 (100 * now) e else e)
      else if (getXmit e q).held = some k then (if lt ≤ now && may then htxSend k 0 (100 * now) e else e)
      else if lt < now then (if may then htxSend k 0x0604 (100 * now) e else e)
      else if now + 1000000000 < lt then htxDone k 0x0603 e
      else if lt = now && may then htxSend k 0 (100 * now) e
      else setXmit q { getXmit e q with held := some k } e

def execHostTransmitEntry (port t : Nat) (s : State) : Host.Outcome State Fault Refusal :=
  runLive "HOST_TRANSMIT_ENTRY" (Instr.hostTransmitEntry port t).wf (effHostTransmitEntry port t) s

/-- Queued host frames after a step of `o` ns (R365). -/
def stepHtx (o : Int) (t : Nat) (e : Engine) : Engine :=
  let now := clockNs e t
  (htxWaiting e).foldl (fun e k =>
    if !htxTimed e k then e
    else if o < 0 then (if now + 250000 < htxTime e k then htxDone k 0x0602 e else e)
    else if htxTime e k ≤ now then htxSend k 0x0604 (firstFree e (bits (hostRead64 e (htxEntry e k + 8)) 47 46) (100 * now) (wireTime e
      (bits (hostRead64 e (htxEntry e k + 8)) 47 46) (htxLen e k))) e else e) e

/-- The supervisor steps the clock by the second offset (R362). -/
def effTimeStep (t : Nat) (e : Engine) : Engine :=
  match e.ptp.step with
  | some o => if supUp e then stepHtx o t (stepClock o t e) else e
  | none => e

def execTimeStep (t : Nat) (s : State) : Host.Outcome State Fault Refusal :=
  runLive "TIME_STEP" (Instr.timeStep t).wf (effTimeStep t) s

/-- A `PTP_CFG` time record is a step of its own size. -/
def applyPtp (ws : List Word64) (e : Engine) : Engine :=
  if bits (ws.getD 0 0) 63 60 = 1 then
    let v := 1000000000 * bits (ws.getD 1 0) 47 0 + bits (ws.getD 2 0) 31 0
    let o := (v : Int) - (clockNs e 0 : Int)
    stepHtx o 0 (stepClock o 0 e)
  else applyPtpCfg ws e

/-! ### Loss and recovery (R348, R349) -/

def streamEvent (s : Nat) (lost : Bool) (e : Engine) : Engine := postEvent 0x0702 [2 ^ 55 * s + 2 ^ 54 * lost.toNat] e

/-- No packet used on any path for LOSS ms. -/
def effStreamLoss (s : Nat) (e : Engine) : Engine :=
  match getRx e s with
  | some x =>
    if getF .NET_RXSTAT_STATE s e = 3 then e
    else
      let e := (recSignals x.rec_).foldl (fun e c => declareLost c e) (setF .NET_RXSTAT_PATHS s 0 (setF .NET_RXSTAT_STATE s 3 e))
      streamEvent s true (setRx s (some { x with recover := false }) e)
  | none => e

def execStreamLoss (s : Nat) (st : State) : Host.Outcome State Fault Refusal :=
  runLive "STREAM_LOSS" (Instr.streamLoss s).wf (effStreamLoss s) st

/-- Packets used for LOSS ms with no position missed: the stream recovers at the next tick. -/
def effStreamRecovery (s : Nat) (e : Engine) : Engine :=
  match getRx e s with
  | some x => if getF .NET_RXSTAT_STATE s e = 3 then setRx s (some { x with recover := true }) e else e
  | none => e

def execStreamRecovery (s : Nat) (st : State) : Host.Outcome State Fault Refusal :=
  runLive "STREAM_RECOVERY" (Instr.streamRecovery s).wf (effStreamRecovery s) st

/-- One path of a stream with both paths is lost or returns (R349). -/
def effPathLoss (s q : Nat) (lost : Bool) (e : Engine) : Engine :=
  match getRx e s with
  | some x =>
    if recPath x.rec_ 0 && recPath x.rec_ 1 && (bitF .NET_RXSTAT_PATHS s q e == lost) then
      postEvent 0x0703 [2 ^ 55 * s + 2 ^ 53 * q + 2 ^ 52 * lost.toNat] (setBitF .NET_RXSTAT_PATHS s q (!lost) e)
    else e
  | none => e

def execPathLoss (s path : Nat) (lost : Bool) (st : State) : Host.Outcome State Fault Refusal :=
  runLive "PATH_LOSS" (Instr.pathLoss s path lost).wf (effPathLoss s path lost) st

/-! ### Media packets (R350) -/

/-- A sample as an encoding carries it, with the label byte of AM824. -/
def encodeSample (enc : Nat) (label : Nat) (x : Int) : List Byte :=
  match enc with
  | 0 => beBytes (pinWord 16 x % 2 ^ 16).toNat 2
  | 1 => beBytes (pinWord 24 x % 2 ^ 24).toNat 3
  | _ => BitVec.ofNat 8 label :: beBytes (pinWord 24 x % 2 ^ 24).toNat 3

/-- The two channels of a stream's pair that channel `c` belongs to take one AES3 input directly (R351). -/
def takesAes3 (e : Engine) (r : List Word64) (c : Nat) : Bool :=
  let k := c / 2 * 2
  let src := (getSink e (recFirst r + k)).cur
  decide (k + 1 < recChans r) && decide (0x1400 ≤ src) && decide (src < 0x1420) && src % 2 == 0
    && (getSink e (recFirst r + k + 1)).cur == src + 1

/-- The ones in the low n bits. -/
def onesIn (n v : Nat) : Nat := ((List.range n).map fun i => v / 2 ^ i % 2).sum

/-- The label of a subframe (R351): V, U and C of the AES3 input, which the state does not hold sample by sample, or V = 0, U = 0 and a bit of
the TRANSP port's channel status; and P. PRESUMED (log entry 28): from bit 0 up V, U, C and P, with even parity. -/
def labelOf (e : Engine) (r : List Word64) (c : Nat) (v : Word64) (x : Int) : Nat :=
  let b := if takesAes3 e r c then v.toNat % 8 else 4 * (v.toNat % 2)
  b + 8 * ((onesIn 3 b + onesIn 24 (pinWord 24 x % 2 ^ 24).toNat) % 2)

/-- The RTP packet of the first P samples of a stream; one whose first sample left before the last rewrite has the old mapping's
timestamp (R363). -/
def rtpPacket (e : Engine) (r : List Word64) (x : TxS) : List Byte :=
  let k := ratioOf e r
  let t0 := match e.ptp.old with
    | some o => if x.at_ < firstIdx k o.1 e.ptp.oldAt then o.2 else e.ptp.t0
    | none => e.ptp.t0
  let ts := ((mapStamp e k t0 : Int) + x.at_) % 2 ^ 32
  [BitVec.ofNat 8 0x80, BitVec.ofNat 8 (recW r 0 22 16)] ++ beBytes ((recW r 2 47 32 + x.j) % 2 ^ 16) 2 ++ beBytes ts.toNat 4
    ++ beBytes (recW r 1 63 32) 4
    ++ (List.range (recP r)).flatMap fun i => (List.range (recChans r)).flatMap fun c =>
        let y := (x.q.getD c []).getD i 0
        encodeSample (recEnc r) (labelOf e r c (Config.freeValue (e.free + i * recChans r + c)) y) y

/-- The sum of RFC 1071 over 16-bit words, complemented. PRESUMED (log entry 24). -/
def sumWords : List Byte → Nat
  | a :: b :: t => 256 * a.toNat + b.toNat + sumWords t
  | [a] => 256 * a.toNat
  | [] => 0
def checksum (bs : List Byte) : Nat :=
  let s := sumWords bs
  65535 - (if s = 0 then 0 else (s - 1) % 65535 + 1)

/-- The MAC address of an IP destination: by the multicast mapping, else that which the port has resolved. PRESUMED (log entry 24). -/
def dstMac (v6 : Bool) (a : Nat) : Nat :=
  if v6 then (if a / 2 ^ 120 = 0xFF then 0x3333 * 2 ^ 32 + a % 2 ^ 32 else Config.macOf a % 2 ^ 48)
  else if a / 2 ^ 28 = 14 then 0x01005E * 2 ^ 24 + a % 2 ^ 23 else Config.macOf a % 2 ^ 48

/-- A datagram of a record on path q: UDP header and payload. -/
def udpBytes (r : List Word64) (q j : Nat) (pay : List Byte) : List Byte :=
  let n := 8 + pay.length
  let v6 := recV6 r
  let w := if v6 then 16 else 4
  let ports := beBytes (recW r 1 15 0) 2 ++ beBytes (recW r 1 31 16) 2 ++ beBytes n 2
  let pseudo := beBytes (recAddr r 7 q) w ++ beBytes (recAddr r 3 q) w ++ beBytes n 4 ++ beBytes 17 4
  let c := checksum (pseudo ++ ports ++ pay)
  ports ++ beBytes (if !v6 && Config.ipHeader 4 j % 2 = 0 then 0 else if c = 0 then 65535 else c) 2 ++ pay

/-- An IP packet of a record on path q (R344, Table 11.5). -/
def ipBytes (r : List Word64) (q j : Nat) (pay : List Byte) : List Byte :=
  let u := udpBytes r q j pay
  let dscp := recW r 2 48 43
  if recV6 r then
    beBytes (6 * 2 ^ 28 + dscp * 2 ^ 22 + Config.ipHeader 3 j % 2 ^ 20) 4 ++ beBytes u.length 2 ++ [17, BitVec.ofNat 8 (Config.ipHeader 2 j)]
      ++ beBytes (recAddr r 7 q) 16 ++ beBytes (recAddr r 3 q) 16 ++ u
  else
    let head := fun c : Nat => [0x45, BitVec.ofNat 8 (4 * dscp)] ++ beBytes (20 + u.length) 2 ++ beBytes (Config.ipHeader 0 j) 2
      ++ beBytes (Config.ipHeader 1 j) 2 ++ [BitVec.ofNat 8 (Config.ipHeader 2 j), 17] ++ beBytes c 2 ++ beBytes (recAddr r 7 q) 4
      ++ beBytes (recAddr r 3 q) 4
    head (checksum (head 0)) ++ u

/-- The Ethernet frame of a media packet on path q, without its FCS: MAC addresses, the optional VLAN tag with PCP, and the IP packet. -/
def mediaFrame (e : Engine) (r : List Word64) (q j : Nat) (rtp : List Byte) : List Byte :=
  let vid := recW r 2 63 52
  beBytes (dstMac (recV6 r) (recAddr r 3 q)) 6 ++ beBytes (2 ^ 32 * getF .NET_MACHI_MAC q e + getF .NET_MACLO_MAC q e) 6
    ++ (if vid = 0 then [] else beBytes 0x8100 2 ++ beBytes (2 ^ 13 * recW r 2 51 49 + vid) 2)
    ++ beBytes (if recV6 r then 0x86DD else 0x0800) 2 ++ ipBytes r q j rtp

/-- The packet that a stream sends next is built when it first starts, and is the same on both paths (R350). -/
def buildPacket (x : TxS) (e : Engine) : TxS × Engine :=
  if x.sent ≠ 0 then (x, e)
  else
    let r := x.rec_
    ({ x with built := rtpPacket e r x }, { e with free := e.free + (if recEnc r = 2 then recP r * recChans r else 0) })

/-- The packet has left on path q; once it has on every path, the stream goes on to its next. -/
def TxS.leave (q : Nat) (x : TxS) : TxS :=
  let sent := x.sent ||| 2 ^ q
  if sent = recW x.rec_ 0 53 52 then
    { x with sent := 0, built := [], j := x.j + 1, q := x.q.map (·.drop (recP x.rec_)), at_ := x.at_ + (recP x.rec_ : Int) }
  else { x with sent := sent }

/-- A media packet starts on the wire of a path at its scheduled start: it is the next of the port's schedule (R343, R350). A muted member sends
nothing (R403), and a stream under re-initialisation or a disabled port neither (Table 15.9). -/
def effMediaPacketLaunch (s q : Nat) (e : Engine) : Engine :=
  match getTx e s, mediaSchedule e q with
  | some x, (st, m) :: _ =>
    if m.s ≠ s then e
    else
      let b := buildPacket x e
      let e := setTx s (some (b.1.leave q)) b.2
      if e.pair.muted || resetting e 2 s || !isF .NET_PORTCFG_EN q e then e
      else
        let f := mediaFrame e x.rec_ q x.j b.1.built
        let e := setXmit q { getXmit e q with busy := st + m.w } e
        setF .NET_TXSTAT_SEQ s ((recW x.rec_ 2 47 32 + x.j) % 2 ^ 16)
          { e with net := { e.net with pkt := tput [] e.net.pkt (2 * s + q) f, starts := tput 0 e.net.starts (2 * s + q) st } }
  | _, _ => e

def execMediaPacketLaunch (wire : StreamPath) (st : State) : Host.Outcome State Fault Refusal :=
  runLive "MEDIA_PACKET_LAUNCH" (Instr.mediaPacketLaunch wire).wf (effMediaPacketLaunch wire.stream wire.path) st

/-! ### Network media at a frame tick -/

/-- V, U and C of an AM824 stream's samples from `lo` on go to the AES3 transmitter of TRANSP, for a channel pair that its two sinks take directly
(R351). -/
def passVuc (r : List Word64) (labels : Table Nat) (lo : Int) (n : Nat) (e : Engine) : Engine :=
  if recEnc r ≠ 2 then e
  else
    let a := 2 * (recW r 0 9 4 - 0x28)
    let c := (getSink e (0x1400 + a)).cur
    let of := fun d : Nat => (List.range n).map fun (j : Nat) => tget 0 labels (rxKey (lo + (j : Int)) (c + d - recFirst r))
    if recFirst r ≤ c ∧ c + 1 < recFirst r + recChans r ∧ (getSink e (0x1401 + a)).cur = c + 1 then
      { e with ports := { e.ports with vuc := tput [] (tput [] e.ports.vuc a (of 0)) (a + 1) (of 1) } }
    else { e with ports := { e.ports with vuc := tput [] (tput [] e.ports.vuc a []) (a + 1) [] } }

/-- One receive stream: its recovery, then the commit of the frame that ended (R347). -/
def rxTick (e : Engine) (s : Nat) : Engine :=
  match getRx e s with
  | none => e
  | some x =>
    let r := x.rec_
    let k := ratioOf e r
    let lo := firstIdx k e.ptp.n0 (e.sample - frameLen e)
    let hi := firstIdx k e.ptp.n0 e.sample
    let rec_ := x.recover && getF .NET_RXSTAT_STATE s e == 3
    let e := if rec_ then
        let e := if recW r 0 53 52 = 3 then e else setF .NET_RXSTAT_PATHS s (recW r 0 53 52) e
        streamEvent s false ((recSignals r).foldl (fun e c => declareFound c e) (setF .NET_RXSTAT_STATE s 2 e)) else e
    let st := getF .NET_RXSTAT_STATE s e
    let n := (hi - lo).toNat
    let at_ := fun (c j : Nat) => tget none x.buf (rxKey (lo + (j : Int)) c)
    let e := (List.range (recChans r)).foldl (fun e c =>
      setSig (recFirst r + c) ((List.range n).map fun j => if st = 3 then 0 else (at_ c j).getD 0) e) e
    let slots : List Int := ((List.range n).filter fun j => (at_ 0 j).isNone).map fun (j : Nat) => (lo + (j : Int) - x.slotOfs) / (recP r : Int)
    let miss := slots.foldl (fun (a : Nat × Int) v => if v = a.2 then a else (a.1 + 1, v)) (0, x.missAt)
    let e := if miss.1 ≠ 0 then bumpF .NET_RXCNT_MISS s miss.1 (markFault e) else e
    let e := passVuc r (if st = 3 then [] else x.labels) lo n e
    setRx s (some { x with buf := x.buf.filter (fun p => decide (rxKey hi 0 ≤ p.1)), labels := x.labels.filter (fun p => decide (rxKey hi 0 ≤ p.1)), missAt := miss.2, recover := false }) e

/-- One transmit stream: the samples emitted in the frame that starts join its queue. -/
def txTick (e : Engine) (s : Nat) : Engine :=
  match getTx e s with
  | none => e
  | some x =>
    if frameNo e < x.start then e
    else
      let r := x.rec_
      let first := !isF .NET_TXSTAT_RUN s e
      let q := x.q.zipIdx.map fun p => p.1 ++ tget [] e.mix.netTx (recFirst r + p.2)
      let x := { x with q := q, at_ := if first then firstIdx (ratioOf e r) e.ptp.n0 e.sample else x.at_ }
      setF .NET_TXSTAT_RUN s 1 (setTx s (some x) e)

def netTick (e : Engine) : Engine :=
  let e := (e.net.rx.map (·.1)).foldl rxTick (tellDrops e)
  (e.net.tx.map (·.1)).foldl txTick e

/-- A link of ETH0, ETH1 or the management port goes down or comes up (R369). -/
def effEthLinkChange (q : Nat) (up : Bool) (e : Engine) : Engine :=
  let e := if isF .NET_PORTSTAT_LINK q e && !up then setF .NET_PORTSTAT_DOWNS q 1 e else e
  setF .NET_PORTSTAT_LINK q (up && isF .NET_PORTCFG_EN q e).toNat e

def execEthLinkChange (port : Nat) (up : Bool) (s : State) : Host.Outcome State Fault Refusal :=
  runLive "ETH_LINK_CHANGE" (Instr.ethLinkChange port up).wf (effEthLinkChange port up) s

end Sys2Proof.Machine
end

