-- ==== Sys2Proof/Machine/Fabric.lean ====
section
/-! DEFINITION. The Thofer link fabric (chapter 12): links, hello and sync, reliable control, roots and routes, paths and their blocks,
failover, and the checks of `FAB_CFG` and `FAB_SLOT`. -/
namespace Sys2Proof.Machine

/-! ### Links (R371, R376, R388) -/

def linkState (e : Engine) (l : Nat) : Nat := getF .FAB_LINK_STAT_STATE l e
def linkUp (e : Engine) (l : Nat) : Bool := linkState e l == 3
def allLinks : List Nat := [0, 1, 2, 3]

/-- A link goes to a state with a cause: event 0x0801. -/
def setLink (l st cause : Nat) (e : Engine) : Engine :=
  let e := setF .FAB_LINK_STAT_CAUSE l cause (setF .FAB_LINK_STAT_STATE l st e)
  postEvent 0x0801 [2 ^ 62 * l + 2 ^ 59 * st + 2 ^ 55 * cause] e

/-- FAB_FRAMEOFS, and the fabric frame number of the frame in progress (R379). -/
def frameOfs (e : Engine) : Int := signed 64 (2 ^ 32 * getF .FAB_FRAMEOFS_HI_FRAMEOFS 0 e + getF .FAB_FRAMEOFS_LO_FRAMEOFS 0 e)
def setFrameOfs (v : Int) (e : Engine) : Engine :=
  setF .FAB_FRAMEOFS_LO_FRAMEOFS 0 (v % 2 ^ 32).toNat (setF .FAB_FRAMEOFS_HI_FRAMEOFS 0 (v / 2 ^ 32 % 2 ^ 32).toNat e)
def fabFrame (e : Engine) : Int := (frameNo e : Int) + frameOfs e

def inFab (e : Engine) : Bool := isF .FAB_NODE_INFAB 0 e
def isRoot (e : Engine) : Bool := isF .FAB_NODE_ROOT 0 e
def ownAddr (e : Engine) : Nat := getF .FAB_NODE_ADDR 0 e
def fabLocked (e : Engine) : Bool := isF .FAB_NODE_FLOCK 0 e
def ownSerial (e : Engine) : Nat := 2 ^ 32 * getF .FAB_SERIAL_HI_SERIAL 0 e + getF .FAB_SERIAL_LO_SERIAL 0 e

/-- Event 0x0806. -/
def postLock (e : Engine) : Engine :=
  postEvent 0x0806 [2 ^ 63 * getF .FAB_NODE_FLOCK 0 e + getF .FAB_NODE_TMADDR 0 e, (frameOfs e % 2 ^ 64).toNat] e

/-! ### Reliable control (R375) -/

/-- The link that reaches a node: its primary, the alternate while that has FAILED (R380). -/
def linkTo (e : Engine) (d : Nat) : Nat :=
  let p := getF .FAB_ROUTE_PLINK d e
  if linkState e p = 4 ∧ isF .FAB_ROUTE_AVALID d e then getF .FAB_ROUTE_ALINK d e else p

/-- A message is sent on a link and held for its acknowledgement. -/
def sendOn (l dest : Nat) (body : MsgBody) (e : Engine) : Engine :=
  let q := tget 0 e.fab.seqTx dest
  { e with fab := { e.fab with out := e.fab.out ++ [{ link := l, origin := ownAddr e, dest := dest, seq := q, tries := 1, body := body }],
                               seqTx := tput 0 e.fab.seqTx dest (q + 1) } }
def sendMsg (dest : Nat) (body : MsgBody) (e : Engine) : Engine := sendOn (linkTo e dest) dest body e

/-- A message on its way is passed on under its own number, and held for the next hop's acknowledgement. -/
def relayMsg (m : RelMsg) (e : Engine) : Engine :=
  { e with fab := { e.fab with out := e.fab.out ++
    [{ link := linkTo e m.dest, origin := m.origin, dest := m.dest, seq := m.seq, tries := 1, body := m.body }] } }

/-- A notice to the far end of every UP link. -/
def flood (e : Engine) : Engine :=
  (allLinks.filter (linkUp e)).foldl (fun e l => sendOn l (getF .FAB_LINK_STAT_PEER l e) .other e) e

/-! ### Paths (R381–R390) -/

def getPath (e : Engine) (t : Nat) : Option TxPath := tget none e.fab.tx t
def setPath (t : Nat) (p : Option TxPath) (e : Engine) : Engine := { e with fab := { e.fab with tx := tput none e.fab.tx t p } }
def txPaths (e : Engine) : List (Nat × TxPath) := e.fab.tx.filterMap fun p => p.2.map fun x => (p.1, x)

/-- Sends on the alternate route. -/
def onAlt (e : Engine) (t : Nat) : Bool := isF .FAB_TXSTAT_ONALT t e

/-- Receive channels with a slot, and the links that lead to one. -/
def rxLinks (e : Engine) (r : Nat) : List Nat :=
  e.fab.slots.filterMap fun p => if p.2 = some (.rx r) then some (p.1 / 4096) else none
def rxMapped (e : Engine) : List Nat :=
  (e.fab.slots.filterMap fun p => match p.2 with | some (.rx r) => some r | _ => none).eraseDups

/-- Event 0x0805 (Table 12.4). -/
def pathEvent (ch : Nat) (rx : Bool) (kind : Nat) (e : Engine) : Engine :=
  postEvent 0x0805 [2 ^ 53 * ch + 2 ^ 52 * rx.toNat + 2 ^ 49 * kind] e

/-- Reserved channels of each link direction (Table 12.7). -/
def refreshLoad (e : Engine) : Engine :=
  allLinks.foldl (fun e l =>
    let out := (txPaths e).filter fun p => p.2.pri == l || (match p.2.alt with | some a => a.1 == l | none => false)
    let fwd := e.fab.slots.filter fun p => match p.2 with | some (.fwd k _) => k == l | _ => false
    let inc := e.fab.slots.filter fun p => p.1 / 4096 == l
    setF .FAB_LINK_LOAD_TXCH l (out.length + fwd.length) (setF .FAB_LINK_LOAD_RXCH l inc.length e)) e

/-- A receive channel's ring holds 0. -/
def clearRing (r : Nat) (e : Engine) : Engine := store (0x20300000 + 0x200 * r) (List.replicate 512 0) e

/-- A receive channel is declared lost (R390). -/
def loseRx (r : Nat) (e : Engine) : Engine :=
  if getF .FAB_RXSTAT_STATE r e = 1 then
    let e := clearRing r (setF .FAB_RXSTAT_STATE r 2 e)
    let e := setConc (0x1800 + r) { getConc e (0x1800 + r) with now := false } e
    pathEvent r true 1 (declareLost (0x1800 + r) e)
  else e

/-- A transmit path has no route left. -/
def loseTx (t : Nat) (e : Engine) : Engine :=
  match getPath e t with
  | some p => if p.priDown && (p.altDown || p.alt.isNone) then e
              else pathEvent t false 1 (setPath t (some { p with priDown := true, altDown := true }) e)
  | none => e

/-- A route of a path has failed: a protected path in use on it switches at the next output assembly. -/
def failRoute (t : Nat) (alt : Bool) (e : Engine) : Engine :=
  match getPath e t with
  | none => e
  | some p =>
    let q := if alt then { p with altDown := true } else { p with priDown := true }
    if q.priDown && (q.altDown || q.alt.isNone) then
      (if p.priDown && (p.altDown || p.alt.isNone) then e else pathEvent t false 1 (setPath t (some q) e))
    else
      let e := setPath t (some q) e
      if onAlt e t == alt && !e.fab.switch.contains t then { e with fab := { e.fab with switch := e.fab.switch ++ [t] } } else e

/-- A receive channel one of whose routes has failed: without another it is lost. -/
def failRx (r : Nat) (e : Engine) : Engine :=
  if isF .FAB_RXSTAT_PROT r e && !isF .FAB_RXSTAT_ONALT r e then setF .FAB_RXSTAT_ONALT r 1 e else loseRx r e

/-- The paths of this node that use a link. -/
def failPaths (l : Nat) (e : Engine) : Engine :=
  let e := (txPaths e).foldl (fun e p =>
    let e := if p.2.pri = l then failRoute p.1 false e else e
    match p.2.alt with | some a => if a.1 = l then failRoute p.1 true e else e | none => e) e
  (rxMapped e).foldl (fun e r =>
    let ls := rxLinks e r
    if !ls.contains l then e
    else if ls.all fun k => k == l || !linkUp e k then loseRx r e else setF .FAB_RXSTAT_ONALT r 1 e) e

/-- A link is declared failed (Table 12.3) and goes to `st`: held messages move to their alternate link, and notices are flooded. A link that was UP
is bypassed, which is contained at the fabric level (R20, R24, Table 1.3). -/
def failLink (l cause st : Nat) (e : Engine) : Engine :=
  let wasUp := linkUp e l
  let e := setLink l st cause (setF .FAB_LINK_STAT_FAILS l 1 (setF .FAB_LINK_STAT_SUSPECT l 0 e))
  let e := { e with fab := { e.fab with miss := tput 0 e.fab.miss l 0, out := e.fab.out.map fun m =>
      if m.link = l then { m with link := if isF .FAB_ROUTE_AVALID m.dest e then getF .FAB_ROUTE_ALINK m.dest e else l } else m } }
  if wasUp then containNow 5 0xB (4 * ownAddr e + l) (failPaths l (flood e)) else e

def effLinkFailure (l cause : Nat) (e : Engine) : Engine :=
  if linkState e l = 0 ∨ linkState e l = 4 then e else failLink l cause 4 e

def execLinkFailure (link cause : Nat) (s : State) : Host.Outcome State Fault Refusal :=
  runLive "LINK_FAILURE" (Instr.linkFailure link cause).wf (effLinkFailure link cause) s

def effBlockLock (l : Nat) (e : Engine) : Engine := if linkState e l = 1 then setLink l 2 0 e else e

def execBlockLock (link : Nat) (s : State) : Host.Outcome State Fault Refusal :=
  runLive "BLOCK_LOCK" (Instr.blockLock link).wf (effBlockLock link) s

def effLinkRetrain (l : Nat) (e : Engine) : Engine := if linkState e l = 4 then setLink l 1 (getF .FAB_LINK_STAT_CAUSE l e) e else e

def execLinkRetrain (link : Nat) (s : State) : Host.Outcome State Fault Refusal :=
  runLive "LINK_RETRAIN" (Instr.linkRetrain link).wf (effLinkRetrain link) s

/-- The hello's configuration is this node's (R376). -/
def helloOk (e : Engine) (h : Hello) : Bool :=
  h.fid == getF .FAB_NODECFG_FID 0 e && h.rate == getF .SYS_FRAME_CFG_RATE 0 e && h.pull == getF .SYS_FRAME_CFG_PULL 0 e
    && h.flog == getF .SYS_FRAME_CFG_FLOG 0 e

/-- A hello (R376, R388, R391). -/
def effHelloReceived (l : Nat) (h : Hello) (e : Engine) : Engine :=
  if linkUp e l then (if tget 0 e.fab.peer l = h.serial then e else failLink l 6 4 e)
  else if linkState e l ≠ 2 then e
  else if e.fab.nodes.any fun n => n.serial == h.serial && n.excluded then setLink l 2 8 e
  else if !helloOk e h then setLink l 2 4 e
  else if 50000 < getF .FAB_LINK_DLY_DLY l e then setLink l 2 3 e
  else
    let e := { e with fab := { e.fab with peer := tput 0 e.fab.peer l h.serial, miss := tput 0 e.fab.miss l 0 } }
    setLink l 3 0 (setF .FAB_LINK_STAT_PEERLINK l h.link e)

def execHelloReceived (link : Nat) (h : Hello) (s : State) : Host.Outcome State Fault Refusal :=
  runLive "HELLO_RECEIVED" (Instr.helloReceived link h).wf (effHelloReceived link h) s

/-- The link from which the fabric reference slot takes its sync (R386). -/
def syncLink (e : Engine) : Nat := linkTo e (getF .FAB_NODE_TMADDR 0 e)

/-- A sync block set (R372, R375, R386). -/
def effSyncBlockSet (l : Nat) (y : SyncSet) (e : Engine) : Engine :=
  if !linkUp e l && linkState e l != 2 then e
  else
    let d := ((y.dly : Int) - signed 16 (getF .FAB_LINK_CFG_ASYM l e)).toNat
    let e := setF .FAB_LINK_DLY_DLY l (min d (2 ^ 24 - 1)) e
    if !linkUp e l then e
    else if tget 0 e.fab.peer l ≠ y.serial then failLink l 6 4 e
    else if 50000 < d then setLink l 2 3 (failPaths l e)
    else
      let e := setF .FAB_LINK_STAT_PEER l y.addr { e with fab := { e.fab with miss := tput 0 e.fab.miss l 0 } }
      let e := if y.gen = getF .FAB_GEN_GEN 0 e ∧ y.rootSerial = e.fab.rootSerial then { e with fab := { e.fab with noRoot := 0 } } else e
      if inFab e && syncLink e == l && !isF .FAB_NODE_TM 0 e then
        allSlots.foldl evalSlot { e with clk := { e.clk with fabQl := y.outql } }
      else e

def execSyncBlockSet (link : Nat) (y : SyncSet) (s : State) : Host.Outcome State Fault Refusal :=
  runLive "SYNC_BLOCK_SET" (Instr.syncBlockSet link y).wf (effSyncBlockSet link y) s

/-- A set has not arrived F/2 samples after its tick; the second in a row fails the link. -/
def effSyncMissing (l : Nat) (e : Engine) : Engine :=
  if linkUp e l then
    let n := tget 0 e.fab.miss l + 1
    if 2 ≤ n then failLink l 5 4 e else { e with fab := { e.fab with miss := tput 0 e.fab.miss l n } }
  else e

def execSyncMissing (link : Nat) (s : State) : Host.Outcome State Fault Refusal :=
  runLive "SYNC_MISSING" (Instr.syncMissing link).wf (effSyncMissing link) s

/-! ### Isochronous blocks (R374, R382, R385) -/

/-- The number congruent to `lo` modulo 2^16 nearest to `x`. -/
def near16 (x : Int) (lo : Nat) : Int :=
  let d := ((lo : Int) - x) % 65536
  x + (if d < 32768 then d else d - 65536)

/-- A receive channel plays its block of the frame in progress: fade-in after a missing one (R77). -/
def playFab (r : Nat) (e : Engine) : Engine :=
  let s := 0x1800 + r
  let a := fabRing e r (frameNo e)
  let c := getConc e s
  let ys := wordsAt e a (frameLen e)
  let ys' := if c.run = 0 then ys else fadedIn ys
  let e := if c.run = 0 then e else store a (sampleBytes ys') e
  setConc s { h := ys'.getLastD 0, run := 0, now := false, mute := false } e

/-- A block that has come in the frame that plays it, after the channel had been taken for missing. -/
def playLate (r : Nat) (e : Engine) : Engine :=
  let s := 0x1800 + r
  let c := getConc e s
  playFab r (setConc s { c with run := c.run - 1, now := false } e)

def effIsochronousBlock (l : Nat) (b : IsoBlock) (e : Engine) : Engine :=
  if !linkUp e l then e
  else if !b.crcOk then bumpF .FAB_LINK_CNT_CRCERR l 1 e
  else if !fabLocked e then e
  else match tget none e.fab.slots (4096 * l + b.ch) with
    | none => e
    | some (.fwd k c) => { e with fab := { e.fab with fwd := e.fab.fwd ++ [(k, { b with ch := c })] } }
    | some (.rx r) =>
      let play := near16 (fabFrame e) b.origin + (getF .FAB_RXSTAT_LP r e : Int) - frameOfs e
      let now : Int := frameNo e
      if getF .FAB_RXSTAT_STATE r e ≠ 1 ∨ play < now ∨ now + ((128 / frameLen e : Nat) : Int) ≤ play then e
      else
        let n := play.toNat
        let e := store (fabRing e r n) (sampleBytes (b.samples.take (frameLen e))) e
        if play = now then (if (getConc e (0x1800 + r)).now then playLate r e else e)
        else { e with fab := { e.fab with arrived := e.fab.arrived ++ [(r, n)] } }

def execIsochronousBlock (link : Nat) (b : IsoBlock) (s : State) : Host.Outcome State Fault Refusal :=
  runLive "ISOCHRONOUS_BLOCK" (Instr.isochronousBlock link b).wf (effIsochronousBlock link b) s

/-- Inserts a block by ascending slot. -/
def insertBlock (b : Nat × IsoBlock) : List (Nat × IsoBlock) → List (Nat × IsoBlock)
  | [] => [b]
  | c :: t => if b.2.ch ≤ c.2.ch then b :: c :: t else c :: insertBlock b t

/-- The blocks of this node's transmit paths: origin is the frame that ended. -/
def ownBlocks (e : Engine) : List (Nat × IsoBlock) :=
  (txPaths e).filterMap fun p =>
    let alt := onAlt e p.1
    let route := if alt then (match p.2.alt with | some a => if p.2.altDown then none else some a.1 | none => none)
      else if p.2.priDown then none else some p.2.pri
    route.map fun l =>
      (l, IsoBlock.mk p.1 ((fabFrame e - 1) % 65536).toNat (wordsAt e (0x20400000 + 0x100 * p.1) (frameLen e)) true)

/-- A switch to the other route takes effect at the tick (R389). -/
def switchPath (e : Engine) (t : Nat) : Engine :=
  match getPath e t with
  | some p =>
    let alt := !onAlt e t
    if (if alt then p.alt.isSome && !p.altDown else !p.priDown) then pathEvent t false 0 (setF .FAB_TXSTAT_ONALT t alt.toNat e) else e
  | none => e

/-- One receive channel at a tick: the count of the frame that ended, then the block of the frame that starts. -/
def rxPlay (e : Engine) (r : Nat) : Engine :=
  if getF .FAB_RXSTAT_STATE r e ≠ 1 then e
  else if e.fab.arrived.contains (r, frameNo e) then playFab r e
  else concealSig false (markFault e) (0x1800 + r)

/-- The frames that receive channels missed, counted when their frame ends (R385). -/
def fabMissed (e : Engine) : Engine :=
  (rxMapped e).foldl (fun e r => if (getConc e (0x1800 + r)).now then bumpF .FAB_RXSTAT_CONCEAL r 1 e else e) e

/-- The sync block set of this tick (R375); the form of its transmit timestamp is not given, and it goes out at the tick. The hellos of the
links in HELLO go out with the tick at which a millisecond ends. -/
def formSync (e : Engine) : Engine :=
  let y : SyncSet :=
    { frame := (fabFrame e).toNat, time := e.ptp.time, outql := getF .CLK_STAT_OUTQL 0 e, addr := ownAddr e, serial := ownSerial e,
      rootSerial := e.fab.rootSerial, rootPrio := e.fab.rootPrio, gen := getF .FAB_GEN_GEN 0 e, tm := getF .FAB_NODE_TMADDR 0 e, dly := 0 }
  let ms := fun n : Nat => n * 1000 / houseHz e
  let hello := fun l : Nat =>
    ({ serial := ownSerial e, rprio := getF .FAB_NODECFG_RPRIO 0 e, fid := getF .FAB_NODECFG_FID 0 e, rate := getF .SYS_FRAME_CFG_RATE 0 e,
       pull := getF .SYS_FRAME_CFG_PULL 0 e, flog := getF .SYS_FRAME_CFG_FLOG 0 e, link := l } : Hello)
  { e with fab := { e.fab with
      syncOut := if allLinks.any (linkUp e) then some y else none
      helloOut := if ms e.sample = ms (e.sample - frameLen e) then [] else (allLinks.filter fun l => linkState e l == 2).map hello } }

/-- Fabric lock is lost (R387): every link counts as failed for its paths. -/
def loseLock (e : Engine) : Engine :=
  let e := setF .FAB_NODE_FLOCK 0 0 e
  let e := (txPaths e).foldl (fun e p => loseTx p.1 e) e
  postLock ((rxMapped e).foldl (fun e r => loseRx r e) e)

/-- The DPLL is LOCKED to the fabric slot. -/
def onFabricSlot (e : Engine) : Bool := dpllIn e 1 && refType e (selSlot e) == 5

/-- A node that is not the time master and whose DPLL has left its fabric slot is no longer fabric-locked (R387). -/
def keepLock (e : Engine) : Engine :=
  if fabLocked e && !isF .FAB_NODE_TM 0 e && !onFabricSlot e then loseLock e else e

/-- The fabric at a frame tick: switches, the burst, and what receive channels play. A muted pair member sends no path of its own. -/
def fabTick (e : Engine) : Engine :=
  let e := e.fab.switchNow.foldl switchPath e
  let e := keepLock (formSync { e with fab := { e.fab with switchNow := [] } })
  let own := if e.pair.muted then [] else ownBlocks e
  let burst := if fabLocked e then (e.fab.fwd ++ own).foldr insertBlock [] else []
  let e := { e with fab := { e.fab with burst := burst.filter (fun b => linkUp e b.1), fwd := [],
                                        noRoot := if inFab e && !isRoot e then e.fab.noRoot + 1 else 0 } }
  let e := (rxMapped e).foldl rxPlay e
  { e with fab := { e.fab with arrived := e.fab.arrived.filter fun p => decide (frameNo e < p.2) } }

/-! ### Reliable messages -/

/-- A slot's receive channel or forwarding entry is installed or released (R381). -/
def setSlotTo (l ch : Nat) (v : Option SlotTo) (e : Engine) : Engine :=
  refreshLoad { e with fab := { e.fab with slots := tput none e.fab.slots (4096 * l + ch) v } }

/-- A delivered message. A directive that the pair's active forwards waits for its apply frame; one that has missed it, and the messages of
fabric-wide changes, act by commands of their own; a node in doubt is told whether this one applies the change (R281). -/
def deliverMsg (from_ : Nat) (b : MsgBody) (e : Engine) : Engine :=
  match b with
  | .ask id => sendMsg from_ (.outcome id (e.ctl.outcomes.contains id)) e
  | .mapRx l ch r src lp prot =>
    let e := setSlotTo l ch (some (.rx r)) e
    let e := setF .FAB_RXSTAT_PROT r prot.toNat (setF .FAB_RXSTAT_SRC r src (setF .FAB_RXSTAT_LP r lp e))
    if getF .FAB_RXSTAT_STATE r e = 1 then e
    else declareFound (0x1800 + r) (setF .FAB_RXSTAT_STATE r 1 (setConc (0x1800 + r) Conceal.clear e))
  | .resync => { e with pair := { e.pair with resync := true } }
  | .mapFwd l ch k c => setSlotTo l ch (some (.fwd k c)) e
  | .replicate op d a =>
    let n : Int := (a : Int) - frameOfs e
    if (frameNo e : Int) < n then
      { e with ctl := { e.ctl with count := e.ctl.count + 1
                                   later := e.ctl.later ++ [(n.toNat, ⟨op, d.ring, d.tag, d.flags, d.words, e.ctl.count + 1⟩)] } }
    else e
  | .scene n parts w b f =>
    let st := parts.map fun p => (⟨p.1, p.2.ring, p.2.tag, p.2.flags, p.2.words, 0⟩ : Staged)
    { e with ctl := { e.ctl with scenes := tput none e.ctl.scenes n (some { staged := st, writes := w, bytes := b, frame := f, n := e.ctl.count }) } }
  | .unmap l ch =>
    match tget none e.fab.slots (4096 * l + ch) with
    | some (.rx r) =>
      let e := setSlotTo l ch none e
      if (rxLinks e r).isEmpty then
        let e := clearRing r (setConc (0x1800 + r) Conceal.clear e)
        setF .FAB_RXSTAT_STATE r 0 (setF .FAB_RXSTAT_PROT r 0 (setF .FAB_RXSTAT_ONALT r 0 (setF .FAB_RXSTAT_SRC r 0 (setF .FAB_RXSTAT_LP r 0 e))))
      else e
    | _ => setSlotTo l ch none e
  | _ => e

/-- Delivers held messages of an origin while the next in sequence is there. -/
def drainGap (o : Nat) : Nat → Engine → Engine
  | 0, e => e
  | n + 1, e =>
    let q := tget 0 e.fab.seqRx o
    match e.fab.gap.find? fun m => m.origin == o && m.seq == q with
    | some m =>
      drainGap o n (deliverMsg m.origin m.body { e with fab := { e.fab with gap := e.fab.gap.filter (· != m), seqRx := tput 0 e.fab.seqRx o (q + 1) } })
    | none => e

/-- A message arrives on a link: acknowledged, passed on toward its destination, or delivered in sequence order. -/
def effReliableMessage (l : Nat) (m : RelMsg) (e : Engine) : Engine :=
  if !linkUp e l || !supUp e then e
  else
    let e := { e with fab := { e.fab with acked := tput 0 e.fab.acked l (m.seq + 1) } }
    if m.dest ≠ ownAddr e then relayMsg m e
    else
      let q := tget 0 e.fab.seqRx m.origin
      if m.seq < q then e
      else if q < m.seq then
        if e.fab.gap.contains m then e else sendMsg m.origin .other { e with fab := { e.fab with gap := e.fab.gap ++ [m] } }
      else drainGap m.origin e.fab.gap.length
        (deliverMsg m.origin m.body { e with fab := { e.fab with seqRx := tput 0 e.fab.seqRx m.origin (q + 1) } })

def execReliableMessage (link : Nat) (m : RelMsg) (s : State) : Host.Outcome State Fault Refusal :=
  runLive "RELIABLE_MESSAGE" (Instr.reliableMessage link m).wf (effReliableMessage link m) s

/-- A held message, by its link, origin, destination and number. -/
def OutMsg.isMsg (m : OutMsg) (l o d seq : Nat) : Bool := m.link == l && m.origin == o && m.dest == d && m.seq == seq

/-- SUSPECT while some message of the link has had two attempts without an acknowledgement. -/
def effReliableAck (l o d seq : Nat) (e : Engine) : Engine :=
  let e := { e with fab := { e.fab with out := e.fab.out.filter fun m => !m.isMsg l o d seq } }
  if e.fab.out.any fun m => m.link == l && decide (3 ≤ m.tries) then e else setF .FAB_LINK_STAT_SUSPECT l 0 e

def execReliableAck (link origin dest seq : Nat) (s : State) : Host.Outcome State Fault Refusal :=
  runLive "RELIABLE_ACK" (Instr.reliableAck link origin dest seq).wf (effReliableAck link origin dest seq) s

/-- 12 µs without an acknowledgement: the message is repeated. -/
def effReliableRetry (l o d seq : Nat) (e : Engine) : Engine :=
  match e.fab.out.find? fun m => m.isMsg l o d seq with
  | none => e
  | some m =>
    let e := { e with fab := { e.fab with out := e.fab.out.map fun x => if x = m then { x with tries := x.tries + 1 } else x } }
    let e := bumpF .FAB_LINK_CNT_RETRY l 1 e
    if 2 ≤ m.tries ∧ !isF .FAB_LINK_STAT_SUSPECT l e then postEvent 0x0807 [2 ^ 62 * l] (setF .FAB_LINK_STAT_SUSPECT l 1 e) else e

def execReliableRetry (link origin dest seq : Nat) (s : State) : Host.Outcome State Fault Refusal :=
  runLive "RELIABLE_RETRY" (Instr.reliableRetry link origin dest seq).wf (effReliableRetry link origin dest seq) s

/-! ### Root, addresses and routes (R377–R380, R392) -/

def pairLt (a b : Nat × Nat) : Bool := decide (a.1 < b.1) || (a.1 == b.1 && decide (a.2 < b.2))

/-- The node of least key. -/
def leastNode (key : NodeInfo → Nat × Nat) : List NodeInfo → Option NodeInfo
  | [] => none
  | n :: t => match leastNode key t with
    | none => some n
    | some m => if pairLt (key m) (key n) then some m else some n

/-- The lowest free address. -/
def lowestFree (taken : List Nat) : Nat := ((List.range 64).find? fun a => !taken.contains a).getD 63

/-- Addresses: those held stay, the root's first; then each joining node in order takes its preferred address or the lowest free. -/
def assignAddrs (root : Nat) (ns : List NodeInfo) : List (NodeInfo × Nat) :=
  let rootFirst := ns.filter (fun n => n.serial == root) ++ ns.filter (fun n => n.serial != root)
  let held : List (NodeInfo × Nat) := rootFirst.foldl (fun acc n => match n.addr with
    | some a => if acc.any fun p => p.2 == a then acc else acc ++ [(n, a)]
    | none => acc) []
  rootFirst.foldl (fun acc n =>
    if acc.any fun p => p.1.serial == n.serial then acc
    else
      let taken := acc.map (·.2)
      let a := match n.pref with | some a => if taken.contains a then lowestFree taken else a | none => lowestFree taken
      acc ++ [(n, a)]) held

/-- The time master (R379): the present one while it stays and no node's candidacy changed, else the least (TMPRIO, serial), else the root. -/
def chooseTm (e : Engine) (root : Nat) (ns : List (NodeInfo × Nat)) : Nat :=
  let old := e.fab.nodes.find? fun n => n.addr == getF .FAB_NODE_TMADDR 0 e
  let changed := ns.any fun p => e.fab.nodes.any fun n => n.serial == p.1.serial && (n.tmprio != p.1.tmprio || n.tmcand != p.1.tmcand)
  let stays := match old with | some n => inFab e && ns.any fun p => p.1.serial == n.serial | none => false
  if stays && !changed then (old.map (·.serial)).getD root
  else match leastNode (fun n => (n.tmprio, n.serial)) ((ns.map (·.1)).filter (·.tmcand)) with
    | some n => n.serial
    | none => root

/-- Paths to or from a node whose address changed, or that left, are lost. -/
def losePeers (gone : List Nat) (e : Engine) : Engine :=
  let e := (txPaths e).foldl (fun e p => if gone.contains p.2.dst then loseTx p.1 e else e) e
  (rxMapped e).foldl (fun e r => if gone.contains (getF .FAB_RXSTAT_SRC r e) then loseRx r e else e) e

/-- The election's outcome among the nodes that this one reaches, itself among them. -/
def effRootElection (ns : List NodeInfo) (e : Engine) : Engine :=
  match leastNode (fun n => (n.rprio, n.serial)) ns with
  | none => e
  | some rt =>
    if !supUp e || !ns.any (fun n => n.serial == ownSerial e) then e
    else
      let as := assignAddrs rt.serial ns
      let addrOf := fun s : Nat => ((as.find? fun p => p.1.serial == s).map (·.2)).getD 0
      let tm := chooseTm e rt.serial as
      let was := e.fab.nodes
      let wasIn := inFab e
      let own := addrOf (ownSerial e)
      let moved := wasIn && own != ownAddr e
      let gone := (was.filter fun n => !as.any fun p => p.1.serial == n.serial && p.2 == n.addr).map (·.addr)
      let e := if moved then (rxMapped e).foldl (fun e r => loseRx r e) ((txPaths e).foldl (fun e p => loseTx p.1 e) e) else losePeers gone e
      let newRoot := e.fab.rootSerial != rt.serial || !wasIn
      let newTm := addrOf tm != getF .FAB_NODE_TMADDR 0 e || !wasIn
      let e := setF .FAB_NODE_INFAB 0 1 (setF .FAB_NODE_ROOT 0 (rt.serial == ownSerial e).toNat (setF .FAB_NODE_ROOTADDR 0 (addrOf rt.serial) e))
      let e := setF .FAB_NODE_TM 0 (tm == ownSerial e).toNat (setF .FAB_NODE_TMADDR 0 (addrOf tm) (setF .FAB_NODE_NODES 0 as.length e))
      let e := setF .FAB_NODE_ADDR 0 own e
      let e := if tm = ownSerial e then setF .FAB_NODE_FLOCK 0 1 e else e
      let e := { e with fab := { e.fab with
        nodes := as.map fun p => { addr := p.2, serial := p.1.serial, tmprio := p.1.tmprio, tmcand := p.1.tmcand,
                                   excluded := was.any fun n => n.serial == p.1.serial && n.excluded }
        rootSerial := rt.serial, rootPrio := rt.rprio, electing := false, noRoot := 0 } }
      let e := if newRoot then postEvent 0x0802 [addrOf rt.serial, rt.serial] e else e
      let e := (as.filter fun p => !was.any fun n => n.serial == p.1.serial).foldl (fun e p => postEvent 0x0803 [p.2] e) e
      let e := (was.filter fun n => !as.any fun p => p.1.serial == n.serial).foldl (fun e n => postEvent 0x0803 [2 ^ 62 + n.addr] e) e
      allSlots.foldl evalSlot (if newTm then postLock e else e)

def execRootElection (nodes : List NodeInfo) (s : State) : Host.Outcome State Fault Refusal :=
  runLive "ROOT_ELECTION" (Instr.rootElection nodes).wf (effRootElection nodes) s

/-- Ten frames without sync that names the root's generation. -/
def effRootLossElection (e : Engine) : Engine :=
  if inFab e && decide (10 ≤ e.fab.noRoot) then { e with fab := { e.fab with electing := true } } else e

def execRootLossElection (s : State) : Host.Outcome State Fault Refusal :=
  runLive "ROOT_LOSS_ELECTION" Instr.rootLossElection.wf effRootLossElection s

/-- The route table of one destination (Table 12.8). -/
def setRoute (rows : List RouteRow) (e : Engine) (d : Nat) : Engine :=
  match rows.find? fun r => r.dest == d with
  | none => [Fld.FAB_ROUTE_VALID, .FAB_ROUTE_PLINK, .FAB_ROUTE_AVALID, .FAB_ROUTE_ALINK, .FAB_ROUTE_PHOPS, .FAB_ROUTE_AHOPS].foldl
      (fun e f => setF f d 0 e) e
  | some r =>
    let e := setF .FAB_ROUTE_VALID d 1 (setF .FAB_ROUTE_PLINK d r.plink (setF .FAB_ROUTE_PHOPS d r.phops e))
    let e := setF .FAB_ROUTE_AVALID d r.alt.isSome.toNat e
    setF .FAB_ROUTE_ALINK d ((r.alt.map (·.1)).getD 0) (setF .FAB_ROUTE_AHOPS d ((r.alt.map (·.2)).getD 0) e)

/-- The active of a hot pair: MODE hot, role ACTIVE. -/
def hotActive (e : Engine) : Bool := getF .PAIR_CFG_MODE 0 e == 2 && getF .PAIR_STAT_ROLE 0 e == 1

/-- The root tries to reserve the twins that paths of a hot pair's active lack (R416): event 0x0805 with value 5 on failure, 6 on success. Which
links the peer's routes have free is not in this node's state: the answer is free. -/
def reserveTwins (first : Bool) (e : Engine) : Engine :=
  (txPaths e).foldl (fun e p =>
    if p.2.twin then e
    else
      let f := takeFree e
      let e := f.2
      if f.1.getLsbD 0 then
        let e := setPath p.1 (some { p.2 with twin := true }) e
        if first then e else pathEvent p.1 false 6 e
      else if first then pathEvent p.1 false 5 e else e) e

/-- The root's new tables (R380), and the twins that it tries again (R416). -/
def effRouteTableInstall (gen : Nat) (rows : List RouteRow) (e : Engine) : Engine :=
  if inFab e then
    let e := postEvent 0x0804 [gen % 2 ^ 16] (setF .FAB_GEN_GEN 0 gen ((List.range 64).foldl (setRoute rows) e))
    if hotActive e then reserveTwins false e else e
  else e

def execRouteTableInstall (gen : Nat) (routes : List RouteRow) (s : State) : Host.Outcome State Fault Refusal :=
  runLive "ROUTE_TABLE_INSTALL" (Instr.routeTableInstall gen routes).wf (effRouteTableInstall gen routes) s

/-! ### Failover (R387–R391) -/

/-- A flooded notice: the transmit and receive channels of this node whose route in use crosses the failed link. -/
def effFailureNotice (_node _link : Nat) (txs rxs : List Nat) (e : Engine) : Engine :=
  if !supUp e then e
  else
    let e := txs.foldl (fun e t => failRoute t (onAlt e t) e) e
    rxs.foldl (fun e r => failRx r e) e

def execFailureNotice (node link : Nat) (txs rxs : List Nat) (s : State) : Host.Outcome State Fault Refusal :=
  runLive "FAILURE_NOTICE" (Instr.failureNotice node link txs rxs).wf (effFailureNotice node link txs rxs) s

/-- The link by which a new second route leaves: an UP link other than the one in use, which of them is the root's choice and free. -/
def secondLink (used old : Nat) (e : Engine) : Nat × Engine :=
  match allLinks.filter fun l => linkUp e l && l != used with
  | [] => (old, e)
  | ls => let f := takeFree e; (ls.getD (f.1.toNat % ls.length) old, f.2)

/-- A path's routes once the root has re-protected it: the failed one is replaced (R390). -/
def reprotected (p : TxPath) (e : Engine) : TxPath × Engine :=
  if p.priDown then
    let s := secondLink ((p.alt.map (·.1)).getD p.pri) p.pri e
    ({ p with priDown := false, altDown := false, pri := s.1 }, s.2)
  else
    let s := secondLink p.pri ((p.alt.map (·.1)).getD p.pri) e
    ({ p with priDown := false, altDown := false, alt := p.alt.map fun a => (s.1, a.2) }, s.2)

/-- The root's attempt at a new route for a lost path, at a second one for a protected path, or at the better route that has returned (R390).
The new primary route follows the primary link of the table in use (R381). -/
def effRerouteAttempt (ch : Nat) (rx ok : Bool) (e : Engine) : Engine :=
  if rx then
    if getF .FAB_RXSTAT_STATE ch e = 2 then
      (if ok && fabLocked e then pathEvent ch true 2 (declareFound (0x1800 + ch) (setF .FAB_RXSTAT_STATE ch 1 (setF .FAB_RXSTAT_ONALT ch 0 e)))
       else pathEvent ch true 1 e)
    else if getF .FAB_RXSTAT_STATE ch e = 1 ∧ isF .FAB_RXSTAT_PROT ch e ∧ isF .FAB_RXSTAT_ONALT ch e then
      (if ok then pathEvent ch true 4 (setF .FAB_RXSTAT_ONALT ch 0 e) else pathEvent ch true 3 e)
    else e
  else match getPath e ch with
    | none => e
    | some p =>
      if p.priDown && (p.altDown || p.alt.isNone) then
        (if ok then
          let l := if isF .FAB_ROUTE_VALID p.dst e then getF .FAB_ROUTE_PLINK p.dst e else p.pri
          refreshLoad (pathEvent ch false 2 (setF .FAB_TXSTAT_ONALT ch 0 (setPath ch (some { p with priDown := false, pri := l }) e)))
         else pathEvent ch false 1 e)
      else if p.prot && (p.priDown || p.altDown) then
        (if ok then let q := reprotected p e; refreshLoad (pathEvent ch false 4 (setPath ch (some q.1) q.2)) else pathEvent ch false 3 e)
      else if ok && onAlt e ch && !e.fab.switchNow.contains ch then { e with fab := { e.fab with switchNow := e.fab.switchNow ++ [ch] } }
      else e

def execRerouteAttempt (ch : Nat) (rx ok : Bool) (s : State) : Host.Outcome State Fault Refusal :=
  runLive "REROUTE_ATTEMPT" (Instr.rerouteAttempt ch rx ok).wf (effRerouteAttempt ch rx ok) s

/-- A node is excluded (R391): its links stay in HELLO, and its paths are lost. The containment record names the node; which of its links Table 1.3
means is not given: a free value. -/
def excludeNode (a : Nat) (e : Engine) : Engine :=
  let e := { e with fab := { e.fab with nodes := e.fab.nodes.map fun n => if n.addr = a then { n with excluded := true } else n } }
  let e := (allLinks.filter fun l => linkUp e l && getF .FAB_LINK_STAT_PEER l e == a).foldl (fun e l => failPaths l (setLink l 2 8 e)) e
  let p := takeFree e
  postEvent 0x0803 [2 * 2 ^ 62 + a] (containNow 5 0xC (4 * a + p.1.toNat % 4) (losePeers [a] p.2))

def knownNode (e : Engine) (a : Nat) : Bool := e.fab.nodes.any fun n => n.addr == a

def effNodeExclusion (a : Nat) (e : Engine) : Engine :=
  if isRoot e && knownNode e a && !(e.fab.nodes.any fun n => n.addr == a && n.excluded) then excludeNode a e else e

def execNodeExclusion (node : Nat) (s : State) : Host.Outcome State Fault Refusal :=
  runLive "NODE_EXCLUSION" (Instr.nodeExclusion node).wf (effNodeExclusion node) s

/-- The node gains or loses fabric lock (R379, R387): losing it, every link counts as failed for its paths. -/
def effFabricLockChange (lock : Bool) (ofs : Int) (e : Engine) : Engine :=
  if fabLocked e == lock then e
  else if lock then
    if isF .FAB_NODE_TM 0 e || onFabricSlot e then
      postLock (setF .FAB_NODE_FLOCK 0 1 (if isF .FAB_NODE_TM 0 e then e else setFrameOfs ofs e))
    else e
  else if isF .FAB_NODE_TM 0 e then e
  else loseLock e

def execFabricLockChange (lock : Bool) (ofs : Int) (s : State) : Host.Outcome State Fault Refusal :=
  runLive "FABRIC_LOCK_CHANGE" (Instr.fabricLockChange lock ofs).wf (effFabricLockChange lock ofs) s

/-! ### `FAB_CFG` and `FAB_SLOT` (R393, R394) -/

/-- The status of a `FAB_CFG` record. -/
def fabCfgCheck (ws : List Word64) (e : Engine) : Nat :=
  let w0 := ws.getD 0 0
  let w1 := ws.getD 1 0
  match bits w0 63 60 with
  | 0 => if bits w0 23 0 = 0 ∧ w1 = 0 then 0 else 0x0103
  | 1 => if bits w0 56 0 = 0 ∧ bits w1 63 16 = 0 then 0 else 0x0103
  | 2 | 3 =>
    if bits w0 53 0 ≠ 0 ∨ w1 ≠ 0 then 0x0103
    else if isRoot e && knownNode e (bits w0 59 54) then 0 else 0x0708
  | _ => 0x0103

/-- A `FAB_CFG` record applies. -/
def applyFabCfg (ws : List Word64) (e : Engine) : Engine :=
  let w0 := ws.getD 0 0
  let w1 := ws.getD 1 0
  match bits w0 63 60 with
  | 0 =>
    let back := bits w0 59 44 != getF .FAB_NODECFG_FID 0 e || bits w0 43 36 != getF .FAB_NODECFG_RPRIO 0 e
    let e := setF .FAB_NODECFG_FID 0 (bits w0 59 44) (setF .FAB_NODECFG_RPRIO 0 (bits w0 43 36) (setF .FAB_NODECFG_TMPRIO 0 (bits w0 35 32) e))
    let e := setF .FAB_NODECFG_TMCAND 0 (bits w0 31 31) (setF .FAB_PREF_PREFV 0 (bits w0 30 30) (setF .FAB_PREF_PREF 0 (bits w0 29 24) e))
    let e := if inFab e then e else setF .FAB_NODE_ADDR 0 (if bits w0 30 30 = 1 then bits w0 29 24 else 0) e
    if back then (allLinks.filter (linkUp e)).foldl (fun e l => failPaths l (setLink l 2 0 e)) e else e
  | 1 =>
    let l := bits w0 59 58
    let e := setF .FAB_LINK_CFG_EN l (bits w0 57 57) (setF .FAB_LINK_CFG_ASYM l (bits w1 15 0) e)
    if bits w0 57 57 = 1 then (if linkState e l = 0 then setLink l 1 0 e else e)
    else if linkState e l = 0 then e else failLink l 7 0 e
  | 2 => excludeNode (bits w0 59 54) e
  | 3 =>
    let a := bits w0 59 54
    postEvent 0x0803 [3 * 2 ^ 62 + a]
      { e with fab := { e.fab with nodes := e.fab.nodes.map fun n => if n.addr = a then { n with excluded := false } else n } }
  | _ => e

/-- The path that a `FAB_SLOT` record asks for, by this node's route table. -/
def slotPath (w : Word64) (e : Engine) : TxPath :=
  let d := bits w 51 46
  let prot := bit w 34
  let ph := getF .FAB_ROUTE_PHOPS d e
  let alt := if prot then some (getF .FAB_ROUTE_ALINK d e, getF .FAB_ROUTE_AHOPS d e) else none
  { dst := d, r := bits w 45 35, prot := prot, lp := match alt with | some a => max ph a.2 | none => ph, pri := getF .FAB_ROUTE_PLINK d e,
    priHops := ph, alt := alt, priDown := false, altDown := false, twin := false }

/-- The status of a `FAB_SLOT` record by what this node knows (R381, R382, R394). -/
def fabSlotLocal (ws : List Word64) (e : Engine) : Nat :=
  let w := ws.getD 0 0
  let p := slotPath w e
  let t := bits w 63 53
  if bits w 33 0 ≠ 0 ∨ (ws.getD 1 0) ≠ 0 then 0x0103
  else if !inFab e then 0x0708
  else if !bit w 52 then 0
  else if !isF .FAB_ROUTE_VALID p.dst e then 0x0708
  else if p.prot ∧ !isF .FAB_ROUTE_AVALID p.dst e then 0x0707
  else if ((txPaths e).any fun q => q.1 != t && q.2.dst == p.dst && q.2.r == p.r) then 0x0706
  else if decide (2048 ≤ getF .FAB_LINK_LOAD_TXCH p.pri e)
      || (match p.alt with | some a => decide (2048 ≤ getF .FAB_LINK_LOAD_TXCH a.1 e) | none => false) then 0x0705
  else if 128 / frameLen e - 1 < p.lp - min p.priHops (match p.alt with | some a => a.2 | none => p.priHops) then 0x0709
  else 0

/-- The status with the root's reservation, which takes place during validation. What the links and the destination beyond this node hold is
not in its state: the root's answer on them is free. -/
def fabSlotCheck (ws : List Word64) (e : Engine) : Nat × Engine :=
  let s := fabSlotLocal ws e
  if s ≠ 0 ∨ !bit (ws.getD 0 0) 52 then (s, e)
  else
    let f := takeFree (if isRoot e then e else sendMsg (getF .FAB_NODE_ROOTADDR 0 e) .other e)
    ([0, 0x0705, 0x0706, if bit (ws.getD 0 0) 34 then 0x0707 else 0].getD (f.1.toNat % 4) 0, f.2)

/-- A `FAB_SLOT` record applies. -/
def applyFabSlot (ws : List Word64) (e : Engine) : Engine :=
  let w := ws.getD 0 0
  let t := bits w 63 53
  let p := slotPath w e
  if bit w 52 then
    let twin := getF .PAIR_CFG_MODE 0 e == 2 && (getF .PAIR_STAT_ROLE 0 e == 1 || getF .PAIR_STAT_ROLE 0 e == 3)
    -- the twin's hops are the root's knowledge: the larger L_p is free up to the limit of R382
    let room := 128 / frameLen e - 1 + min p.priHops (match p.alt with | some a => a.2 | none => p.priHops) - p.lp
    let f := takeFree e
    let p := if twin then { p with twin := true, lp := p.lp + f.1.toNat % (room + 1) } else p
    let e := setPath t (some p) (if twin then f.2 else e)
    let e := setF .FAB_TXSTAT_RES t 1 (setF .FAB_TXSTAT_PROT t p.prot.toNat (setF .FAB_TXSTAT_ONALT t 0 (setF .FAB_TXSTAT_DST t p.dst e)))
    refreshLoad (setF .FAB_TXSTAT_RCH t p.r (setF .FAB_TXSTAT_LP t p.lp e))
  else
    let e := setPath t none (if isRoot e then e else sendMsg (getF .FAB_NODE_ROOTADDR 0 e) .other e)
    refreshLoad ([Fld.FAB_TXSTAT_RES, .FAB_TXSTAT_PROT, .FAB_TXSTAT_ONALT, .FAB_TXSTAT_DST, .FAB_TXSTAT_RCH, .FAB_TXSTAT_LP].foldl
      (fun e f => setF f t 0 e) e)

end Sys2Proof.Machine
end

