-- ==== Sys2Proof/Machine/Rings.lean ====
section
/-! DEFINITION. Command rings, programs, completions and the life of an open transaction (R248–R256, R270, R276): what every directive
shares. -/
namespace Sys2Proof.Machine

def getRing (e : Engine) (k : Nat) : Ring := tget Ring.idle e.ctl.rings k
def setRing (k : Nat) (r : Ring) (e : Engine) : Engine := { e with ctl := { e.ctl with rings := tput Ring.idle e.ctl.rings k r } }

def crSize (e : Engine) (k : Nat) : Nat := 2 ^ getF .HOST_CR_CFG_LOG2 k e
def crEn (e : Engine) (k : Nat) : Bool := isF .HOST_CR_CFG_EN k e

/-- The opcodes of Table 8.6. -/
def opcodes : List Nat :=
  [0x00, 0x01, 0x02, 0x03, 0x10, 0x11, 0x12, 0x20, 0x21, 0x22, 0x23, 0x30, 0x31, 0x32, 0x40, 0x41, 0x42, 0x50, 0x60, 0x61, 0x62, 0x70, 0x71,
   0x80, 0x81, 0x82, 0x90, 0x91, 0xA0, 0xA1, 0xB0, 0xB1, 0xB2, 0xC0, 0xC1, 0xC2, 0xC3, 0xC4]

/-- The directives that close a transaction (R276). -/
def closes (op : Nat) : Bool := op == 0x11 || op == 0x12 || op == 0xB0

/-! ### Transactions of a ring -/

def txnOfRing (e : Engine) (k : Nat) (st : TxnSt) : Option Txn := e.ctl.txns.find? fun t => t.ring == k && decide (t.st = st)
/-- The transaction of a ring whose `TXN_COMMIT` has not been acknowledged: R276 counts it as open still. -/
def commitTxn (e : Engine) (k : Nat) : Option Txn :=
  e.ctl.txns.find? fun t => t.ring == k && decide (t.st = .validating) && (match t.commit with | some c => c.op == 0x11 | none => false)
/-- The open transaction of a ring. -/
def openTxn (e : Engine) (k : Nat) : Option Txn := txnOfRing e k .open_

/-- `HOST_TXN_STAT` and the rings' TXN and SLOT fields follow the transactions (Tables 8.9, 8.12). -/
def refreshTxn (e : Engine) : Engine :=
  let used := e.ctl.txns.foldl (fun m t => setBit m t.slot true) 0
  let acked := e.ctl.txns.foldl (fun m t => if t.st = .acked then setBit m t.slot true else m) 0
  let e := setF .HOST_TXN_STAT_ACKED 0 acked (setF .HOST_TXN_STAT_USED 0 used e)
  [0, 1, 2, 3, 4, 5, 6, 7].foldl (fun e k =>
    match (openTxn e k).or (commitTxn e k) with
    | some t => setF .HOST_CR_STAT_SLOT k t.slot (setF .HOST_CR_STAT_TXN k (if t.failed.isSome then 2 else 1) e)
    | none => setF .HOST_CR_STAT_SLOT k 0 (setF .HOST_CR_STAT_TXN k 0 e)) e

/-- Changes the transaction in a slot. -/
def setTxn (t : Txn) (e : Engine) : Engine :=
  refreshTxn { e with ctl := { e.ctl with txns := e.ctl.txns.map fun x => if x.slot = t.slot then t else x } }

/-- Frees a slot. -/
def dropTxn (slot : Nat) (e : Engine) : Engine :=
  refreshTxn { e with ctl := { e.ctl with txns := e.ctl.txns.filter fun x => x.slot != slot } }

/-- The lowest-numbered free staging slot. -/
def freeSlot (e : Engine) : Option Nat := [0, 1, 2, 3, 4, 5, 6, 7].find? fun s => !(e.ctl.txns.any fun t => t.slot == s)

/-- A refusal while staging marks the transaction failed (R270). -/
def failTxn (k tag : Nat) (e : Engine) : Engine :=
  match openTxn e k with
  | some t => if t.failed.isSome then e else setTxn { t with failed := some tag } e
  | none => e

/-- The directive that a ring waits for goes back to the front of its program, since it has not completed (R276). -/
def unhold (r : Ring) : Ring :=
  match r.hold with
  | some h => { r with hold := none
                       words := BitVec.ofNat 64 (2 ^ 56 * h.op + 2 ^ 48 * h.flags + 2 ^ 32 * h.words.length + h.tag) :: (h.words ++ r.words) }
  | none => r

/-- The open transaction of a ring is abandoned (R276): event 0x0402 with 0x0308, and the ring's directives up to the closing one do not
execute. A `TXN_COMMIT` under validation is that closing one. -/
def abandon (k : Nat) (e : Engine) : Engine :=
  match openTxn e k with
  | some t =>
    let e := setRing k { getRing e k with skip := true } (dropTxn t.slot e)
    postEvent 0x0402 [2 ^ 32 * t.tag + 0x0308 * 2 ^ 16 + k] e
  | none => match commitTxn e k with
    | some t =>
      let e := setRing k { unhold (getRing e k) with skip := true } (dropTxn t.slot e)
      postEvent 0x0402 [2 ^ 32 * t.tag + 0x0308 * 2 ^ 16 + k] e
    | none => e

/-! ### Completions and the end of a program -/

/-- A directive of ring `k` completes (R252): the completion is posted unless SILENT hides its status 0, and is kept for a replay. -/
def finishDir (k op tag flags status result : Nat) (e : Engine) : Engine :=
  let r := getRing e k
  let w0 := compWord tag status op false
  let w1 := BitVec.ofNat 64 result
  if status = 0 ∧ flags / 64 % 2 = 1 then setRing k { r with hold := none } e
  else pushComp k w0 w1 (setRing k { r with hold := none, comps := r.comps ++ [(w0, w1)] } e)

/-- A directive is refused. The spec gives a refusal no RESULT: a free value. -/
def refuseDir (k op tag flags status : Nat) (e : Engine) : Engine :=
  let f := takeFree e
  finishDir k op tag flags status f.1.toNat f.2

/-- The program in progress has ended: HEAD moves past it, and its completions are stored (R249, R250). -/
def endProgram (k : Nat) (e : Engine) : Engine :=
  let r := getRing e k
  let e := setRing k { r with active := false, words := [], comps := [], past := ((r.seq, r.comps) :: r.past).take 64 } e
  bumpF .HOST_CR_STAT_PROGS k 1 (setF .HOST_CR_HEAD_HEAD k ((getF .HOST_CR_HEAD_HEAD k e + r.len) % crSize e k) e)

/-- The directive at the front of a program: opcode, tag, flags, the payload words, and what follows. The header's length may run past the
program's end; the payload then ends there. -/
structure Front where
  op : Nat
  tag : Nat
  flags : Nat
  len : Nat
  words : List Word64
  rest : List Word64

def frontOf : List Word64 → Option Front
  | [] => none
  | h :: t =>
    let n := bits h 47 32
    some { op := bits h 63 56, tag := bits h 31 0, flags := bits h 55 48, len := n, words := t.take n, rest := t.drop n }

/-- A word of a command ring in host memory. -/
def ringEntry (e : Engine) (k i : Nat) : Option Word64 :=
  (hostAt e (2 ^ 32 * getF .HOST_CR_BASE_HI_BASE k e + getF .HOST_CR_BASE_LO_BASE k e + 8 * (i % crSize e k)) 8).map (read64 e)

/-- Published words of a ring. -/
def published (e : Engine) (k : Nat) : Nat :=
  (getF .HOST_CR_TAIL_TAIL k e + crSize e k - getF .HOST_CR_HEAD_HEAD k e % crSize e k) % crSize e k

/-- The program word at HEAD, when the whole program lies before the tail (R249). -/
def nextProgram (e : Engine) (k : Nat) : Option Word64 :=
  if published e k = 0 then none
  else match ringEntry e k (getF .HOST_CR_HEAD_HEAD k e) with
    | some w => if bits w 31 0 + 1 ≤ published e k then some w else none
    | none => none

/-- The supervisor may take something from the ring (R250, R251, R253): a directive of a program in progress, or a published program. -/
def ringReady (e : Engine) (k : Nat) : Bool :=
  let r := getRing e k
  crEn e k && !isF .HOST_CR_STAT_HALT k e && cqFree e k && !(e.ctl.owed.any fun p => p.1 == k) && r.hold.isNone
  && (if r.active then !r.words.isEmpty else (nextProgram e k).isSome)

/-- The ring whose turn it is: the highest-numbered one that is ready (R251). -/
def turnOf (e : Engine) : Option Nat := if supUp e then [7, 6, 5, 4, 3, 2, 1, 0].find? (ringReady e) else none

/-- Completes what no command stands for, while its turn lasts: a directive of unknown opcode (0x0101), and those that an abandoned
transaction leaves behind (0x0308, R276); and ends the programs that have run out. -/
def settleRingN : Nat → Engine → Engine
  | 0, e => e
  | n + 1, e =>
    match [7, 6, 5, 4, 3, 2, 1, 0].find? fun k => let r := getRing e k; r.active && r.words.isEmpty && r.hold.isNone with
    | some k => settleRingN n (endProgram k e)
    | none =>
      match turnOf e with
      | none => e
      | some k =>
        let r := getRing e k
        match if r.active then frontOf r.words else none with
        | none => e
        | some f =>
          if r.skip then
            settleRingN n (refuseDir k f.op f.tag f.flags 0x0308 (setRing k { r with words := f.rest, skip := !closes f.op } e))
          else if opcodes.contains f.op then e
          else settleRingN n (refuseDir k f.op f.tag f.flags 0x0101 (failTxn k f.tag (setRing k { r with words := f.rest } e)))

/-- Words of the programs in progress. -/
def wordsLeft (e : Engine) : Nat := e.ctl.rings.foldl (fun s p => s + p.2.words.length) 0

def settleRings (e : Engine) : Engine := settleRingN (2 * wordsLeft e + 16) e

/-- The directive `d` of opcode `op` is the one that the supervisor takes next. -/
def frontIs (op : Nat) (d : Dir) (e : Engine) : Bool :=
  turnOf e == some d.ring && (getRing e d.ring).active && match frontOf (getRing e d.ring).words with
    | some f => f.op == op && f.tag == d.tag && f.flags == d.flags && f.words == d.words
    | none => false

/-- The directive leaves its ring's program. -/
def popDir (k : Nat) (e : Engine) : Engine :=
  let r := getRing e k
  match frontOf r.words with
  | some f => setRing k { r with words := f.rest } { e with ctl := { e.ctl with count := e.ctl.count + 1 } }
  | none => e

/-! ### The ring's own commands -/

/-- Words as a ring holds them. -/
def placeWords (k : Nat) : Nat → List Word64 → Engine → Engine
  | _, [], e => e
  | i, w :: ws, e =>
    let base := 2 ^ 32 * getF .HOST_CR_BASE_HI_BASE k e + getF .HOST_CR_BASE_LO_BASE k e
    let e := match hostAt e (base + 8 * (i % crSize e k)) 8 with | some a => write64 a w e | none => e
    placeWords k (i + 1) ws e

/-- The host has placed words from the old tail on, and writes the new tail (R249). -/
def effHostCrTailWrite (k tail : Nat) (ws : List Word64) (e : Engine) : Engine :=
  setF .HOST_CR_TAIL_TAIL k tail (placeWords k (getF .HOST_CR_TAIL_TAIL k e) ws e)

def execHostCrTailWrite (ring tail : Nat) (placed : List Word64) (s : State) : Host.Outcome State Fault Refusal :=
  runLive "HOST_CR_TAIL_WRITE" (Instr.hostCrTailWrite ring tail placed).wf (effHostCrTailWrite ring tail placed) s

/-- The words of the program at HEAD. -/
def programWords (e : Engine) (k : Nat) : Nat → Nat → List Word64
  | _, 0 => []
  | i, n + 1 => (ringEntry e k i).getD 0 :: programWords e k (i + 1) n

/-- HEAD moves past a program that does not run. -/
def passProgram (k n : Nat) (e : Engine) : Engine :=
  setF .HOST_CR_HEAD_HEAD k ((getF .HOST_CR_HEAD_HEAD k e + n) % crSize e k) e

/-- A ring halts (R250, R457): nothing more is read, and its open transaction is abandoned (R276). -/
def haltRing (k : Nat) (e : Engine) : Engine := abandon k (setF .HOST_CR_STAT_HALT k 1 e)

/-- The next program of the ring in turn (R250): executed, replayed, or a sequence gap, whose completion names no directive: tag, opcode and
RESULT are free. -/
def effProgramFetch (e : Engine) : Engine :=
  match turnOf e with
  | none => e
  | some k =>
    let r := getRing e k
    if r.active then e
    else match nextProgram e k with
      | none => e
      | some w =>
        let n := bits w 31 0
        let seq := bits w 63 32
        let exp := getF .HOST_CR_SEQ_SEQ k e
        let back := (exp + 2 ^ 32 - seq) % 2 ^ 32
        if back = 0 then
          let ws := programWords e k (getF .HOST_CR_HEAD_HEAD k e + 1) n
          settleRings (setF .HOST_CR_SEQ_SEQ k (exp + 1) (setRing k { r with active := true, seq := seq, len := n + 1, words := ws, comps := [] } e))
        else if back ≤ 64 then
          let l : List (Word64 × Word64) := ((r.past.find? fun p => p.1 == seq).map (·.2)).getD []
          l.foldl (fun e c => pushComp k (c.1 ||| 4) c.2 e) (maxF .HOST_RST_STAT_LEVEL 0 1 (passProgram k (n + 1) e))
        else
          let p := takeFree e
          let q := takeFree p.2
          haltRing k (pushComp k (compWord (p.1.toNat % 2 ^ 32) 0x0104 (p.1.toNat / 2 ^ 32 % 256) false) q.1 q.2)

def execProgramFetch (s : State) : Host.Outcome State Fault Refusal :=
  runLive "PROGRAM_FETCH" Instr.programFetch.wf effProgramFetch s

/-- Writing the expected sequence number clears HALT (R250, Table 8.9). -/
def effHostCrSeqWrite (k seq : Nat) (e : Engine) : Engine := settleRings (setF .HOST_CR_STAT_HALT k 0 (setF .HOST_CR_SEQ_SEQ k seq e))

def execHostCrSeqWrite (ring seq : Nat) (s : State) : Host.Outcome State Fault Refusal :=
  runLive "HOST_CR_SEQ_WRITE" (Instr.hostCrSeqWrite ring seq).wf (effHostCrSeqWrite ring seq) s

/-- EN = 0 abandons the open transaction of the ring (R276, Table 8.9). -/
def disableRing (k : Nat) (e : Engine) : Engine := abandon k (setF .HOST_CR_CFG_EN k 0 e)

def effRingDisable (k : Nat) (e : Engine) : Engine := disableRing k e

def execRingDisable (ring : Nat) (s : State) : Host.Outcome State Fault Refusal :=
  runLive "RING_DISABLE" (Instr.ringDisable ring).wf (effRingDisable ring) s

/-- Completions that waited for a free entry are written while there is one. -/
def payOwed : Nat → Nat → Engine → Engine
  | 0, _, e => e
  | n + 1, k, e =>
    match e.ctl.owed.find? fun p => p.1 == k with
    | some p =>
      if cqFree e k then
        payOwed n k (writeComp k p.2.1 p.2.2 { e with ctl := { e.ctl with owed := e.ctl.owed.erase p } })
      else e
    | none => e

/-- Entries of a ring of `size` that a head moving from `old` to `new` gives back. -/
def freed (size old new : Nat) : Nat := (new + size - old % size) % size

/-- The host has consumed completion entries (R253): those that wait are written, and the ring is read again. -/
def effHostCqHeadWrite (k head : Nat) (e : Engine) : Engine :=
  let n := freed (cqSize e k) (getF .HOST_CQ_HEAD_HEAD k e) head
  let u := tget 0 e.ctl.used k
  -- a head that moves by nothing while every entry is in use gives none back
  let e := { e with ctl := { e.ctl with used := tput 0 e.ctl.used k (u - min u n) } }
  settleRings (payOwed (e.ctl.owed.length) k (setF .HOST_CQ_HEAD_HEAD k head e))

def execHostCqHeadWrite (ring head : Nat) (s : State) : Host.Outcome State Fault Refusal :=
  runLive "HOST_CQ_HEAD_WRITE" (Instr.hostCqHeadWrite ring head).wf (effHostCqHeadWrite ring head) s

/-- Event 0x0406 once space has returned (R254). -/
def effEventsLostPost (e : Engine) : Engine := reportLost e

def execEventsLostPost (s : State) : Host.Outcome State Fault Refusal :=
  runLive "EVENTS_LOST_POST" Instr.eventsLostPost.wf effEventsLostPost s

/-- A transaction that stayed open with no staged directive for IDLE is abandoned (R276). -/
def effTransactionIdleAbandon (k : Nat) (e : Engine) : Engine := if supUp e then settleRings (abandon k e) else e

def execTransactionIdleAbandon (ring : Nat) (s : State) : Host.Outcome State Fault Refusal :=
  runLive "TRANSACTION_IDLE_ABANDON" (Instr.transactionIdleAbandon ring).wf (effTransactionIdleAbandon ring) s

end Sys2Proof.Machine
end

