-- ==== Sys2Proof/Machine/Pair.lean ====
section
/-! DEFINITION. Redundant pairs (chapter 13): roles, the ECLIPSE line and the selector, heartbeats, takeover and handover, the CRC groups of
hot mode, state epochs of warm mode, and the checks of `PAIR_CFG` and `PAIR_SYNC`. -/
namespace Sys2Proof.Machine

/-! ### Roles (R397–R400) -/

def pairMode (e : Engine) : Nat := getF .PAIR_CFG_MODE 0 e
/-- Roles of Table 13.1: 0 SOLO, 1 ACTIVE, 2 RELEASED, 3 PEER. -/
def pairRole (e : Engine) : Nat := getF .PAIR_STAT_ROLE 0 e
/-- Peer states of Table 13.2: 0 UNQUALIFIED, 1 SYNCING, 2 CONVERGING, 3 READY. -/
def peerState (e : Engine) : Nat := getF .PAIR_STAT_PSTATE 0 e
def isHot (e : Engine) : Bool := pairMode e == 2
def isWarm (e : Engine) : Bool := pairMode e == 1
def pairLink (e : Engine) : Nat := getF .PAIR_CFG_LINK 0 e
def peerSerial (e : Engine) : Nat := 2 ^ 32 * getF .PAIR_PEER_HI_PEER 0 e + getF .PAIR_PEER_LO_PEER 0 e

/-- READY in warm mode, CONVERGING or READY in hot mode (Table 13.2). -/
def qualified (e : Engine) : Bool := if isHot e then decide (2 ≤ peerState e) else decide (peerState e = 3)

def setPair (f : PairSt → PairSt) (e : Engine) : Engine := { e with pair := f e.pair }

/-- The pins and the transmit of a role (Table 13.1). A RELEASED member goes on as it was until it senses the line pulled low. -/
def driveRole (r : Nat) (e : Engine) : Engine :=
  match r with
  | 0 | 1 => setPair (fun p => { p with eclLow := true, eclSel := true, muted := false }) e
  | 2 => setPair (fun p => { p with eclLow := false, heard := false }) e
  | _ => setPair (fun p => { p with eclLow := false, eclSel := false, muted := true }) e

/-- Event 0x0901 (Table 13.8). -/
def roleEvent (taken refused : Bool) (status : Nat) (e : Engine) : Engine :=
  postEvent 0x0901 [2 ^ 62 * pairRole e + 2 ^ 61 * taken.toNat + 2 ^ 60 * refused.toNat + 2 ^ 59 * (isWarm e).toNat + 2 ^ 16 * status
    + getF .PAIR_STAT_EPAGE 0 e, (fabFrame e % 2 ^ 64).toNat] e

/-- A peer state is taken: event 0x0907. -/
def setPeerState (q : Nat) (e : Engine) : Engine :=
  if peerState e = q then e else postEvent 0x0907 [2 ^ 62 * q] (setF .PAIR_STAT_PSTATE 0 q e)

/-- A role is taken. -/
def takeRole (r : Nat) (taken : Bool) (e : Engine) : Engine :=
  let e := driveRole r (setF .PAIR_STAT_ROLE 0 r (setPair (fun p => { p with deciding := false, lineBad := false }) e))
  let e := if r = 3 then e else setF .PAIR_STAT_PSTATE 0 0 e
  roleEvent taken false 0 e

/-- A member starts to decide its role (R399): it does not drive the line meanwhile. -/
def startDecision (e : Engine) : Engine :=
  setPair (fun p => { p with deciding := true, eclLow := false, lowRun := 0, highRun := 0, heard := false }) e

/-- Heartbeats with role ACTIVE arrive from the other member. -/
def otherActive (e : Engine) : Bool :=
  isF .PAIR_STAT_LINK_OK 0 e && (match e.pair.peer with | some h => h.role == 1 | none => false)

/-- The conditions of R397 that this member sees. The other member's record is not visible to it: a heartbeat with a MODE stands for it. -/
def formedNow (e : Engine) : Bool :=
  pairMode e != 0 && inFab e && linkUp e (pairLink e) && tget 0 e.fab.peer (pairLink e) == peerSerial e
    && (match e.pair.peer with | some h => h.mode != 0 | none => false)

def refreshFormed (e : Engine) : Engine := setF .PAIR_STAT_FORMED 0 (formedNow e).toNat e

/-- The peer's graph runs or not as its role and mode say (Table 13.1): a warm peer's does not run, a hot peer's from its sync on. -/
def stopPeerGraph (e : Engine) : Engine := { e with sched := { e.sched with running := false } }

/-- A hot sync starts at the peer (R419), or at the active that waits for it. -/
def startSync (e : Engine) : Engine :=
  let e := setPair (fun p => { p with syncing := true, replLost := false, epochNow := none, flip := false }) e
  if pairRole e = 3 then setPeerState 1 (stopPeerGraph e) else e

/-- The member becomes PEER (R399, R404). -/
def becomePeer (e : Engine) : Engine :=
  let e := takeRole 3 false e
  let e := setPeerState 0 (stopPeerGraph (setPair (fun p => { p with epochAt := none, epochNow := none, flip := false }) e))
  if isHot e then startSync e else e

/-- A decision of R399. A PEER waits for three low samples; ACTIVE comes after 3 high ones at SIDE A, 12 at SIDE B. -/
def effRoleDecision (e : Engine) : Engine :=
  if !e.pair.deciding then e
  else if 3 ≤ e.pair.lowRun then becomePeer e
  else if (if getF .PAIR_CFG_SIDE 0 e = 0 then 3 else 12) ≤ e.pair.highRun ∧ !e.pair.heard then takeRole 1 false e
  else e

def execRoleDecision (s : State) : Host.Outcome State Fault Refusal :=
  runLive "ROLE_DECISION" Instr.roleDecision.wf effRoleDecision s

/-- A member that a supervisor restart released acts at its end (R404). -/
def restartRole (e : Engine) : Engine :=
  if pairRole e ≠ 2 then e
  else if isF .PAIR_STAT_LINE 0 e && !e.pair.heard then takeRole (if pairMode e = 0 then 0 else 1) false e
  else becomePeer e

/-! ### ECLIPSE and its line test (R401, R409, R410) -/

/-- A line-test pulse has been seen within the last second. -/
def pulseFresh (e : Engine) : Bool :=
  match e.pair.pulseAt with | some n => decide (frameNo e ≤ n + secFrames e) | none => false

/-- The row of Table 13.5 that raises an alarm at a peer: 3 both paths lost with ECLIPSE held, 5 ECLIPSE released with a path present, 1 a
takeover refused for want of qualification; 0 none. -/
def alarmRow (e : Engine) : Nat :=
  let tide := isF .PAIR_STAT_TIDE_OK 0 e
  let link := isF .PAIR_STAT_LINK_OK 0 e
  let high := isF .PAIR_STAT_LINE 0 e
  if pairRole e ≠ 3 then 0
  else if high then
    (if tide || link then 5 else if decide (3 ≤ e.pair.highRun) && pulseFresh e && !qualified e then 1 else 0)
  else if !tide && !link then 3
  else 0

/-- Runs a change of the path states and raises the alarm of the row that it leads to. -/
def withAlarm (f : Engine → Engine) (e : Engine) : Engine :=
  let before := alarmRow e
  let e := f e
  let now := alarmRow e
  if now = before then e
  else match now with
    | 3 => postEvent 0x0903 [] e
    | 5 => postEvent 0x0905 [] e
    | 1 => roleEvent false true 0 e
    | _ => e

/-- ECLIPSE as sampled 3 µs after the tick. -/
def sampleLine (high : Bool) (e : Engine) : Engine :=
  setF .PAIR_STAT_LINE 0 high.toNat (setPair (fun p =>
    { p with lowRun := if high then 0 else p.lowRun + 1, highRun := if high then p.highRun + 1 else 0 }) e)

def effEclipseSample (high : Bool) (e : Engine) : Engine := withAlarm (sampleLine high) e

def execEclipseSample (high : Bool) (s : State) : Host.Outcome State Fault Refusal :=
  runLive "ECLIPSE_SAMPLE" (Instr.eclipseSample high).wf (effEclipseSample high) s

/-- The level of the line during the active's pulse: the active checks it, the peer records the pulse. -/
def effLineTestPulse (high : Bool) (e : Engine) : Engine :=
  if pairRole e = 1 then
    if e.pair.lineBad == !high then e
    else postEvent 0x0904 [2 ^ 63 * (!high).toNat + 2 ^ 62] (setPair (fun p => { p with lineBad := !high }) e)
  else if pairRole e = 3 then
    if high then
      let n := frameNo e
      let run := if e.pair.pulseAt = some n then e.pair.pulseRun else if e.pair.pulseAt = some (n - 1) then e.pair.pulseRun + 1 else 1
      setF .PAIR_STAT_LTOK 0 1 (setPair (fun p => { p with pulseAt := some n, pulseRun := run }) e)
    else setPair (fun p => { p with pulseRun := 0 }) e
  else e

def execLineTestPulse (high : Bool) (s : State) : Host.Outcome State Fault Refusal :=
  runLive "LINE_TEST_PULSE" (Instr.lineTestPulse high).wf (effLineTestPulse high) s

/-- No pulse for 1 s clears AUTO; pulses at every tick for 1 s set it again (R410). -/
def effAutoDisarm (rearm : Bool) (e : Engine) : Engine :=
  if pairRole e ≠ 3 then e
  else if rearm then
    if !isF .PAIR_STAT_AUTO 0 e && decide (secFrames e ≤ e.pair.pulseRun) then postEvent 0x0904 [0] (setF .PAIR_STAT_AUTO 0 1 e) else e
  else if isF .PAIR_STAT_AUTO 0 e && !pulseFresh e then
    postEvent 0x0904 [2 ^ 63] (setF .PAIR_STAT_LTOK 0 0 (setF .PAIR_STAT_AUTO 0 0 e))
  else e

def execAutoDisarm (rearm : Bool) (s : State) : Host.Outcome State Fault Refusal :=
  runLive "AUTO_DISARM" (Instr.autoDisarm rearm).wf (effAutoDisarm rearm) s

/-- The health monitor releases ECLIPSE (R403). A peer's line is released already. -/
def releaseEcl (e : Engine) : Engine := if pairRole e < 2 then takeRole 2 false e else e

/-- A cause of Table 13.3, in its order: cause 0, no frame tick for two frames, requests a warm reset with cause 0x08 as well (Table 15.8).
After a failure of the heartbeat generator and a voluntary release no reset follows, so the member decides its role at once (R404). -/
def effDeadManRelease (cause : Nat) (e : Engine) : Engine :=
  let was := pairRole e
  let e := releaseEcl e
  if cause = 0 then requestWarm 0x08 e
  else if decide (was < 2) && (cause == 2 || cause == 5) && pairMode e != 0 then startDecision e
  else e

def execDeadManRelease (cause : Nat) (s : State) : Host.Outcome State Fault Refusal :=
  runLive "DEAD_MAN_RELEASE" (Instr.deadManRelease cause).wf (effDeadManRelease cause) s

/-- A RELEASED member senses that the other member pulls the line low (R403). -/
def effReleasedMute (e : Engine) : Engine :=
  if pairRole e = 2 then setPair (fun p => { p with muted := true, eclSel := false }) e else e

def execReleasedMute (s : State) : Host.Outcome State Fault Refusal :=
  runLive "RELEASED_MUTE" Instr.releasedMute.wf effReleasedMute s

/-! ### TIDE and the link heartbeat (R405, R406) -/

/-- A path is lost or has returned: counted, and event 0x0902. -/
def pathChange (tide lost : Bool) (e : Engine) : Engine :=
  let e := setF (if tide then .PAIR_STAT_TIDE_OK else .PAIR_STAT_LINK_OK) 0 (!lost).toNat e
  let e := bumpF (if tide then .PAIR_CNT_TIDEMISS else .PAIR_CNT_HBMISS) 0 1 e
  postEvent 0x0902 [2 ^ 63 * tide.toNat + 2 ^ 62 * lost.toNat] e

/-- An edge on TIDE_IN: the second frame in a row that carries one declares TIDE present. -/
def effTideEdge (e : Engine) : Engine :=
  if e.pair.tideSeen then e
  else
    let e := setPair (fun p => { p with tideSeen := true, tideMiss := 0, tideRun := p.tideRun + 1 }) e
    if 2 ≤ e.pair.tideRun ∧ !isF .PAIR_STAT_TIDE_OK 0 e then withAlarm (pathChange true false) e else e

def execTideEdge (s : State) : Host.Outcome State Fault Refusal :=
  runLive "TIDE_EDGE" Instr.tideEdge.wf effTideEdge s

/-- Three frames before the tick without an edge. -/
def effTideLost (e : Engine) : Engine :=
  if isF .PAIR_STAT_TIDE_OK 0 e && decide (3 ≤ e.pair.tideMiss) then withAlarm (pathChange true true) e else e

def execTideLost (s : State) : Host.Outcome State Fault Refusal :=
  runLive "TIDE_LOST" Instr.tideLost.wf effTideLost s

/-- Three ticks in a row without a valid block; the frame in progress counts from its tick. -/
def effHeartbeatLost (e : Engine) : Engine :=
  if isF .PAIR_STAT_LINK_OK 0 e && !e.pair.hbSeen && decide (2 ≤ e.pair.hbMiss) then
    withAlarm (pathChange false true) (setPair (fun p => { p with hbRun := 0 }) e)
  else e

def execHeartbeatLost (s : State) : Host.Outcome State Fault Refusal :=
  runLive "HEARTBEAT_LOST" Instr.heartbeatLost.wf effHeartbeatLost s

/-! ### Output groups (R417, R418) -/

def pairGroups (e : Engine) : List (Nat × Nat × Nat) := e.pair.groups.filterMap fun p => p.2.map fun x => (p.1, x)

def groupInSync (e : Engine) (g : Nat) : Bool := bitF .PAIR_GRP_INSYNC (g / 32) (g % 32) e
def setInSync (g : Nat) (on : Bool) (e : Engine) : Engine := setBitF .PAIR_GRP_INSYNC (g / 32) (g % 32) on e

/-- The CRC of a group over the sink values that output assembly has committed, ascending sink and sample, little-endian words. -/
def groupCrc (e : Engine) (first last : Nat) : Nat :=
  crc32 ((List.range (last + 1 - first)).flatMap fun j => sampleBytes (outOf e (first + j)))

/-- The CRCs of the frame assembled. -/
def takeCrcs (e : Engine) : Engine :=
  setPair (fun p => { p with crcs := (pairGroups e).foldl (fun t g => tput 0 t g.1 (groupCrc e g.2.1 g.2.2)) [] }) e

/-- The peer falls back to CONVERGING. -/
def toConverging (e : Engine) : Engine := if pairRole e = 3 ∧ peerState e = 3 then setPeerState 2 e else e

/-- The other member is a qualified peer, as its last heartbeat says. -/
def otherQualified (e : Engine) : Bool :=
  match e.pair.peer with
  | some h => h.role == 3 && (if isHot e then decide (2 ≤ h.pstate) else decide (h.pstate = 3))
  | none => false

/-- The row of Table 13.6, from the records of the active and the peer for the frame compared. -/
def crcRow (active peer : Bool) : Nat := if peer && !active then 0 else if active && !peer then 1 else if active then 2 else 3

/-- One group's CRC beside the other member's. -/
def compareGroup (h : Heartbeat) (e : Engine) (g : Nat × Nat × Nat) : Engine :=
  match h.crcs.find? fun c => c.1 == g.1 with
  | none => e
  | some c =>
    if c.2 = tget 0 e.pair.crcs g.1 then setPair (fun p => { p with agree := tput 0 p.agree g.1 (tget 0 p.agree g.1 + 1) }) e
    else
      let e := bumpF .PAIR_CRCMIS_CRCMIS 0 1 (setPair (fun p => { p with agree := tput 0 p.agree g.1 0 }) e)
      if !groupInSync e g.1 then e
      else
        let row := if pairRole e = 1 then crcRow e.pair.rec0 h.rec0 else crcRow h.rec0 e.pair.rec0
        let e := postEvent 0x0906 [2 ^ 58 * g.1 + 2 ^ 56 * row, ((fabFrame e - 1) % 2 ^ 64).toNat] e
        match row with
        | 0 | 2 => toConverging (setInSync g.1 false e)
        | 1 =>
          if pairRole e = 1 ∧ isF .PAIR_CFG_AUTOHAND 0 e ∧ otherQualified e ∧ e.pair.hand = 0 then
            setPair (fun p => { p with hand := (fabFrame e).toNat + getF .PAIR_CFG_LEAD 0 e }) e
          else e
        | _ => e

/-- A valid block of the other member (R406): a gap of three numbers is a loss; the second block in a row declares the path present. -/
def effHeartbeatBlock (h : Heartbeat) (e : Engine) : Engine :=
  if pairMode e = 0 || !linkUp e (pairLink e) then e
  else
    let gap := match e.pair.hbSeq with | some q => (h.seq + 2 ^ 33 - q - 1) % 2 ^ 32 | none => 0
    let e := if isF .PAIR_STAT_LINK_OK 0 e && decide (3 ≤ gap) then withAlarm (pathChange false true) e else e
    let e := setPair (fun p => { p with hbSeen := true, hbMiss := 0, hbRun := if gap = 0 then p.hbRun + 1 else 1, hbSeq := some h.seq,
                                        peer := some h, heard := p.heard || h.role == 1,
                                        hand := if pairRole e = 3 then h.hand else p.hand }) e
    let e := if 2 ≤ e.pair.hbRun ∧ !isF .PAIR_STAT_LINK_OK 0 e then withAlarm (pathChange false false) e else e
    let e := refreshFormed e
    let e := if pairRole e = 1 then
        let done := e.pair.epochNow.isSome && decide (h.epoch ≠ getF .PAIR_EPOCH_LAST 0 e)
        let e := setF .PAIR_EPOCH_LAST 0 h.epoch e
        -- a hot peer that has started its sync is sent an epoch (R419)
        setPair (fun p => { p with syncing := (p.syncing || (isHot e && h.pstate == 1)) && decide (h.pstate < 2), epochNow := if done then none else p.epochNow }) e
      else e
    if isHot e && e.sched.running && (pairRole e == 1 || pairRole e == 3) then (pairGroups e).foldl (compareGroup h) e else e

def execHeartbeatBlock (h : Heartbeat) (s : State) : Host.Outcome State Fault Refusal :=
  runLive "HEARTBEAT_BLOCK" (Instr.heartbeatBlock h).wf (effHeartbeatBlock h) s

/-- A hot peer in CONVERGING with every output group IN_SYNC is READY (Table 13.2). -/
def readyIfSynced (e : Engine) : Engine :=
  if isHot e && pairRole e == 3 && peerState e == 2 && (pairGroups e).all (fun x => groupInSync e x.1) then
    setPeerState 3 (setPair (fun p => { p with syncing := false }) e)
  else e

/-- CRCs that have agreed for 1 s make the group IN_SYNC; a peer with every group in sync is READY (R417, R419). -/
def effInSync (g : Nat) (e : Engine) : Engine :=
  if isHot e && ((pairGroups e).any fun x => x.1 == g) && decide (secFrames e ≤ tget 0 e.pair.agree g) then
    readyIfSynced (setInSync g true e)
  else e

def execInSync (g : Nat) (s : State) : Host.Outcome State Fault Refusal :=
  runLive "IN_SYNC" (Instr.inSync g).wf (effInSync g) s

/-- A group is not IN_SYNC after CONV seconds: event 0x0907; the peer stays CONVERGING. -/
def effConvergenceTimeout (g : Nat) (e : Engine) : Engine :=
  if isHot e && pairRole e == 3 && peerState e == 2 && ((pairGroups e).any fun x => x.1 == g) && !groupInSync e g then
    postEvent 0x0907 [2 * 2 ^ 62] e
  else e

def execConvergenceTimeout (g : Nat) (s : State) : Host.Outcome State Fault Refusal :=
  runLive "CONVERGENCE_TIMEOUT" (Instr.convergenceTimeout g).wf (effConvergenceTimeout g) s

/-! ### Takeover and handover (R408, R411, R423) -/

/-- The new active of a warm pair: its graph starts two frames on, and until then each output repeats the epoch's last value. -/
def warmTake (e : Engine) : Engine :=
  if isWarm e then needReadmit (setPair (fun p => { p with warmT := some (frameNo e) }) e) else e

/-- The conditions of R408 at the tick. -/
def mayTake (e : Engine) : Bool :=
  pairRole e == 3 && qualified e && isF .PAIR_STAT_AUTO 0 e && !isF .PAIR_STAT_TIDE_OK 0 e && !isF .PAIR_STAT_LINK_OK 0 e
    && decide (3 ≤ e.pair.highRun) && pulseFresh e

def effTakeover (e : Engine) : Engine :=
  if mayTake e then warmTake (setF .PAIR_STAT_TAKEN 0 1 (takeRole 1 true e)) else e

def execTakeover (s : State) : Host.Outcome State Fault Refusal :=
  runLive "TAKEOVER" Instr.takeover.wf effTakeover s

/-- The completion of the `PAIR_SYNC` that ordered the handover (R425); the spec gives it no RESULT. -/
def endHandover (status : Nat) (e : Engine) : Engine :=
  match e.pair.handBy with
  | none => e
  | some (k, tag) =>
    let e := setPair (fun p => { p with handBy := none }) e
    let flags := match (getRing e k).hold with | some h => h.flags | none => 0
    settleRings (refuseDir k 0xA1 tag flags status e)

/-- The tick of the handover frame. -/
def effHandover (e : Engine) : Engine :=
  if e.pair.hand = 0 ∨ fabFrame e < (e.pair.hand : Int) then e
  else
    let q := if pairRole e = 1 then otherQualified e else qualified e
    let e := setPair (fun p => { p with hand := 0 }) e
    if pairRole e ≠ 1 ∧ pairRole e ≠ 3 then e
    else if !q then endHandover 0x0805 (roleEvent false true 0x0805 e)
    else if pairRole e = 3 then warmTake (takeRole 1 false e)
    else
      let e := takeRole 3 false e
      let e := if isHot e then setPeerState 2 (setF .PAIR_GRP_INSYNC 0 0 (setF .PAIR_GRP_INSYNC 1 0 (setPair (fun p => { p with agree := [] }) e)))
        else stopPeerGraph (setPair (fun p => { p with epochAt := none, epochNow := none }) e)
      endHandover 0 e

def execHandover (s : State) : Host.Outcome State Fault Refusal :=
  runLive "HANDOVER" Instr.handover.wf effHandover s

/-- A forwarded directive has missed its apply frame or does not reach the peer (R414). -/
def effReplicationLate (e : Engine) : Engine :=
  if pairRole e = 3 then
    let e := setPair (fun p => { p with replLost := true }) e
    if peerState e = 0 then e else setPeerState 0 e
  else if pairRole e = 1 ∧ pairMode e ≠ 0 then postEvent 0x0907 [0] e
  else e

def execReplicationLate (s : State) : Host.Outcome State Fault Refusal :=
  runLive "REPLICATION_LATE" Instr.replicationLate.wf effReplicationLate s

/-! ### Epochs (R420–R422) -/

/-- Q, the frames between epoch frames (R421). -/
def epochQ (e : Engine) : Nat := ceilDiv (houseHz e) (10 * frameLen e)
/-- The number of the epoch of a frame, as the 16-bit fields show it. -/
def epochNo (e : Engine) (f : Nat) : Nat := f / epochQ e % 65536

/-- Frames as milliseconds. -/
def framesMs (e : Engine) (n : Nat) : Nat := 1000 * (n * frameLen e) / houseHz e

/-- EPAGE at a tick. -/
def refreshAge (e : Engine) : Engine :=
  setF .PAIR_STAT_EPAGE 0 (match e.pair.epochAt with
    | some f => min 0xFFFF (framesMs e ((fabFrame e).toNat - f))
    | none => 0xFFFF) e

/-- The last byte of the epoch has come and its CRC checks: it goes to the inactive halves, which flip at the next tick. -/
def effEpochComplete (parts : List EpochPart) (held : List (Nat × Int)) (e : Engine) : Engine :=
  if pairRole e ≠ 3 || pairMode e == 0 || e.pair.epochNow.isNone || e.pair.flip then e
  else
    let e := parts.foldl (fun e p =>
      store (stateBase e p.region + (1 - stateHalf e p.region) * stateSize e p.region) (p.bytes.take (stateSize e p.region)) e) e
    setPair (fun p => { p with flip := true, heldNext := held.foldl (fun t x => tput 0 t x.1 x.2) [] }) e

def execEpochComplete (parts : List EpochPart) (held : List (Nat × Int)) (s : State) : Host.Outcome State Fault Refusal :=
  runLive "EPOCH_COMPLETE" (Instr.epochComplete parts held).wf (effEpochComplete parts held) s

/-- An epoch is not complete within 50 ms: it is dropped (R422). -/
def effEpochAbandon (e : Engine) : Engine :=
  match e.pair.epochNow with
  | none => e
  | some f =>
    if e.pair.flip then e
    else
      let e := setPair (fun p => { p with epochNow := none, image := [] }) e
      let e := postEvent 0x0908 [epochNo e f] (bumpF .PAIR_EPOCH_ABANDONED 0 1 e)
      if isWarm e && pairRole e == 3 && peerState e == 1 && !e.pair.syncing then setPeerState 0 e else e

def execEpochAbandon (s : State) : Host.Outcome State Fault Refusal :=
  runLive "EPOCH_ABANDON" Instr.epochAbandon.wf effEpochAbandon s

/-- A graph change at this frame voids the complete epochs before it (R422). -/
def voidEpochs (e : Engine) : Engine :=
  match e.pair.epochAt with
  | none => e
  | some f =>
    if fabFrame e ≤ (f : Int) then e
    else
      let e := setPair (fun p => { p with epochAt := none }) e
      if isWarm e && pairRole e == 3 && peerState e == 3 then setPeerState 0 e else e

/-- A new active or a hot peer starts its graph from the active halves: gain points and fades at their targets, rings silent, loudness,
automix and duck factors afresh (Table 13.7). The caller starts the frame's items. -/
def freshStart (e : Engine) : Engine :=
  let mix := e.mix
  let e := mix.gps.foldl (fun e p =>
    setGp p.1 { p.2 with g := p.2.next.getD p.2.t, t := p.2.next.getD p.2.t, st := .steady, next := none, pos := 0, defer := false } e) e
  let e := mix.sinks.foldl (fun e p =>
    let k := p.2
    let k := { k with cur := match k.pend with | some r => r.src | none => k.cur
                      pend := none, act := none, out := 0x3FFF, pos := 0, len := 0, mode := 0, newFb := false }
    let k := match k.st with
      | .zcwait | .fade => { k with st := .steady }
      | .fbfade => { k with st := k.after, carry := feedSrc k.toF }
      | _ => k
    setSink p.1 k e) e
  let e := e.sched.adm.rings.foldl (fun e p => store p.2.1 (List.replicate (4 * p.2.2) 0) e) e
  { e with mix := { e.mix with
      members := e.mix.members.map fun p => (p.1, p.2.map fun m => { m with e := 0, a := 0x10000000, hold := 0 })
      ducks := e.mix.ducks.map fun p => (p.1, p.2.map fun d => { d with active := false, until_ := 0 })
      louds := e.mix.louds.map fun p => (p.1, p.2.map fun l => { l with reset := true })
      taps := [] } }

/-- The flip of a complete epoch at the tick (R419, R422). -/
def flipEpoch (e : Engine) : Engine :=
  match e.pair.flip, e.pair.epochNow with
  | true, some f =>
    let e := setPair (fun p => { p with flip := false, epochNow := none, epochAt := some f, act := p.act ^^^ 15, held := p.heldNext, heldNext := [] }) e
    let e := setF .PAIR_EPOCH_LAST 0 (epochNo e f) e
    if isHot e then
      (if e.pair.syncing ∧ peerState e = 1 then
        setPeerState 2 (freshStart (setPair (fun p => { p with agree := [] })
          { e with sched := { e.sched with running := inRun e } })) else e)
    else if e.pair.replLost then e
    else setPeerState 3 (setPair (fun p => { p with syncing := false }) e)
  | _, _ => e

/-- The image of every pair state area as it stands at the tick (R421). -/
def formEpoch (e : Engine) : List (Nat × List Byte) :=
  [0, 1, 2, 3].map fun r => (r, readBytes e (stateBase e r + stateHalf e r * stateSize e r) (stateSize e r))

/-- An epoch frame: the active forms the epoch and takes a MODE that waits (R424); a warm peer, or a hot one that syncs, awaits it. -/
def epochTick (e : Engine) : Engine :=
  let f := fabFrame e
  if pairMode e = 0 || f < 0 || f.toNat % epochQ e ≠ 0 then e
  else if pairRole e = 1 then
    let e := match e.pair.modeNext with
      | some m =>
        let e := setF .PAIR_CFG_MODE 0 m (setPair (fun p => { p with modeNext := none }) e)
        if m = 0 then takeRole 0 false e else if m = 2 then reserveTwins true (setPair (fun p => { p with syncing := true }) e) else e
      | none => e
    if pairMode e = 0 || !formedNow e || !(isWarm e || e.pair.syncing) then e
    else setPair (fun p => { p with epochNow := some f.toNat, image := formEpoch e }) e
  else if pairRole e = 3 ∧ otherActive e ∧ (isWarm e || e.pair.syncing) then
    let e := setPair (fun p => { p with epochNow := some f.toNat }) e
    if isWarm e && peerState e == 0 && e.pair.epochAt.isNone && !e.pair.replLost then setPeerState 1 e else e
  else e

/-- An epoch older than 200 ms does not qualify a warm peer. -/
def ageTick (e : Engine) : Engine :=
  let e := refreshAge e
  if isWarm e && pairRole e == 3 && peerState e == 3 then
    match e.pair.epochAt with
    | some f => if 1000 * frameLen e * ((fabFrame e).toNat - f) > 200 * houseHz e then setPeerState 0 e else e
    | none => e
  else e

/-- The heartbeat block of the tick (Table 13.4). -/
def heartbeatOut (e : Engine) : Heartbeat :=
  { seq := e.pair.seqOut, role := pairRole e, pstate := peerState e, mode := pairMode e, ltok := pairRole e == 3 && e.pair.pulseAt == some (frameNo e - 1),
    epoch := match e.pair.epochNow, pairRole e with
      | some f, 1 => epochNo e f
      | _, _ => getF .PAIR_EPOCH_LAST 0 e
    rec1 := e.pair.rec1, rec0 := e.pair.rec0, crcs := (pairGroups e).map fun g => (g.1, tget 0 e.pair.crcs g.1),
    hand := if pairRole e = 1 && decide ((e.pair.hand : Int) ≤ fabFrame e + (getF .PAIR_CFG_LEAD 0 e : Int)) then e.pair.hand else 0 }

/-- The fault records at a tick (R418). -/
def recordTick (e : Engine) : Engine :=
  setPair (fun p => { p with rec1 := p.rec0, rec0 := p.fault || p.faultPrev, faultPrev := p.fault, fault := false }) e

/-- The pair at a frame tick: path counts, epochs, TIDE and the heartbeat. -/
def pairTick (e : Engine) : Engine :=
  let e := setPair (fun p => { p with tideMiss := if p.tideSeen then 0 else p.tideMiss + 1, tideRun := if p.tideSeen then p.tideRun else 0,
                                      tideSeen := false, hbMiss := if p.hbSeen then 0 else p.hbMiss + 1,
                                      hbRun := if p.hbSeen then p.hbRun else 0, hbSeen := false }) e
  if pairMode e = 0 ∧ pairRole e ≠ 3 then e
  else
    let e := if e.pair.resync ∧ isHot e ∧ pairRole e = 3 then startSync e else e
    let e := setPair (fun p => { p with resync := false }) e
    let e := readyIfSynced (ageTick (epochTick (flipEpoch (refreshFormed e))))
    let e := setF .PAIR_STAT_LTOK 0 (pulseFresh e).toNat e
    if pairRole e = 1 ∨ pairRole e = 3 then
      setPair (fun p => { p with tideOut := !p.tideOut, hbOut := some (heartbeatOut e), seqOut := (p.seqOut + 1) % 2 ^ 32 }) e
    else setPair (fun p => { p with hbOut := none }) e

/-! ### `PAIR_CFG` and `PAIR_SYNC` (R424, R425) -/

/-- The status of a `PAIR_CFG` record. -/
def pairCfgCheck (ws : List Word64) : Nat :=
  let w0 := ws.getD 0 0
  let w1 := ws.getD 1 0
  match bits w0 63 60 with
  | 0 =>
    if bits w0 59 58 = 3 ∨ bits w0 54 51 < 3 ∨ bits w0 47 32 < 1 ∨ 3600 < bits w0 47 32 ∨ bits w0 49 48 ≠ 0 ∨ bits w0 31 0 ≠ 0 then 0x0103 else 0
  | 1 =>
    if w1 ≠ 0 ∨ bits w0 52 48 ≠ 0 ∨ bits w0 15 0 ≠ 0 ∨ bits w0 31 16 < bits w0 47 32 ∨ !sinkOk (bits w0 47 32) ∨ !sinkOk (bits w0 31 16) then 0x0103
    else 0
  | _ => 0x0103

/-- The pair record applies. -/
def applyPairCfg (ws : List Word64) (e : Engine) : Engine :=
  let w0 := ws.getD 0 0
  let w1 := ws.getD 1 0
  if bits w0 63 60 = 0 then
    let m := bits w0 59 58
    let old := pairMode e
    let formed := isF .PAIR_STAT_FORMED 0 e
    let e := setF .PAIR_CFG_SIDE 0 (bits w0 57 57) (setF .PAIR_CFG_LINK 0 (bits w0 56 55) (setF .PAIR_CFG_LEAD 0 (bits w0 54 51) e))
    let e := setF .PAIR_CFG_AUTOHAND 0 (bits w0 50 50) (setF .PAIR_CFG_CONV 0 (bits w0 47 32) e)
    let e := setF .PAIR_PEER_LO_PEER 0 (bits w1 31 0) (setF .PAIR_PEER_HI_PEER 0 (bits w1 63 32) e)
    if formed ∧ pairRole e = 1 ∧ m ≠ old then setPair (fun p => { p with modeNext := some m }) e
    else
      let e := setF .PAIR_CFG_MODE 0 m e
      if m = 0 then (if pairRole e = 1 ∨ pairRole e = 2 ∨ e.pair.deciding then takeRole 0 false e else refreshFormed e)
      else if pairRole e = 3 then (if m = old then e else if m = 2 then startSync e else setPeerState 0 (stopPeerGraph e))
      else if pairRole e = 1 ∧ formed then e
      else startDecision e
  else
    let g := bits w0 59 54
    let v := if bit w0 53 then some (bits w0 47 32, bits w0 31 16) else none
    setInSync g false (setPair (fun p => { p with groups := tput none p.groups g v, agree := tput 0 p.agree g 0 }) e)

/-- The status of a `PAIR_SYNC` record. -/
def pairSyncCheck (ws : List Word64) (e : Engine) : Nat :=
  let w0 := ws.getD 0 0
  let kind := bits w0 63 60
  let other := e.fab.nodes.find? fun n => n.serial == peerSerial e
  let route := match other with | some n => isF .FAB_ROUTE_VALID n.addr e | none => false
  if 1 < kind ∨ bits w0 59 0 ≠ 0 ∨ (kind = 0 ∧ (ws.getD 1 0) ≠ 0) then 0x0103
  else if pairMode e = 0 ∨ (linkUp e (pairLink e) ∧ !isF .PAIR_STAT_FORMED 0 e) then 0x0801
  else if kind = 1 ∧ pairRole e = 3 then 0x0802
  else if !linkUp e (pairLink e) && !route then 0x0803
  else if kind = 0 ∧ e.pair.syncing then 0x0804
  else if kind = 1 ∧ ((ws.getD 1 0).toNat : Int) < fabFrame e + (getF .PAIR_CFG_LEAD 0 e : Int) then 0x0305
  else 0

/-- A RESYNC; the active passes it to the peer. -/
def applyResync (e : Engine) : Engine :=
  match e.fab.nodes.find? fun n => n.serial == peerSerial e with
  | some n => startSync (if pairRole e = 1 then sendMsg n.addr .resync e else e)
  | none => startSync e

/-- A HANDOVER ordered by a ring: it completes at its frame. -/
def applyHandover (ring tag h : Nat) (e : Engine) : Engine :=
  setPair (fun p => { p with hand := h, handBy := some (ring, tag) }) e

end Sys2Proof.Machine
end

