-- ==== Sys2Proof/Machine/Admission.lean ====
section
/-! DEFINITION. The admission unit (R54–R67, R172, R196, R210, R384): item times and loads, the bound B, the tests, alignment, the latency
ledger, and the order of shedding. Times are whole multiples of 1/q ns, with q a common denominator of every term, so that they are exact. -/
namespace Sys2Proof.Machine

/-! ### The window (R54, R55) -/

/-- Numerator and denominator of T_adm in ns. -/
def tAdm (e : Engine) : Nat × Nat :=
  let up := getF .SYS_FRAME_CFG_PULL 0 e == 1
  (1000 * (10 ^ 13 * frameLen e), 10001 * (houseHz e * (if up then 1001 else 1000)))

/-- W_u: T_adm less 10 µs, rounded down to 1 ns. -/
def admWindow (e : Engine) : Nat := let t := tAdm e; (t.1 - 10000 * t.2) / t.2

/-- What follows from `SYS_FRAME_CFG` at once: the usable window (R55). The house domain shows at the next boundary (R48). -/
def followCfg (e : Engine) : Engine := setF .SYS_WINDOW_WINDOW 0 (admWindow e) e

/-! ### Partitions and item times (R61, R421) -/

/-- The partition of an item, as a name that equal partitions share, and its healthy executors (R28, R61). -/
def partKey (e : Engine) (d : Quad) : List Nat × Nat :=
  let n := (partOf e d).length
  match dKind d with
  | 0 => ([0, dAffinity d], n)
  | 1 => ([1, sumUnit e (dAffinity d % 32)], n)
  | 2 => ([2, dAffinity d % 256], 1)
  | 3 =>
    let a := dAffinity d % 4
    ([3, if a = 1 ∧ dmaMasterDown e 0 then 2 else if a = 2 ∧ dmaMasterDown e 1 then 1 else a], n)
  | _ => ([4, 0], 1)

/-- Bytes of the 512-byte units that `n` bytes from `a` touch (R442). -/
def unitBytes (a n : Nat) : Nat := if n = 0 then 0 else ((a + n - 1) / 512 - a / 512 + 1) * 512

/-- An address in DRAM. -/
def inDram (a : Nat) : Bool := decide (0x1000000000 ≤ a) && decide (a < 0x1800000000)
/-- An address in region SRAM. -/
def inRegion (a : Nat) : Bool := decide (0x10000000 ≤ a) && decide (a < 0x12000000)

def transfersIn (g : Graph) (d : Quad) : List Quad := transfersOf g 8192 (dEntry d % 8192)

/-- DRAM bytes of a DMA item's chain. -/
def dramBytes (g : Graph) (d : Quad) : Nat :=
  (transfersIn g d).foldl (fun s x =>
    s + (if xBind x ≠ 2 ∧ inDram (xSrc x) then unitBytes (xSrc x) (srcLen (xPack x) (xLen x)) else 0)
      + (if xBind x ≠ 1 ∧ inDram (xDst x) then unitBytes (xDst x) (xLen x) else 0)) 0

/-- Item time in units of 1/q ns (Table 2.4). `pace` is 1,040 or more at the floor rate; below it cells run at pace / 1,040 (R73), but those of
a region with two excluded pace monitors, which are timed at the floor only (R69). -/
def itemTime (e : Engine) (g : Graph) (pace q : Nat) (d : Quad) : Nat :=
  let b := dBudget d
  match dKind d with
  | 0 => if 1040 ≤ pace ∨ e.health.floorOnly.contains (subQueue d) then b * q else 1040 * b * q / pace
  | 1 => b * frameLen e / 2 * q
  | 2 => 20 * b * q
  | 3 =>
    if dramBytes g d ≠ 0 then 1200 * q + b * 5 * q / 6
    else if pairMode e ≠ 0 ∧ (transfersIn g d).any fun x => xBind x != 1 && inRegion (xDst x) then b * 5 * q / 16
    else b * q / 4
  | _ => b * q

/-- The items of a graph that are not left out. -/
def liveItems (g : Graph) (out : List Nat) : List (Nat × Quad) := g.items.filter fun p => !out.contains p.1

/-- A common denominator of every term of R63. -/
def admUnit (e : Engine) (pace : Nat) (live : List (Nat × Quad)) : Nat :=
  let m := live.foldl (fun m p => Nat.lcm m (max 1 (partKey e p.2).2)) 1
  1200 * max 1 (min pace 1040) * m * m

/-- The feeders of an item among those given. -/
def feedersIn (live : List (Nat × Quad)) (i : Nat) : List (Nat × Quad) :=
  live.filter fun p => dKind p.2 == 3 && dFeeder p.2 && dFed p.2 == i

/-- A table by partition name. -/
abbrev Loads := List (List Nat × Nat)
def loadOf (l : Loads) (k : List Nat) : Nat := ((l.find? fun p => p.1 == k).map (·.2)).getD 0
def addLoad (l : Loads) (k : List Nat) (v : Nat) : Loads :=
  if l.any (fun p => p.1 == k) then l.map fun p => if p.1 = k then (k, p.2 + v) else p else l ++ [(k, v)]

/-- L_p of every partition (R63): those of the cells come last, with the hold of fed items. -/
def loads (e : Engine) (g : Graph) (pace q : Nat) (live : List (Nat × Quad)) : Loads :=
  let share := fun (l : Loads) (p : Nat × Quad) (w : Nat) =>
    let k := partKey e p.2
    addLoad l k.1 (w / max 1 k.2)
  let l := (live.filter fun p => dKind p.2 != 0).foldl (fun l p => share l p (itemTime e g pace q p.2)) []
  (live.filter fun p => dKind p.2 == 0).foldl (fun l' p =>
    let h := (feedersIn live p.1).foldl (fun m f => max m (60 * q + itemTime e g pace q f.2 + loadOf l (partKey e f.2).1)) 0
    share l' p (itemTime e g pace q p.2 + h)) l

/-! ### The bound (R63, R384) -/

/-- Edges of the successor chains among live items. -/
def graphEdges (g : Graph) (live : List (Nat × Quad)) : List (Nat × Nat) :=
  live.flatMap fun p => (succsOf g p.2).filterMap fun j => if live.any (fun x => x.1 == j) then some (p.1, j) else none

/-- The source carries what a fabric receive channel brings. -/
def isFabSource (s : Nat) : Bool := decide (0x1800 ≤ s) && decide (s < 0x2000)

/-- The item reads a fabric receive source directly (R384). -/
def readsFabric (e : Engine) (g : Graph) (d : Quad) : Bool :=
  match dKind d with
  | 1 => (busesOf d).any fun b => (tget [] g.sends b).any (fun w => isFabSource (sendSrc w)) || isFabSource (routedTo (getSink e (0x3000 + b)))
  | 2 => isFabSource (routedTo (getSink e (0x3100 + dAffinity d % 256)))
  | 3 => (transfersIn g d).any fun x => xBind x != 2 && decide (0x20300000 ≤ xSrc x) && decide (xSrc x < 0x20400000)
  | 4 => (meteredSources e).any isFabSource || (tapsWith routedTo e).any fun t => isFabSource (routedTo (getSink e t))
  | _ => false

/-- r_l of the UP link of highest delay, in units of 1/q ns; the delay register counts 0.1 ns. -/
def fabRelease (e : Engine) (q : Nat) : Nat :=
  let d := (allLinks.filter (linkUp e)).foldl (fun m l => max m (getF .FAB_LINK_DLY_DLY l e)) 0
  (900 * q + d * q / 10 + 2048 * frameLen e * 68 * q / 100) - 4000 * q

/-- e(i) of the items of a node whose predecessors are all done. -/
def nodeFinish (e : Engine) (g : Graph) (pace q : Nat) (live : List (Nat × Quad)) (l : Loads) (edges : List (Nat × Nat))
    (done : Table (Option Nat)) (p : Nat × Quad) : Option (List (Nat × Nat)) :=
  let fs := feedersIn live p.1
  let preds := fun i : Nat => (edges.filter fun x => x.2 == i).map (·.1)
  let all := preds p.1 ++ fs.flatMap fun f => preds f.1
  if all.any fun j => (tget none done j).isNone then none
  else
    let at_ := fun j : Nat => (tget none done j).getD 0
    let part := fun d : Quad => (partKey e d).1
    let t := fun d : Quad => itemTime e g pace q d
    let rl := fun x : Nat × Quad => if (preds x.1).isEmpty && readsFabric e g x.2 then fabRelease e q else 0
    if fs.isEmpty then
      if all.isEmpty then some [(p.1, rl p + t p.2 + loadOf l (part p.2))]
      else
        let from_ := all.map fun j =>
          let dj := tget Quad.zero g.items j
          at_ j + 60 * q + t p.2 + (if part dj = part p.2 then 0 else loadOf l (part p.2))
        some [(p.1, from_.foldl max 0)]
    else
      let r := (fs.map rl).foldl max ((all.map fun j => at_ j + 60 * q).foldl max 0)
      let ends := fs.map fun f => (f.1, r + loadOf l (part p.2) + 60 * q + t f.2 + loadOf l (part f.2))
      some ((p.1, (ends.map (·.2)).foldl max 0 + 60 * q + t p.2) :: ends)

/-- Rounds over the nodes that remain, until none can be done. -/
def finishAll (e : Engine) (g : Graph) (pace q : Nat) (live : List (Nat × Quad)) (l : Loads) (edges : List (Nat × Nat)) :
    Nat → List (Nat × Quad) → Table (Option Nat) → List (Nat × Quad) × Table (Option Nat)
  | 0, rest, done => (rest, done)
  | n + 1, rest, done =>
    match rest.find? fun p => (nodeFinish e g pace q live l edges done p).isSome with
    | none => (rest, done)
    | some p =>
      let new := (nodeFinish e g pace q live l edges done p).getD []
      finishAll e g pace q live l edges n (rest.filter (· != p)) (new.foldl (fun d x => tput none d x.1 (some x.2)) done)

/-- The nodes of the dependence graph: the live items that are not feeders of a live item. -/
def graphNodes (live : List (Nat × Quad)) : List (Nat × Quad) :=
  live.filter fun p => !(dKind p.2 == 3 && dFeeder p.2 && live.any fun x => x.1 == dFed p.2)

/-- B in units of 1/q ns; none when the graph has a cycle. -/
def boundOf (e : Engine) (g : Graph) (pace q : Nat) (live : List (Nat × Quad)) (l : Loads) : Option Nat :=
  let nodes := graphNodes live
  let r := finishAll e g pace q live l (graphEdges g live) nodes.length nodes []
  if r.1.isEmpty then some (r.2.foldl (fun m p => max m (p.2.getD 0)) 0) else none

/-! ### The QUEUE test (R172) -/

/-- A successor chain runs through defined entries, visits none twice, and ends. -/
def chainOk (g : Graph) : Nat → List Nat → Nat → Bool
  | 0, _, _ => false
  | n + 1, seen, x =>
    match tget none g.succs x with
    | none => false
    | some s => !seen.contains x && (match s.next with | some y => chainOk g n (x :: seen) y | none => true)

/-- The same of a transfer chain. -/
def xferOk (g : Graph) : Nat → List Nat → Nat → Bool
  | 0, _, _ => false
  | n + 1, seen, x =>
    match tget none g.xfers x with
    | none => false
    | some t => !seen.contains x && (xLast t || xferOk g n (x :: seen) (xNext t))

/-- Feeds based on a bus. -/
def feedsOn (e : Engine) (b : Nat) : List MinusFeed :=
  e.mix.feeds.filterMap fun p => match p.2 with | some f => if f.bus = b then some f else none | none => none

/-- The work of a summing item in passes (R208). -/
def summingWork (e : Engine) (g : Graph) (d : Quad) : Nat :=
  (busesOf d).foldl (fun s b =>
    let l := tget [] g.sends b
    s + l.length + 4 + (feedsOn e b).foldl (fun s f =>
      s + 1 + (l.filter fun w => sendSrc w == f.excl).length + (if f.talk = 0x3FFF then 0 else 1)) 0) 0

/-- The work of a bridge item in output samples (Table 6.7). -/
def bridgeWork (e : Engine) (d : Quad) : Nat :=
  let ch := dAffinity d % 256
  let f := frameLen e
  match getF .ROUTE_BRCFG_KIND ch e with
  | 1 => 2 * f
  | 3 => 4 * f
  | 6 => ceilDiv (1002 * f * nomHz (getF .ROUTE_FN_CFG_NOM (getF .ROUTE_BRCFG_FN ch e) e)) (1000 * houseHz e)
  | _ => f

/-- The work of the metering item (R246), over the sources that the taps are routed to. -/
def meteringWork (e : Engine) : Nat :=
  let chans := (loudMeters e).foldl (fun s p => s + popcount p.2.mask 8) 0
  let gens := (e.mix.gens.filter fun p => match p.2 with | some g => g.on && g.mode != 0 | none => false).length
  (meteredSources e).length + (tapsWith routedTo e).length + 4 * chans + 4 * gens

/-- Every point of R172 over the whole graph; points 6 and 8 over the items in service. -/
def queueOk (e : Engine) (g : Graph) (live : List (Nat × Quad)) : Bool :=
  let all := g.items
  let valid := fun i : Nat => dValid (tget Quad.zero g.items i)
  let succ := all.flatMap fun p => succsOf g p.2
  decide (all.length ≤ 16384) && (all.all fun p => dValid p.2)
  && (all.all fun p => !dSValid p.2 || chainOk g 4097 [] (dSucc p.2))
  && (all.all fun p => dKind p.2 != 3 || xferOk g 8193 [] (dEntry p.2 % 8192))
  && (all.all fun p => dDeps p.2 == (succ.filter (· == p.1)).length)
  && (all.all fun p => dKind p.2 != 0 || dFeeds p.2 == (feedersIn all p.1).length)
  && (all.all fun p => dKind p.2 != 3 || (transfersIn g p.2).all fun x =>
        (xBind x != 1 || (dFeeder p.2 && valid (dFed p.2) && dKind (tget Quad.zero g.items (dFed p.2)) == 0))
        && (xBind x != 2 || (valid (xNamed x) && dKind (tget Quad.zero g.items (xNamed x)) == 0
              && (succsOf g (tget Quad.zero g.items (xNamed x))).contains p.1)))
  && (all.all fun p => dKind p.2 != 3 || !dFeeder p.2 || (valid (dFed p.2) && dKind (tget Quad.zero g.items (dFed p.2)) == 0))
  && (all.all fun p => match dKind p.2 with
        | 1 => dBudget p.2 == summingWork e g p.2
        | 2 => dBudget p.2 == bridgeWork e p.2
        | 3 => decide (((transfersIn g p.2).map xLen).foldl (· + ·) 0 ≤ dBudget p.2)
        | 4 => dBudget p.2 == meteringWork e
        | _ => true)
  && (live.all fun p => match dKind p.2 with
        | 0 | 1 | 3 => !(partOf e p.2).isEmpty
        | _ => true)
  && succ.all valid

/-! ### Affinity and the other tests of Table 2.5 -/

/-- The executors that a mask names. -/
def maskMeets (k a b : Nat) : Bool :=
  if k = 0 then (List.range 32).any fun j => a / 2 ^ j % 2 == 1 && b / 2 ^ j % 2 == 1
  else a % 4 == 0 || b % 4 == 0

/-- R62: two masks of one kind are equal or disjoint. -/
def affinityOk (g : Graph) : Bool :=
  [0, 3].all fun k =>
    let ms := ((g.items.filter fun p => dKind p.2 == k).map fun p => dAffinity p.2).eraseDups
    ms.all fun a => ms.all fun b => a == b || !maskMeets k a b

/-- DDR_BW: DRAM bytes of the frame and the host's reservation `mb` in MB/s against 9.6 GB/s, binary multiples (R9, R64, R442). -/
def ddrOk (e : Engine) (g : Graph) (live : List (Nat × Quad)) (mb : Nat) : Bool :=
  let t : Nat × Nat := tAdm e
  let bytes : Nat := (live.filter fun p => dKind p.2 == 3).foldl (fun (s : Nat) (p : Nat × Quad) => s + dramBytes g p.2) 0
  -- bytes / T + mb 2^20 / 10^9 ≤ 9.6 2^30 / 10^9 U, T = t.1 / t.2 ns
  decide (10000000000000 * (bytes * t.2) + 10000 * (1048576 * mb * t.1) ≤ 96 * 1073741824 * t.1 * getF .SCHED_ADM_CFG_UMAX 0 e)

/-- Active send gain points of a graph. -/
def activeGps (g : Graph) : List Nat := g.sends.foldl (fun l p => p.2.foldl (fun l w => insertNat (sendGp w) l) l) []

def sendsOk (e : Engine) (g : Graph) : Bool :=
  decide ((activeGps g).length ≤ if 2 ≤ getF .SYS_FRAME_CFG_RATE 0 e then 524288 else 1048576)

/-- FABRIC (R384): with no fabric transmit sink routed the test has nothing to find. -/
def fabricOk (e : Engine) : Bool :=
  let used := e.mix.sinks.filter fun p => decide (0x1800 ≤ p.1) && decide (p.1 < 0x2000) && routedTo p.2 != 0x3FFF
  used.all (fun p => inFab e && isF .FAB_TXSTAT_RES (p.1 - 0x1800) e)

/-! ### Dependence of signals, and cycles (R59) -/

/-- The buses that the graph's summing items name. -/
def namedBuses (g : Graph) : List Nat := (g.items.filter fun p => dKind p.2 == 1).flatMap fun p => busesOf p.2

/-- What a signal depends on within a frame. A source is at its number, a sink at its number + 0x10000. `routes` are the sinks and `sends` the
send entries (bus · 2^20 + index) whose edges count. -/
def signalDeps (e : Engine) (g : Graph) (routes sends : List Nat) (key : Nat) : List Nat :=
  let bus := fun b : Nat => if (namedBuses g).contains b then
      ((tget [] g.sends b).zipIdx.filter fun w => sends.contains (2 ^ 20 * b + w.2)).map (fun w => sendSrc w.1) ++ [0x13000 + b] else []
  if 0x10000 ≤ key then (if routes.contains (key - 0x10000) then [routedTo (getSink e (key - 0x10000))] else [])
  else if 0x2000 ≤ key ∧ key < 0x3000 then [0x10000 + key]
  else if 0x3000 ≤ key ∧ key < 0x3100 then bus (key - 0x3000)
  else if 0x3100 ≤ key ∧ key < 0x3200 then [0x10000 + key]
  else if 0x3220 ≤ key ∧ key < 0x3300 then
    match tget none e.mix.feeds (key - 0x3220) with
    | some f => bus f.bus ++ [f.talk]
    | none => []
  else []

/-- `goal` is reached from the keys on the stack. -/
def reaches (deps : Nat → List Nat) (goal : Nat) : Nat → List Nat → List Nat → Bool
  | 0, _, _ => false
  | _ + 1, _, [] => false
  | n + 1, seen, k :: rest =>
    if k = goal then true
    else if seen.contains k then reaches deps goal n seen rest
    else reaches deps goal n (k :: seen) (deps k ++ rest)

/-- The edges that close a cycle: sends in ascending bus and position first, then routes in ascending sink number, each tested against those
before it that close none. The answer is the send entries and the sinks whose edges close a cycle. -/
def cycleEdges (e : Engine) (g : Graph) : List Nat × List Nat :=
  let fuel := 200000
  let all := g.sends.flatMap fun p => p.2.zipIdx.map fun w => (2 ^ 20 * p.1 + w.2, 0x3000 + p.1, sendSrc w.1)
  let s := all.foldl (fun (a : List Nat × List Nat) w =>
    if reaches (signalDeps e g [] a.1) w.2.1 fuel [] [w.2.2] then (a.1, a.2 ++ [w.1]) else (a.1 ++ [w.1], a.2)) ([], [])
  let r := (e.mix.sinks.filter fun p => routedTo p.2 != 0x3FFF).foldl (fun (a : List Nat × List Nat) p =>
    if reaches (signalDeps e g a.1 s.1) (0x10000 + p.1) fuel [] [routedTo p.2] then (a.1, a.2 ++ [p.1]) else (a.1 ++ [p.1], a.2)) ([], [])
  (s.2, r.2)

/-- The routes that close a cycle in the frame that starts, and the previous frame of the signals that strips read through them (R59). -/
def markCycles (e : Engine) : Engine :=
  if (e.mix.sinks.any fun p => isStripSource p.1 && routedTo p.2 != 0x3FFF) && !(namedBuses e.sched.adm).isEmpty then
    let cyc := (cycleEdges e e.sched.adm).2
    let read := (cyc.filter isStripSource).flatMap fun t => let k := getSink e t; [k.cur, k.out, k.fb, k.carry, routedTo k]
    { e with mix := { e.mix with cyc := cyc, prevSig := read.foldl (fun t s => tput [] t s (getSig e s)) [] } }
  else { e with mix := { e.mix with cyc := [], prevSig := [] } }

/-! ### Latency and alignment (R56–R60) -/

/-- The paths from one external source, as the ledger sums them up: lowest and highest latency without 2F and O, and the marks. -/
structure Lat where
  src : Nat
  lo : Nat
  hi : Nat
  cyc : Bool
  asrc : Bool
  hops : Nat
  deriving DecidableEq, Repr

/-- Adds a path summary to those of other sources. -/
def mergeLat (l : List Lat) (x : Lat) : List Lat :=
  if l.any (fun y => y.src == x.src) then
    l.map fun y => if y.src = x.src then
      { y with lo := min y.lo x.lo, hi := max y.hi x.hi, cyc := y.cyc || x.cyc, asrc := y.asrc || x.asrc, hops := max y.hops x.hops } else y
  else l ++ [x]

def mergeAll (ls : List (List Lat)) : List Lat := ls.flatten.foldl mergeLat []

def shiftLat (n : Nat) (l : List Lat) : List Lat := l.map fun x => { x with lo := x.lo + n, hi := x.hi + n }

/-- D × P of a network receive channel in house samples (Table 2.3); between whole samples the spec names no rounding. -/
def netDelay (e : Engine) (c : Nat) : Nat :=
  match (rxRecs e).find? fun r => recEn r && decide (recFirst r ≤ c) && decide (c < recFirst r + recChans r) with
  | some r =>
    let n := recD r * recP r * houseHz e
    let v := n / recHz r
    if n % recHz r = 0 then v else (clamp v (v + 1 : Nat) (within 15 n v 1)).toNat
  | none => 0

/-- The terms of an external source: I and the hops (Table 2.3, R383); none for a source that is not external or carries silence. -/
def sourceTerm (e : Engine) (s : Nat) : Option (Nat × Nat) :=
  if s < 0x1000 then (if (rxRecs e).any fun r => recEn r && decide (recFirst r ≤ s) && decide (s < recFirst r + recChans r) then some (netDelay e s, 0) else none)
  else if s < 0x1520 then some (2, 0)
  else if s < 0x1540 then some (if getF .PORT_PDMCFG_MINPH ((s - 0x1520) / 4) e = 1 then 5 else 12, 0)
  else if isFabSource s then (if isF .FAB_RXSTAT_STATE (s - 0x1800) e then some (0, getF .FAB_RXSTAT_LP (s - 0x1800) e) else none)
  else if 0x3200 ≤ s ∧ s < 0x3220 then (if (tget none e.mix.gens (s - 0x3200)).isSome then some (0, 0) else none)
  else none

/-- The lookahead of a bus's limiter, from the next `ADMIT` (R218). -/
def lookOf (e : Engine) (b : Nat) : Nat :=
  if isF .SUM_BUSCFG_LIM_EN b e then [0, 16, 48].getD (getF .SUM_BUSCFG_LOOK b e) 0 else 0

/-- Largest value of a list. -/
def maxOf (l : List Nat) : Nat := l.foldl max 0

/-- The alignment delays of a bus's sends from the latencies at their sources (R60, R195). -/
def alignOf (mode : Nat) (ws : List Word64) (ls : List (List Lat)) : List Nat :=
  let arr := ls.map fun l => maxOf (l.map (·.hi))
  match mode with
  | 1 => let top := maxOf arr
         List.zipWith (fun l a => if l.isEmpty then 0 else top - a) ls arr
  | 2 => ws.map sendAlign
  | _ => ws.map fun _ => 0

/-- What the ledger is formed from. -/
structure LatCtx where
  e : Engine
  g : Graph
  cycS : List Nat
  cycR : List Nat

/-- The paths that reach a signal. `used` are the cycle edges crossed: a path crosses each at most once. -/
def latOf (x : LatCtx) : Nat → List Nat → Nat → List Lat
  | 0, _, _ => []
  | n + 1, used, key =>
    let f := frameLen x.e
    let edge := fun (id : Nat) (cyc : Bool) (s : Nat) =>
      if !cyc then latOf x n used s
      else if used.contains id then []
      else (shiftLat f (latOf x n (id :: used) s)).map fun l => { l with cyc := true }
    if 0x10000 ≤ key then
      let t := key - 0x10000
      edge key (x.cycR.contains t) (routedTo (getSink x.e t))
    else if key = 0x3FFF then []
    else if 0x2000 ≤ key ∧ key < 0x3000 then latOf x n used (0x10000 + key)
    else if 0x3100 ≤ key ∧ key < 0x3200 then
      let kind := getF .ROUTE_BRCFG_KIND (key - 0x3100) x.e
      let l := latOf x n used (0x10000 + key)
      if kind = 1 ∨ kind = 2 then shiftLat 16 l
      else if kind = 3 ∨ kind = 4 then shiftLat 20 l
      else (shiftLat 64 l).map fun y => { y with asrc := true }
    else
      let sends := fun (b excl : Nat) =>
        let ws := tget [] x.g.sends b
        let ls := ws.zipIdx.map fun w => let id := 2 ^ 20 * b + w.2; edge (0x1000000 + id) (x.cycS.contains id) (sendSrc w.1)
        let al := alignOf (tget 0 x.g.align b) ws ls
        let pick := (List.zipWith (fun w p => (w, p)) ws (List.zipWith (fun l a => shiftLat a l) ls al)).filter fun p => sendSrc p.1 != excl
        mergeAll (pick.map (·.2) ++ [latOf x n used (0x13000 + b)])
      if 0x3000 ≤ key ∧ key < 0x3100 then
        let b := key - 0x3000
        if (namedBuses x.g).contains b then shiftLat (lookOf x.e b) (sends b 0x10000) else []
      else if 0x3220 ≤ key ∧ key < 0x3300 then
        match tget none x.e.mix.feeds (key - 0x3220) with
        | some fd => if (namedBuses x.g).contains fd.bus then mergeAll [sends fd.bus fd.excl, latOf x n used fd.talk] else []
        | none => []
      else
        match sourceTerm x.e key with
        | some (i, h) => [{ src := key, lo := i + h * f, hi := i + h * f, cyc := false, asrc := false, hops := h }]
        | none => []

def latFuel : Nat := 4096

def latCtx (e : Engine) (g : Graph) : LatCtx := let c := cycleEdges e g; { e := e, g := g, cycS := c.1, cycR := c.2 }

/-- The alignment delays of every bus of the graph, by bus (R60). -/
def alignTable (x : LatCtx) : Table (List Nat) :=
  x.g.sends.filterMap fun p =>
    if (namedBuses x.g).contains p.1 then
      let ls := p.2.zipIdx.map fun w =>
        let id := 2 ^ 20 * p.1 + w.2
        if x.cycS.contains id then shiftLat (frameLen x.e) (latOf x latFuel [0x1000000 + id] (sendSrc w.1)) else latOf x latFuel [] (sendSrc w.1)
      some (p.1, alignOf (tget 0 x.g.align p.1) p.2 ls)
    else some (p.1, p.2.map fun _ => 0)

/-- O of an output sink (Table 2.3); none for a sink that ends no path. -/
def sinkTerm (t : Nat) : Option Nat :=
  if t < 0x1000 then some 0 else if t < 0x1520 then some 2 else if isFabSource t then some 0 else none

/-- The ledger detail of one sink (R67, Table 8.7): its contributing sources, with their whole latency. -/
def sinkLedger (x : LatCtx) (t : Nat) : List Lat :=
  match sinkTerm t with
  | some o => shiftLat (2 * frameLen x.e + o) (latOf x latFuel [] (0x10000 + t))
  | none => []

/-- One word of the ledger (Table 8.8). -/
def ledgerWord (t : Nat) (l : List Lat) : Word64 :=
  let lo := l.foldl (fun m y => min m y.lo) (2 ^ 16 - 1)
  BitVec.ofNat 64 (2 ^ 48 * t + 2 ^ 32 * (lo % 65536) + 2 ^ 16 * (maxOf (l.map (·.hi)) % 65536) + 2 ^ 15 * (l.any (·.cyc)).toNat
    + 2 ^ 14 * (l.any (·.asrc)).toNat + 2 ^ 8 * (maxOf (l.map (·.hops)) % 64))

def ledgerOf (x : LatCtx) : List Word64 :=
  x.e.mix.sinks.filterMap fun p => let l := sinkLedger x p.1; if l.isEmpty then none else some (ledgerWord p.1 l)

/-! ### Resources (R196, R207, R210, R267, R420) -/

/-- The least power of two that is at least `n`. -/
def pow2Up (n : Nat) : Nat := if n ≤ 1 then 1 else 2 ^ (Nat.log2 (n - 1) + 1)

/-- Places blocks (size and alignment in bytes) in areas (base and size), in order, region 0 first; none when they do not fit. -/
def placeBlocks : List (Nat × Nat) → List (Nat × Nat) → Nat → Nat → Option (List Nat)
  | [], _, _, _ => some []
  | b :: bs, areas, r, at_ =>
    -- the first region from `r` with room
    let spot := (List.range 4).findSome? fun k =>
      let q := r + k
      match areas[q]? with
      | some a =>
        let p := ceilDiv (if k = 0 then max at_ a.1 else a.1) b.2 * b.2
        if p + b.1 ≤ a.1 + a.2 then some (q, p) else none
      | none => none
    match spot with
    | some (q, p) => (placeBlocks bs areas q (p + b.1)).map (p :: ·)
    | none => none

def areaOf (base size : Fld) (e : Engine) (r : Nat) (k : Nat) : Nat × Nat := (0x800000 * r + getF base r e, k * getF size r e)
def dlyAreas (e : Engine) : List (Nat × Nat) := [0, 1, 2, 3].map fun r => areaOf .ROUTE_DLY_BASE_BASE .ROUTE_DLY_SIZE_SIZE e r 1
def mixAreas (e : Engine) : List (Nat × Nat) := [0, 1, 2, 3].map fun r => areaOf .SUM_MIX_BASE_BASE .SUM_MIX_SIZE_SIZE e r 1

/-- Largest A of each source with a delayed send. -/
def delayed (g : Graph) (al : Table (List Nat)) : Table Nat :=
  g.sends.foldl (fun t p => (List.zipWith (fun w a => (sendSrc w, a)) p.2 (tget [] al p.1)).foldl (fun t x =>
    if x.2 = 0 ∨ x.1 = 0x3FFF then t else tput 0 t x.1 (max x.2 (tget 0 t x.1))) t) []

/-- The delay rings: source, engine address and words (R196). -/
def ringsOf (e : Engine) (g : Graph) (al : Table (List Nat)) : Option (Table (Nat × Nat)) :=
  let d := delayed g al
  let sizes := d.map fun p => let b := 4 * pow2Up (p.2 + frameLen e); (b, b)
  (placeBlocks sizes (dlyAreas e) 0 0).map fun ps =>
    List.zipWith (fun (s : Nat × Nat) (p : Nat × (Nat × Nat)) => (s.1, (0x10000000 + p.1, p.2.1 / 4))) d (List.zipWith (fun a b => (a, b)) ps sizes)

/-- Sizes of the send lists and their gain points, by bus (R210). -/
def mixSizes (g : Graph) : List (Nat × Nat) :=
  (g.sends.foldl (fun (a : List (Nat × Nat) × List Nat) p =>
    let gps := p.2.foldl (fun l w => if a.2.contains (sendGp w) then l else insertNat (sendGp w) l) []
    (a.1 ++ [(8 * p.2.length + 8 * gps.length, 8)], a.2 ++ gps)) ([], [])).1

/-- Where the send list and the gain points of each bus lie: engine address and bytes (R210). -/
def mixPlaces (e : Engine) (g : Graph) : Table (Nat × Nat) :=
  let s := mixSizes g
  match placeBlocks s (mixAreas e) 0 0 with
  | some ps => List.zipWith (fun (p : Nat × List Word64) (x : Nat × Nat) => (p.1, (0x10000000 + x.1, x.2))) g.sends
      (List.zipWith (fun a (b : Nat × Nat) => (a, b.1)) ps s)
  | none => []

def overlap (a b : Nat × Nat) : Bool := a.2 != 0 && b.2 != 0 && decide (a.1 < b.1 + b.2) && decide (b.1 < a.1 + a.2)

/-- The areas of a region lie apart. -/
def areasApart (e : Engine) : Bool :=
  [0, 1, 2, 3].all fun r =>
    let dly := areaOf .ROUTE_DLY_BASE_BASE .ROUTE_DLY_SIZE_SIZE e r 1
    let mix := areaOf .SUM_MIX_BASE_BASE .SUM_MIX_SIZE_SIZE e r 1
    let par := areaOf .HOST_PARAM_BASE_BASE .HOST_PARAM_SIZE_SIZE e r 2
    let pair := areaOf .PAIR_STATE_BASE_BASE .PAIR_STATE_SIZE_SIZE e r 2
    !overlap mix dly && !overlap par dly && !overlap par mix && !overlap pair dly && !overlap pair mix && !overlap pair par

/-- The resource status of a graph, 0 when everything fits. -/
def resourceOf (e : Engine) (g : Graph) (al : Table (List Nat)) : Nat :=
  let named := namedBuses g
  if (ringsOf e g al).isNone then 0x0404
  else if (placeBlocks (mixSizes g) (mixAreas e) 0 0).isNone || !areasApart e then 0x0405
  else if named.eraseDups.length ≠ named.length then 0x0406
  else 0

/-! ### The run (R64, R65, R67) -/

/-- The result of an admission run. -/
structure AdmRes where
  status : Nat
  mask : Nat
  /-- B and the largest share, as the registers and the result buffer show them. -/
  b : Nat
  part : Nat
  share : Nat
  /-- The graph as admitted: alignment delays, limiters and rings in place. -/
  graph : Graph
  ledger : List Word64
  deriving DecidableEq, Repr

/-- WINDOW, SHARE and QUEUE: the tests that capacity and rate decide (R73), as a mask, with B and the loads. -/
def capTests (e : Engine) (g : Graph) (pace : Nat) (out : List Nat) : Nat × Option Nat × Loads × Nat :=
  let live := liveItems g out
  let q := admUnit e pace live
  let l := loads e g pace q live
  let b := boundOf e g pace q live l
  let w := admWindow e
  let late := match b with | some v => decide (w * q < v) | none => false
  let past := l.any fun p => decide (getF .SCHED_ADM_CFG_UMAX 0 e * w * q < 1000 * p.2)
  (late.toNat + 2 * past.toNat + 128 * (b.isNone || !queueOk e g live).toNat, b, l, q)

/-- The partition of the largest load. -/
def worstLoad : Loads → Option (List Nat × Nat)
  | [] => none
  | p :: t => match worstLoad t with
    | some x => if p.2 < x.2 then some x else some p
    | none => some p

/-- PART of a partition: kind, and region or unit (Table 2.11). The table gives no index for a DMA partition: a free value. -/
def partCode (k : List Nat) (free : Nat) : Nat :=
  match k with
  | [0, a] => Nat.log2 (max 1 a) / 8
  | [3, _] => 3 * 512 + free % 512
  | [k, u] => k * 512 + u % 512
  | _ => 0

/-- The lowest bit set of a mask, as a test code. -/
def firstTest (mask : Nat) : Nat := (((List.range 8).find? fun j => mask / 2 ^ j % 2 == 1).map (· + 1)).getD 0

/-- The number a/b as a field: a whole number, or at a fraction the one below or above, as `free` says (the spec names no rounding). -/
def roundFree (a b free : Nat) : Nat := if a % b = 0 then a / b else a / b + free % 2

/-- B, and the partition and share of the largest load, of a test run as the registers of Table 2.11 hold them; `f` decides what the spec
leaves open. -/
def runFields (e : Engine) (c : Nat × Option Nat × Loads × Nat) (f : Nat) : Nat × Nat × Nat :=
  let w := worstLoad c.2.2.1
  let q := c.2.2.2
  (match c.2.1 with | some b => min (roundFree b q f) (2 ^ 32 - 1) | none => f % 2 ^ 32,
   match w with | some p => partCode p.1 (f / 4 % 512) | none => 0,
   match w with | some p => min 1023 (roundFree (1000 * p.2) (max 1 (q * admWindow e)) (f / 2)) | none => 0)

/-- The registers show an admission run (Table 2.11). -/
def showFields (r : Nat × Nat × Nat) (e : Engine) : Engine :=
  setF .SCHED_ADM_BOUND_BOUND 0 r.1 (setF .SCHED_ADM_WORST_PART 0 r.2.1 (setF .SCHED_ADM_WORST_SHARE 0 r.2.2 e))

/-- A run over the admitted graph less the items in `out`, in capacity and rate alone (R22, R73, R74): it is the last admission run. -/
def showTests (pace : Nat) (out : List Nat) (e : Engine) : Engine :=
  let f := takeFree e
  showFields (runFields e (capTests e e.sched.adm pace out) f.1.toNat) f.2

/-- The areas of region SRAM that the new graph uses. -/
def takeAreas (e : Engine) : Table Nat :=
  [0, 1, 2, 3].foldl (fun t r =>
    ([Fld.HOST_PARAM_BASE_BASE, .HOST_PARAM_SIZE_SIZE, .PAIR_STATE_BASE_BASE, .PAIR_STATE_SIZE_SIZE, .SUM_MIX_BASE_BASE, .SUM_MIX_SIZE_SIZE].zipIdx).foldl
      (fun t p => tput 0 t (r + 4 * p.2) (getF p.1 r e)) t) []

/-- Tests the graph at the floor rate with the host's DRAM reservation (R64, R65). -/
def admitRun (e : Engine) (g : Graph) (mb : Nat) : AdmRes × Engine :=
  let f := takeFree e
  let e' := f.2
  let c := capTests e g 1040 []
  let x := latCtx e g
  let al := alignTable x
  let mask := c.1 + 4 * (!affinityOk g).toNat + 8 * (!ddrOk e g (liveItems g []) mb).toNat + 16 * (!sendsOk e g).toNat
    + 32 * (!fabricOk e).toNat + 64 * (al.any fun p => p.2.any fun a => decide (4095 < a)).toNat
  let res := resourceOf e g al
  let status := if res ≠ 0 then res else if mask = 0 then 0 else 0x0200 + firstTest mask
  let n := runFields e c f.1.toNat
  let sends := g.sends.map fun p => (p.1, List.zipWith (fun (v : Word64) a => BitVec.ofNat 64 (v.toNat - 2 ^ 36 * sendAlign v + 2 ^ 36 * (a % 4096))) p.2 (tget [] al p.1))
  let lim := (namedBuses g).foldl (fun t b => tput 0 t b (if isF .SUM_BUSCFG_LIM_EN b e then lookOf e b + 1 else 0)) []
  ({ status := status, mask := mask,
     b := n.1, part := n.2.1, share := n.2.2
     graph := { g with sends := sends, lim := lim, rings := (ringsOf e g al).getD [], mixAt := mixPlaces e g, areas := takeAreas e }
     ledger := ledgerOf x }, e')

/-- The registers of the last run (Table 2.11). -/
def showRun (r : AdmRes) (e : Engine) : Engine := showFields (r.b, r.part, r.share) e

/-! ### The swap of graphs (R196, R197, R218, R261) -/

/-- The sends of a list that the k-th send with this SRC and GP continues: its index in the old list. -/
def continued (old new : List Word64) (i : Nat) : Option Nat :=
  let w := new.getD i 0
  let same := fun (v : Word64) => sendSrc v == sendSrc w && sendGp v == sendGp w
  let k := ((new.take i).filter same).length
  (((old.zipIdx).filter fun p => same p.1)[k]?).map (·.2)

/-- The tap moves of the sends whose A changes (R197); a move that still runs on a continued send goes on, and one that a further change of A
meets starts anew from the tap that it was moving to (DESIGN CHOICE, log 138). -/
def tapMoves (old new : Graph) (runs : Table TapMove) : Table TapMove :=
  new.sends.foldl (fun t p =>
    let ol := tget [] old.sends p.1
    (List.range p.2.length).foldl (fun t i =>
      match continued ol p.2 i with
      | some j =>
        let a := sendAlign (ol.getD j 0)
        let still : TapMove := { old := 0, pos := 32 }
        if a = sendAlign (p.2.getD i 0) then tput still t (2 ^ 20 * p.1 + i) (tget still runs (2 ^ 20 * p.1 + j))
        else tput still t (2 ^ 20 * p.1 + i) { old := a, pos := 0 }
      | none => t) t) []

/-- The new rings hold the most recent samples that the old ones held (R196); `x` is the first house sample of the frame that starts. -/
def carryRings (old new : Graph) (x : Nat) (e : Engine) : Engine :=
  let words := new.rings.flatMap fun p =>
    let o := tget (0, 0) old.rings p.1
    (List.range p.2.2).map fun j =>
      let v := if j < o.2 ∧ j < x then read32 e (o.1 + 4 * ((x - 1 - j) % o.2)) else 0
      (p.2.1 + 4 * ((x + p.2.2 - 1 - j) % p.2.2), v)
  words.foldl (fun e w => store w.1 (leBytes w.2 4) e) e

/-- Limiters across a swap: one that stays enabled keeps g and crossfades a changed lookahead; one that starts has g at 1 (R217, R218). -/
def carryLims (old new : Graph) (l : Table Limiter) : Table Limiter :=
  ((old.lim.map (·.1)) ++ (new.lim.map (·.1))).eraseDups.foldl (fun t b =>
    let a := tget 0 old.lim b
    let n := tget 0 new.lim b
    let m := tget Limiter.off t b
    if n = 0 then t
    else if a = 0 then tput Limiter.off t b { m with g := 2 ^ 48, xpos := 32 }
    else if a = n then t
    else tput Limiter.off t b { m with oldLook := a - 1, xpos := 0 }) l

/-- `SYS_PACE_STAT.SHED_ITEMS` and `SHED_CLASSES`. -/
def refreshShed (e : Engine) : Engine :=
  let cls := e.sched.shed.foldl (fun m i => setBit m (dPrio (admItem e i)) true) 0
  setF .SYS_PACE_STAT_SHED_ITEMS 0 e.sched.shed.length (setF .SYS_PACE_STAT_SHED_CLASSES 0 cls e)

/-- A signal that the new graph goes on delivering: the output of a bus, feed or bridge channel that it names, or of an item that it keeps; all
others fall silent (R207). Signals that no item delivers are not its concern. -/
def staysOn (e : Engine) (g : Graph) (kept : Table (Option (List Nat))) (s : Nat) : Bool :=
  if isStripSource s then kept.any fun p => (p.2.getD []).contains s
  else if 0x3000 ≤ s ∧ s < 0x3100 then (namedBuses g).contains (s - 0x3000)
  else if 0x3100 ≤ s ∧ s < 0x3200 then g.items.any fun p => dKind p.2 == 2 && dAffinity p.2 % 256 == s - 0x3100
  else if 0x3220 ≤ s ∧ s < 0x3300 then
    match tget none e.mix.feeds (s - 0x3220) with
    | some f => (namedBuses g).contains f.bus
    | none => false
  else true

/-- The accepted graph replaces the admitted one at the tick. -/
def swapGraph (g : Graph) (e : Engine) : Engine :=
  let old := e.sched.adm
  let e := carryRings old g e.sample e
  let kept := e.sched.outs.filter fun p => decide (tget Quad.zero old.items p.1 = tget Quad.zero g.items p.1)
  let e := { e with
    sched := { e.sched with adm := g, run := [], shed := [], shedNext := [], restoreNext := [], overflow := [],
                            outs := kept, faults := [], orphans := [], stale := false, areas := g.areas }
    mix := { e.mix with sig := e.mix.sig.filter (fun p => staysOn e g kept p.1), taps := tapMoves old g e.mix.taps, lims := carryLims old g e.mix.lims } }
  voidEpochs (refreshShed (setF .SCHED_STAT_ITEMS 0 g.items.length e))

/-! ### Shedding and restoration (R22, R73, R74) -/

/-- Items that may be chosen, in the order of removal: class ascending, then index descending; feeders leave with their fed item. -/
def shedOrder (e : Engine) (out : List Nat) : List Nat :=
  let c := e.sched.adm.items.filter fun p => !out.contains p.1 && !(dKind p.2 == 3 && dFeeder p.2)
  [0, 1, 2, 3, 4, 5, 6, 7].flatMap fun k => ((c.filter fun p => dPrio p.2 == k).map (·.1)).reverse

/-- The items to remove until WINDOW, SHARE and QUEUE pass at a pace. -/
def shedMore (e : Engine) (pace : Nat) : List Nat → List Nat → List Nat
  | [], out => out
  | i :: t, out => if (capTests e e.sched.adm pace out).1 = 0 then out else shedMore e pace t (out ++ i :: feedersOf e i)

/-- The items that are out of the graph once the pending changes of this frame have come. -/
def shedAll (e : Engine) : List Nat := (e.sched.shed ++ e.sched.shedNext).filter fun i => !e.sched.restoreNext.contains i

/-- A shed run: the items that have to leave beyond those already out. -/
def shedRun (pace : Nat) (e : Engine) : List Nat :=
  let out := shedAll e
  (shedMore e pace (shedOrder e out) out).filter fun i => !out.contains i

/-- Packs indices four to a word. -/
def packIdx : List Nat → List Nat
  | a :: b :: c :: d :: t => (a + 2 ^ 16 * b + 2 ^ 32 * c + 2 ^ 48 * d) :: packIdx t
  | [] => []
  | l => [l.zipIdx.foldl (fun s p => s + p.1 * 2 ^ (16 * p.2)) 0]

/-- Event 0x0103, at most 20 indices in each. -/
def shedEvents (restored : Bool) : Nat → List Nat → Engine → Engine
  | 0, _, e => e
  | _ + 1, [], e => e
  | n + 1, l, e =>
    let now := l.take 20
    shedEvents restored n (l.drop 20) (postEvent 0x0103 ((2 ^ 63 * restored.toNat + 2 ^ 48 * now.length) :: packIdx now) e)

/-- Items leave at the next boundary, or at this one. -/
def shedNext (l : List Nat) (e : Engine) : Engine :=
  shedEvents false 1000 l { e with sched := { e.sched with shedNext := e.sched.shedNext ++ l } }

end Sys2Proof.Machine
end

