-- ==== Sys2Proof/Machine/Health.lean ====
section
/-! DEFINITION. Error windows and self-test (R20, R116, R117), pace and voltage (R69–R74), and the supervisor's halt on a lockstep
mismatch (R42–R44). -/
namespace Sys2Proof.Machine

/-! ### Error windows, self-test and the region's escalations -/

/-- The DRAM errors corrected in the second are shown, and event 0x0A02 is posted when they exceed the threshold (R450). -/
def rollDdr (e : Engine) : Engine :=
  let n := min e.xmem.ceSec 65535
  let th := getF .DDRC_CETHR_CETHR 0 e
  let e := setF .DDRC_CE_CERATE 0 n e
  let e := if th ≠ 0 ∧ th < e.xmem.ceSec then postEvent 0x0A02 [n] e else e
  { e with xmem := { e.xmem with ceSec := 0 } }

/-- The end of a second: the corrected errors of each cell are shown and judged against the threshold (R117, Table 3.9), and those of DRAM. -/
def rollSecond (e : Engine) : Engine :=
  let th := getF .SYS_CELL_THRESH_CORR_PER_S 0 e
  let e := e.health.corr.foldl (fun e p => if th ≠ 0 ∧ th ≤ p.2 then dueCap (.cell p.1 4) e else e) e
  let e := (List.range 256).foldl (fun e c => setF .SYS_CELL_ERR_CORR_1S c (tget 0 e.health.corr c) e) e
  rollDdr { e with health := { e.health with corr := [] } }

/-- The end of an hour from engine start: double-bit errors of the cells, and state errors of the other executors (R27, R117). -/
def rollHour (e : Engine) : Engine :=
  let th := getF .SYS_CELL_THRESH_DED_PER_H 0 e
  let e := (List.range 256).foldl (fun e c =>
    let e := if th ≠ 0 ∧ th ≤ getF .SYS_CELL_ERR_DED_1H c e then dueCap (.cell c 4) e else e
    setF .SYS_CELL_ERR_DED_1H c 0 e) e
  { e with health := { e.health with unitErr := [] } }

/-- An error window ends. A second is one of the always-on counter, which runs while the engine is held in reset as well (R117, R474). -/
def effErrorWindowRoll (hour : Bool) (e : Engine) : Engine :=
  if hour then (if e.held = 0 then rollHour e else e)
  else
    let e := aoTick e
    if e.held = 0 then rollSecond e else e

def execErrorWindowRoll (hour : Bool) (s : State) : Host.Outcome State Fault Refusal :=
  run "ERROR_WINDOW_ROLL" (Instr.errorWindowRoll hour).wf (effErrorWindowRoll hour) s

/-- A cell in no partition of the admitted graph; at the peer of a warm pair, every cell (R116). -/
def unpartitioned (e : Engine) (c : Nat) : Bool :=
  (pairRole e == 3 && isWarm e) || e.sched.adm.items.all fun p => !(dKind p.2 == 0 && dAffinity p.2 / 2 ^ (c / 8) % 2 == 1)

/-- `n` bytes from `a` take free values, with good check bits. -/
def scramble (a n : Nat) (e : Engine) : Engine :=
  store a ((List.range n).map fun j => (Config.freeValue (e.free + j)).setWidth 8) { e with free := e.free + n }

/-- A rotating self-test starts on a cell (R116): it takes no assignment and its memory contents are lost. -/
def effRotatingSelfTest (c : Nat) (e : Engine) : Engine :=
  if inRun e && supUp e && getF .SYS_CELL_BIST_INTERVAL 0 e != 0 && e.health.bist.isNone && unpartitioned e c && !fencedCell e c
      && (getCell e c).item.isNone then
    scramble (0x100000 * c) 0x40000 { e with health := { e.health with bist := some c } }
  else e

def execRotatingSelfTest (cell : Nat) (s : State) : Host.Outcome State Fault Refusal :=
  runLive "ROTATING_SELF_TEST" (Instr.rotatingSelfTest cell).wf (effRotatingSelfTest cell) s

/-- The test ends: the cell returns to service, or is fenced at the next boundary with containment cause 0x5 (R116, R117). -/
def effCellSelfTestComplete (pass : Bool) (e : Engine) : Engine :=
  match e.health.bist with
  | none => e
  | some c =>
    let e := setF .SYS_CELL_BIST_LAST_CELL 0 c { e with health := { e.health with bist := none } }
    if pass then e else dueCap (.cell c 5) e

def execCellSelfTestComplete (pass : Bool) (s : State) : Host.Outcome State Fault Refusal :=
  runLive "CELL_SELF_TEST_COMPLETE" (Instr.cellSelfTestComplete pass).wf (effCellSelfTestComplete pass) s

/-- A protocol error of a block's bridge isolates the block at the next boundary with cause 0x8 (R20, R23). -/
def effBridgeProtocolError (b : Nat) (e : Engine) : Engine := if isolatedBlock e b then e else dueCap (.block b 8) e

def execBridgeProtocolError (block : Nat) (s : State) : Host.Outcome State Fault Refusal :=
  runLive "BRIDGE_PROTOCOL_ERROR" (Instr.bridgeProtocolError block).wf (effBridgeProtocolError block) s

/-! ### Pace monitors (R69) -/

/-- Least of a list. -/
def minOf : List Nat → Option Nat
  | [] => none
  | a :: t => match minOf t with
    | none => some a
    | some b => some (min a b)

/-- The values of the usable monitors that have reported, of the region or of the engine. -/
def monitorsOf (e : Engine) (keys : List Nat) : List Nat :=
  (keys.filter fun k => !e.health.excl.contains k && tget 0 e.health.mon k != 0).map (tget 0 e.health.mon)

/-- A region's NOW and LOWEST. -/
def showPace (r : Nat) (e : Engine) : Engine :=
  let p := takeFree e
  let now := minOf (monitorsOf e [4 * r, 4 * r + 1, 4 * r + 2, 4 * r + 3])
  let e := if now.isSome then e else p.2
  let v := now.getD (p.1.toNat % 65536)
  let e := setF .SYS_PACE_RGN_NOW r v e
  if v < getF .SYS_PACE_RGN_LOWEST r e then setF .SYS_PACE_RGN_LOWEST r v e else e

/-- A monitor that reports less than 500 or more than 2,000 is excluded; the second of a region floors its cells. -/
def excludeMonitor (r k : Nat) (e : Engine) : Engine :=
  if e.health.excl.contains k then e
  else
    let e := postEvent 0x0102 [k] { e with health := { e.health with excl := e.health.excl ++ [k] } }
    if (e.health.excl.filter fun x => x / 4 == r).length = 2 then
      { e with health := { e.health with floorOnly := e.health.floorOnly ++ [r] } }
    else e

def effPaceMonitorSample (r m v : Nat) (e : Engine) : Engine :=
  let k := 4 * r + m
  let e := { e with health := { e.health with mon := tput 0 e.health.mon k v } }
  showPace r (if v < 500 ∨ 2000 < v then excludeMonitor r k e else e)

def execPaceMonitorSample (region mon val : Nat) (s : State) : Host.Outcome State Fault Refusal :=
  runLive "PACE_MONITOR_SAMPLE" (Instr.paceMonitorSample region mon val).wf (effPaceMonitorSample region mon val) s

/-- The pace value: the minimum over the usable monitors; none before one has reported. -/
def paceNow (e : Engine) : Option Nat := minOf (monitorsOf e (List.range 16))

/-- The pace value, a free value before a monitor has reported. -/
def paceValue (e : Engine) : Nat × Engine :=
  match paceNow e with
  | some v => (v, e)
  | none => let p := takeFree e; (p.1.toNat % 65536, p.2)

/-! ### The voltage loop (R70, R71) -/

/-- The next VDD_CORE in mV. -/
def nextVolt (e : Engine) (pace : Nat) : Nat :=
  let v := getF .SYS_AVS_STAT_VCMD 0 e
  let w := if pace < 1080 then v + 5 else if 1120 < pace then v - 5 else v
  min 850 (max (max 700 (getF .SYS_AVS_CTL_VMIN 0 e)) w)

/-- One run of the loop: a new value goes out over PMBus. -/
def effAvsLoop (e : Engine) : Engine :=
  if isF .SYS_AVS_CTL_EN 0 e && supUp e && !e.health.avsHalt && !e.health.pmbusBusy then
    let p := paceValue e
    let e := p.2
    let v := nextVolt e p.1
    if v = getF .SYS_AVS_STAT_VCMD 0 e then e else { e with health := { e.health with pmbus := some v, pmbusBusy := true } }
  else e

def execAvsLoop (s : State) : Host.Outcome State Fault Refusal := runLive "AVS_LOOP" Instr.avsLoop.wf effAvsLoop s

/-- A PMBus write ends: acknowledged, the regulator holds its value; the third in a row that is not sets FAULT and halts the loop. -/
def effPmbusWriteComplete (ack : Bool) (e : Engine) : Engine :=
  match e.health.pmbus with
  | none => e
  | some v =>
    if !e.health.pmbusBusy then e
    else if ack then
      setF .SYS_AVS_STAT_AT_MAX 0 (decide (v = 850)).toNat (setF .SYS_AVS_STAT_VCMD 0 v
        { e with health := { e.health with pmbus := none, pmbusBusy := false, nackRun := 0, avsHalt := false } })
    else
      let n := e.health.nackRun + 1
      let e := bumpF .SYS_AVS_STAT_NACKS 0 1 { e with health := { e.health with pmbusBusy := false, nackRun := n } }
      if n = 3 then setF .SYS_AVS_STAT_FAULT 0 1 { e with health := { e.health with avsHalt := true } } else e

def execPmbusWriteComplete (ack : Bool) (s : State) : Host.Outcome State Fault Refusal :=
  runLive "PMBUS_WRITE_COMPLETE" (Instr.pmbusWriteComplete ack).wf (effPmbusWriteComplete ack) s

/-- The retry of the write under an AVS fault. -/
def effPmbusRetry (e : Engine) : Engine :=
  if e.health.avsHalt && e.health.pmbus.isSome && supUp e then { e with health := { e.health with pmbusBusy := true } } else e

def execPmbusRetry (s : State) : Host.Outcome State Fault Refusal := runLive "PMBUS_RETRY" Instr.pmbusRetry.wf effPmbusRetry s

/-! ### Pace states, shedding and restoration (R72–R74) -/

/-- The pace state of Table 2.6 at a decision: 3 SHED, 2 ALARM, 1 LOW, 0 NORMAL. -/
def paceState (e : Engine) (pace : Nat) : Nat :=
  let v := getF .SYS_AVS_STAT_VCMD 0 e
  let slow := decide (pace < 1080) && v == 850 && decide (e.health.lastPace < 1080) && e.health.lastV == 850
  if pace < 1040 then 3
  else if slow || e.health.avsHalt || !e.health.floorOnly.isEmpty then 2
  else if pace < 1080 ∧ v < 850 then 1
  else 0

/-- The shed run of R73: on entry to SHED, and when the pace value has fallen a further 2 % since the last shed. -/
def paceShed (entry : Bool) (pace : Nat) (e : Engine) : Engine :=
  let further := match e.health.shedPace with | some p => decide (100 * pace ≤ 98 * p) | none => false
  if isF .SYS_PACE_CFG_SHED_EN 0 e && supUp e && (entry || further) then
    let l := shedRun pace e
    let e := showTests pace (shedAll e ++ l) { e with health := { e.health with shedPace := some pace } }
    if l.isEmpty then e else shedNext l e
  else e

/-- The supervisor is back while the engine is in SHED: the shedding that waited for it runs once over the current graph (Table 1.8). -/
def lateShed (e : Engine) : Engine :=
  if getF .SYS_PACE_STAT_STATE 0 e = 3 then
    let p := paceValue e
    paceShed true p.1 p.2
  else e

/-- The decision of one millisecond. -/
def effPaceDecision (e : Engine) : Engine :=
  let p := paceValue e
  let e := p.2
  let pace := p.1
  let st := paceState e pace
  let was := getF .SYS_PACE_STAT_STATE 0 e
  let e := if st = 1 then bumpF .SYS_PACE_STAT_LOWCNT 0 1 e else e
  let e := if st = was then e else postEvent 0x0101 [2 ^ 61 * st + pace % 65536] (setF .SYS_PACE_STAT_STATE 0 st e)
  let e := { e with health := { e.health with lastPace := pace, lastV := getF .SYS_AVS_STAT_VCMD 0 e } }
  if st = 3 then paceShed (was != 3) pace e else e

def execPaceDecision (s : State) : Host.Outcome State Fault Refusal :=
  runLive "PACE_DECISION" Instr.paceDecision.wf effPaceDecision s

/-- Items that return with a class: its shed items, and the feeders of those (R160); not those in a quarantined range (R21). -/
def classItems (e : Engine) (k : Nat) : List Nat :=
  let q := quarItems e
  let out := (shedAll e).filter fun i => !q.contains i
  let own := out.filter fun i => let d := admItem e i; dPrio d == k && !(dKind d == 3 && dFeeder d)
  own ++ (own.flatMap (feedersOf e)).filter fun i => out.contains i && !own.contains i

/-- The highest class with a shed item. -/
def topClass (e : Engine) : Option Nat := [7, 6, 5, 4, 3, 2, 1, 0].find? fun k => !(classItems e k).isEmpty

/-- A class returns at the next boundary when the graph with it passes at the floor (R74). -/
def effReinstatement (e : Engine) : Engine :=
  let fast := match paceNow e with | some v => decide (1100 ≤ v) | none => false
  if isF .SYS_PACE_CFG_REINSTATE 0 e && supUp e && fast && decide (getF .SYS_AVS_STAT_VCMD 0 e < 850) then
    match topClass e with
    | none => e
    | some k =>
      let l := classItems e k
      let out := (shedAll e).filter fun i => !l.contains i
      let ok := (capTests e e.sched.adm 1040 out).1 = 0
      let e := showTests 1040 out e
      if ok then
        shedEvents true 1000 l { e with sched := { e.sched with restoreNext := e.sched.restoreNext ++ l } }
      else e
  else e

def execReinstatement (s : State) : Host.Outcome State Fault Refusal :=
  runLive "REINSTATEMENT" Instr.reinstatement.wf effReinstatement s

/-! ### Lockstep (R42–R44) -/

/-- The supervisor's cores disagree: it halts and restarts; the second time within 10 s it stays halted for a warm reset. PENDING is
empty until selection runs again (R329). -/
def effLockstepMismatch (within10s : Bool) (e : Engine) : Engine :=
  if getF .SYS_SUP_STAT_STATE 0 e = 3 then e
  else
    let again := within10s && isF .SYS_SUP_STAT_RESTARTS 0 e
    let e := aoLog 3 0 [] (setF .SYS_SUP_STAT_LSTEP_ERR 0 1 e)
    let e := setF .CLK_STAT_PENDV 0 0 e
    if again then requestWarm 0x01 (setF .SYS_SUP_STAT_STATE 0 3 e)
    else bumpF .SYS_SUP_STAT_RESTARTS 0 1 (setF .SYS_SUP_STAT_STATE 0 2 e)

def execLockstepMismatch (within10s : Bool) (s : State) : Host.Outcome State Fault Refusal :=
  runLive "LOCKSTEP_MISMATCH" (Instr.lockstepMismatch within10s).wf (effLockstepMismatch within10s) s

end Sys2Proof.Machine
end

