-- ==== Sys2Proof/Machine/Payload.lean ====
section
/-! DEFINITION. The payload of a directive: indirection, its format and its records (R256, R259, Tables 8.4 and 8.6), and how one status is
chosen among several (R258). -/
namespace Sys2Proof.Machine

/-! ### Status (R258) -/

/-- Rank of a status: format, ring and transaction state, resource, content. -/
def statusRank (s : Nat) : Nat :=
  if s ≤ 0x0105 then 0 else if s ≤ 0x0107 ∨ s / 256 = 3 ∨ s / 256 = 8 then 1 else if s / 256 = 4 then 2 else 3

/-- The first failure in the order of R258, or 0. -/
def firstStatus : List Nat → Nat
  | [] => 0
  | s :: t =>
    let u := firstStatus t
    if s = 0 then u else if u = 0 ∨ statusRank s ≤ statusRank u then s else u

/-- The statuses of the conditions that hold. -/
def fails (l : List (Bool × Nat)) : List Nat := (l.filter (·.1)).map (·.2)

/-! ### Payload and records (R256, R259) -/

/-- The real payload: status and words. An indirect payload is read over PCIe. -/
def payloadOf (e : Engine) (d : Dir) : Nat × List Word64 :=
  if d.flags / 128 % 2 = 0 then (0, d.words)
  else if d.words.length ≠ 2 then (0x0102, [])
  else
    let a := (d.words.getD 0 0).toNat
    let w := d.words.getD 1 0
    let n := bits w 31 0
    if bits w 63 32 ≠ 0 ∨ a % 8 ≠ 0 ∨ 16777216 < n then (0x0103, [])
    else match hostAt e a (8 * n) with
      | some x => (0, readWords e x n)
      | none => (0x0105, [])

/-- Words of a record that starts with `w`, for the directives whose payload is records (R262–R269 and the chapters that Table 8.6 names). -/
def recSize (op : Nat) (w : Word64) : Nat :=
  match op with
  | 0x21 => 5
  | 0x22 => 9
  | 0x40 | 0x42 | 0x70 | 0x90 | 0x91 | 0xA0 | 0xA1 | 0xC4 => 2
  | 0x50 => 2 + ceilDiv (bits w 31 0) 8
  | 0x60 => if 0x28 ≤ bits w 63 56 ∧ bits w 63 56 ≤ 0x37 then 5 else 2
  | 0x61 | 0x62 | 0x82 => 3
  | 0x80 | 0x81 => 11
  | 0xC3 => if bits w 63 62 = 1 then 2 else 1 + ceilDiv (bits w 10 4) 3
  | _ => 1

/-- The directives whose payload is not a list of records. -/
def plainOp (op : Nat) : Bool := [0x01, 0x02, 0x03, 0x10, 0x11, 0x12, 0x20, 0x23, 0xB0, 0xB1, 0xB2, 0xC0].contains op

/-- The payload length of such a directive is right. -/
def plainLen (op : Nat) (ws : List Word64) : Bool :=
  let n := ws.length
  match op with
  | 0x01 => n == 1 || n == 2
  | 0x02 | 0x23 => n == 4
  | 0x03 | 0xB0 | 0xB2 => n == 2
  | 0x10 | 0x12 => n == 1
  | 0x11 => n == 4 + (bit (ws.getD 1 0) 60).toNat + (bit (ws.getD 1 0) 60 && bit (ws.getD 1 0) 59).toNat
  | 0x20 => n == 3 + 2 * bits (ws.getD 2 0) 12 0
  | 0xB1 => n == 5
  | 0xC0 => n == 4 + bits (ws.getD 0 0) 15 0
  | _ => false

/-- The records of a payload; none when it ends inside one or runs on after the last. -/
def splitRecs (op : Nat) : Nat → List Word64 → Option (List (List Word64))
  | 0, [] => some []
  | 0, _ => none
  | _ + 1, [] => none
  | n + 1, w :: t =>
    let k := recSize op w
    if t.length + 1 < k then none else (splitRecs op n ((w :: t).drop k)).map ((w :: t).take k :: ·)

/-- The records of a payload whose format is right; a payload that is no list of records is one. -/
def recsOf (op : Nat) (ws : List Word64) : Option (List (List Word64)) :=
  if plainOp op then (if plainLen op ws then some [ws] else none)
  else splitRecs op (bits (ws.getD 0 0) 15 0) (ws.drop 1)

/-- A directive as parsed: format status, real payload, records. -/
structure Parsed where
  status : Nat
  words : List Word64
  recs : List (List Word64)
  deriving DecidableEq, Repr

def parse (e : Engine) (op : Nat) (d : Dir) : Parsed :=
  let p := payloadOf e d
  let stop := fun s => (⟨s, p.2, []⟩ : Parsed)
  if d.flags % 32 ≠ 0 then stop 0x0103
  else if p.1 ≠ 0 then stop p.1
  else if op = 0 then stop (if bits (p.2.getD 0 0) 63 16 = 0 then 0 else 0x0103)
  else if p.2 = [] then stop 0x0102
  else if bits (p.2.getD 0 0) 63 16 ≠ 0 then stop 0x0103
  else match recsOf op p.2 with
    | some rs => ⟨0, p.2, rs⟩
    | none => stop 0x0102

/-- The kind of the first record of a directive whose records have kinds ([63:60]), 0 without one. -/
def firstKind (e : Engine) (op : Nat) (d : Dir) : Nat := bits (((parse e op d).recs.getD 0 []).getD 0 0) 63 60

/-- Writes that a staged directive counts (R262–R270). -/
def writesOf (op : Nat) (recs : List (List Word64)) : Nat :=
  match op with
  | 0x00 => 0
  | 0x50 => (recs.map fun r => ceilDiv (bits (r.getD 0 0) 31 0) 16).foldl (· + ·) 0
  | _ => recs.length

end Sys2Proof.Machine
end

