-- ==== Sys2Proof/Machine/Apply.lean ====
section
/-! DEFINITION. What each directive changes when it applies (R257, R261–R269, R275, R476, R508): one record at a time, on the engine at the
tick of its apply frame. -/
namespace Sys2Proof.Machine

def rec0 (r : List Word64) : Word64 := r.getD 0 0
def rec1 (r : List Word64) : Word64 := r.getD 1 0

/-! ### Graph directives (R262) -/

/-- The healthy cells of the blocks that a mask names. -/
def healthyCells (e : Engine) (mask : Nat) : List Nat :=
  (List.range 256).filter fun c => mask / 2 ^ (c / 8) % 2 == 1 && !fencedCell e c && !isolatedBlock e (c / 8)

def wordBytes (ws : List Word64) : List Byte := ws.flatMap fun w => leBytes w.toNat 8

/-- `LOAD_PROG` writes its bundles to every healthy cell of the named blocks. -/
def applyLoad (r : List Word64) (e : Engine) : Engine :=
  let bs := wordBytes (r.drop 3)
  (healthyCells e (bits (rec1 r) 31 0)).foldl (fun e c => store (0x100000 * c + 0x30000 + 16 * bits (r.getD 2 0) 27 16) bs e) e

def quadOf (r : List Word64) : Quad := ⟨r.getD 1 0, r.getD 2 0, r.getD 3 0, r.getD 4 0⟩

def setEdit (f : Graph → Graph) (e : Engine) : Engine := { e with sched := { e.sched with edit := f e.sched.edit } }

/-- `DEF_ITEM` writes or removes a descriptor, or writes a transfer entry. -/
def applyDef (r : List Word64) (e : Engine) : Engine :=
  let d := quadOf r
  if bits (rec0 r) 63 62 = 0 then
    setEdit (fun g => { g with items := tput Quad.zero g.items (bits (rec0 r) 13 0) (if dValid d then d else Quad.zero) }) e
  else setEdit (fun g => { g with xfers := tput none g.xfers (bits (rec0 r) 12 0) (some d) }) e

/-- The indices of a `LINK` record that its count uses. -/
def linkIdx (r : List Word64) : List Nat :=
  (List.range (bits (rec0 r) 21 16)).map fun i => bits (r.getD (i / 4 + 1) 0) (16 * (i % 4) + 15) (16 * (i % 4))

def applyLink (r : List Word64) (e : Engine) : Engine :=
  let s : SuccEntry := ⟨linkIdx r, if bit (rec0 r) 22 then some (bits (rec0 r) 43 32) else none⟩
  setEdit (fun g => { g with succs := tput none g.succs (bits (rec0 r) 11 0) (some s) }) e

/-- `ADMIT` that applies without a result of its own: on a pair's peer, whose admission run answers as the active's did (R414). -/
def applyAdmit (r : List Word64) (e : Engine) : Engine :=
  if bit (r.getD 2 0) 32 then e
  else
    let a := admitRun e e.sched.edit (r.getD 3 0).toNat
    if a.1.status = 0 then swapGraph a.1.graph a.2 else a.2

/-! ### Routing, gain and parameters (R264–R268) -/

def isStrip (t : Nat) : Bool := decide (0x2000 ≤ t) && decide (t < 0x3000)

/-- A strip's domain is set with its route (R182). -/
def setStripDom (w : Word64) (e : Engine) : Engine :=
  if isStrip (bits w 63 48) then { e with mix := { e.mix with stripDom := tput 0 e.mix.stripDom (bits w 63 48 - 0x2000) (bits w 26 25) } } else e

def applyRoute (x : Staged) (r : List Word64) (e : Engine) : Engine :=
  let w := rec0 r
  requestRoute (bits w 63 48)
    { src := bits w 47 32, mode := bits w 31 29, len := bits w 28 27, ring := x.ring, tag := x.tag, notify := x.flags / 32 % 2 == 1 } (setStripDom w e)

def applyFallback (r : List Word64) (e : Engine) : Engine :=
  let w := rec0 r
  setFallback (bits w 63 48) (bits w 47 32) (bit w 31) (bits w 30 27) e

def applyAlign (r : List Word64) (e : Engine) : Engine :=
  setEdit (fun g => { g with align := tput 0 g.align (bits (rec0 r) 55 48) (bits (rec0 r) 47 46) }) e

/-- Marks a gain point for step 4 of R227. -/
def dirtyGp (i : Nat) (e : Engine) : Engine := { e with mix := { e.mix with gpDirty := insertNat i e.mix.gpDirty } }

/-- A host target. -/
def setHost (i h : Nat) (e : Engine) : Engine := dirtyGp i (setGp i { getGp e i with h := h } e)

def gpOf (r : List Word64) : Nat := bits (rec0 r) 63 43

/-- The number that a feed holds for a gain point that it has lost: no gain point, so that its gain stays 1. -/
def noGp : Nat := 0x1FFFFF

/-- A feed that no longer names a gain point. -/
def MinusFeed.lose (i : Nat) (f : MinusFeed) : MinusFeed :=
  { f with gp := if f.gp = i then noGp else f.gp, talkGp := if f.talkGp = i then noGp else f.talkGp }

/-- A general gain point that is bound anew leaves the sink, feed or talk source that it was bound to (R219, R265): the spec says so for a BIND,
and the model does the same for a `MINUS_CFG` (DESIGN CHOICE, log 161). -/
def freeGp (i : Nat) (e : Engine) : Engine :=
  dirtyGp i (setGp i { getGp e i with bind := 0xFFFF } { e with mix := { e.mix with feeds := e.mix.feeds.map fun p => (p.1, p.2.map (MinusFeed.lose i)) } })

def applyGain (r : List Word64) (e : Engine) : Engine :=
  let i := gpOf r
  let e := setHost i (bits (rec0 r) 31 0) e
  if isSendGp i then e
  else
    let b := bits (rec1 r) 63 48
    let e := if b = 0xFFFF then e else freeGp i e
    let p := getGp e i
    setGp i { p with bind := if b = 0xFFFF then p.bind else if b = 0xFFFE then 0xFFFF else b
                     timeout := bits (rec1 r) 47 40, ramp := bits (rec1 r) 39 29 } e

/-- The linear gain of d hundredths of a dB (R221): within 1 LSB of the exact rounding, and exact where the manual gives the value. -/
def gainOfDb (d : Int) : Nat :=
  if d = -32768 then 0
  else if d = 0 then 0x10000000
  else if d = -1000 then 0x050F44D9
  else
    let x := roundDiv (pow10Q64 (d * 10) : Int) (2 ^ 36)
    (clamp 0 0x7FFFFFFF (within 16 d x 1)).toNat

def applyGainDb (r : List Word64) (e : Engine) : Engine := setHost (gpOf r) (gainOfDb (signed 16 (bits (rec0 r) 15 0))) e

def sendBus (r : List Word64) : Nat := bits (rec0 r) 63 56
def sendPos (r : List Word64) : Nat := bits (rec0 r) 55 35
def sendOp (r : List Word64) : Nat := bits (rec0 r) 34 33

/-- A `SET_SEND` record is a write that applies to the admitted list at once (R266). -/
def liveSend (e : Engine) (r : List Word64) : Bool :=
  sendOp r == 0 && decide (sendPos r < (tget [] e.sched.adm.sends (sendBus r)).length) && (activeGps e.sched.adm).contains (sendGp (rec1 r))

/-- An entry with the alignment delay of another. -/
def keepAlign (new old : Word64) : Word64 :=
  BitVec.ofNat 64 (new.toNat - 2 ^ 36 * sendAlign new + 2 ^ 36 * sendAlign old)

def applySend (r : List Word64) (e : Engine) : Engine :=
  let b := sendBus r
  let p := sendPos r
  let w := rec1 r
  let l := tget [] e.sched.edit.sends b
  let l' := match sendOp r with
    | 0 => l.set p w
    | 1 => l ++ [w]
    | 2 => l.eraseIdx p
    | _ => l.take p
  let live := liveSend e r
  let e := setEdit (fun g => { g with sends := tput [] g.sends b l' }) e
  if live then
    let a := tget [] e.sched.adm.sends b
    { e with sched := { e.sched with adm := { e.sched.adm with sends := tput [] e.sched.adm.sends b (a.set p (keepAlign w (a.getD p 0))) } } }
  else e

/-! ### Parameter areas (R267, R268) -/

def paramAt (e : Engine) (r off half : Nat) : Nat := paramBase e r + half * paramSize e r + off

/-- The mirror of a region's area completes: the data of the last flip go into the inactive half. -/
def endMirror (r : Nat) (e : Engine) : Engine :=
  let l := e.ctl.mirror.filter fun m => m.1 == r
  let e := l.foldl (fun e m => store (paramAt e r m.2.1 (1 - paramHalf e r)) m.2.2 e) e
  setBitF .HOST_PARAM_ACT_MIRROR 0 r false { e with ctl := { e.ctl with mirror := e.ctl.mirror.filter fun m => m.1 != r } }

/-- A parameter record's data, its target, region and offset. -/
def paramData (r : List Word64) : List Byte := (wordBytes (r.drop 2)).take (bits (rec0 r) 31 0)
def toCells (r : List Word64) : Bool := bits (rec0 r) 63 62 == 1
def paramRegion (r : List Word64) : Nat := bits (rec0 r) 61 60
def paramOff (r : List Word64) : Nat := bits (rec0 r) 55 32

/-- A `WRITE_PARAM` record of a transaction of `w` writes. The data of an area have gone into the inactive half by the tick, at whose end
the half flips once for all records of the tick. -/
def applyParam (w : Nat) (r : List Word64) (e : Engine) : Engine :=
  let bs := paramData r
  if toCells r then (healthyCells e (bits (rec1 r) 31 0)).foldl (fun e c => store (0x100000 * c + paramOff r) bs e) e
  else
    let g := paramRegion r
    let e := if e.ctl.flips.contains g then e else
      let e := endMirror g e
      { e with ctl := { e.ctl with flips := g :: e.ctl.flips } }
    let e := store (paramAt e g (paramOff r) (1 - paramHalf e g)) bs e
    { e with ctl := { e.ctl with mirror := e.ctl.mirror ++ [(g, paramOff r, bs)]
                                 mirrorLast := tput 0 e.ctl.mirrorLast g (max (tget 0 e.ctl.mirrorLast g) (frameNo e + ceilDiv w 16384)) } }

/-- The parameter areas written at the tick flip, and their mirrors begin. -/
def flipParams (e : Engine) : Engine :=
  let e := e.ctl.flips.foldl (fun e g => setBitF .HOST_PARAM_ACT_MIRROR 0 g true (setBitF .HOST_PARAM_ACT_ACT 0 g (!bitF .HOST_PARAM_ACT_ACT 0 g e) e)) e
  { e with ctl := { e.ctl with flips := [] } }

/-! ### Services (R236–R244, R269) -/

def applyMeter (r : List Word64) (e : Engine) : Engine :=
  let w3 := r.getD 3 0
  { e with mix := { e.mix with
      meterA := (rec1 r).toNat, meterB := (r.getD 2 0).toNat, meterBytes := bits w3 63 32, meterVec := bits w3 31 16, meterEv := bit w3 0
      ranges := (r.drop 4).map fun w => (bits w 63 48, bits w 47 32) } }

/-- A loudness meter that has measured nothing. -/
def Loud.fresh (mask weights : Nat) : Loud :=
  { mask := mask, weights := weights, chans := [], steps := [], hist := [], lra := [], m := none, s := none, i := none, lraV := none, tp := 0, tpMax := 0,
    secs := 0, tenths := 0, reset := false, wasReset := false }

def applyLoud (r : List Word64) (e : Engine) : Engine :=
  let w := rec0 r
  let m := bits w 63 58
  let v := if bit w 57 then
      let l := (tget none e.mix.louds m).getD (Loud.fresh 0 0)
      some { l with mask := bits w 47 40, weights := bits w 39 24, chans := l.chans.filter fun p => (bits w 47 40).testBit p.1, reset := l.reset || bit w 55 }
    else none
  setBitF .SUM_LOUD_RUN_RUN (m / 32) (m % 32) (bit w 57 && bit w 56) { e with mix := { e.mix with louds := tput none e.mix.louds m v } }

/-- Removes the members that `p` picks, whose gain points lose their factor. -/
def dropMembers (p : Nat → AmMember → Bool) (e : Engine) : Engine :=
  e.mix.members.foldl (fun e q =>
    match q.2 with
    | some m => if p q.1 m then dirtyGp m.gp { e with mix := { e.mix with members := tput none e.mix.members q.1 none } } else e
    | none => e) e

def applyAutomix (r : List Word64) (e : Engine) : Engine :=
  let w := rec0 r
  let g := bits w 61 57
  if bits w 63 62 = 1 then
    if bit w 56 then { e with mix := { e.mix with groups := tput none e.mix.groups g (some ⟨bits w 55 48, bits w 47 40, bits w 39 32⟩) } }
    else setBitF .SUM_AMIX_HOLD_HOLD 0 g false (dropMembers (fun _ m => m.group == g) { e with mix := { e.mix with groups := tput none e.mix.groups g none } })
  else
    let k := bits w 56 47
    let e := dropMembers (fun i _ => i == k) e
    if bit w 3 then e
    else
      let m : AmMember := { group := g, det := bits w 46 33, gp := bits w 32 12, weight := signed 8 (bits w 11 4), e := 0, a := gainOne, hold := 0 }
      dirtyGp m.gp { e with mix := { e.mix with members := tput none e.mix.members k (some m) } }

/-- The gain points of a duck rule record. -/
def duckGps (r : List Word64) : List Nat :=
  (List.range (bits (rec0 r) 10 4)).map fun i => bits (r.getD (1 + i / 3) 0) (21 * (i % 3) + 20) (21 * (i % 3))

def applyMinus (r : List Word64) (e : Engine) : Engine :=
  let w := rec0 r
  if bits w 63 62 = 1 then
    let k := bits w 61 54
    let f : MinusFeed := { bus := bits w 53 46, excl := bits w 45 32, gp := bits w 20 0, talk := bits (rec1 r) 63 50, talkGp := bits (rec1 r) 20 0 }
    if bit w 31 then
      let e := freeGp f.gp e
      let e := if f.talk = 0x3FFF then e else freeGp f.talkGp e
      let f := if f.talk ≠ 0x3FFF ∧ f.talkGp = f.gp then { f with gp := noGp } else f
      { e with mix := { e.mix with feeds := tput none e.mix.feeds k (some f) } }
    else setSig (0x3220 + k) [] { e with mix := { e.mix with feeds := tput none e.mix.feeds k none } }
  else
    let k := bits w 61 57
    let old := match tget none e.mix.ducks k with | some d => d.gps | none => []
    let e := old.foldl (fun e i => dirtyGp i e) e
    if bit w 56 then
      let d : Duck := { trig := bits w 55 42, thr := bits w 41 34, depth := bits w 33 28, hold := bits w 27 14, prio := bits w 13 11
                        gps := duckGps r, until_ := 0, active := false, ending := false }
      d.gps.foldl (fun e i => dirtyGp i e) (setDuck k d e)
    else setBitF .SUM_DUCK_ACT_ACT 0 k false { e with mix := { e.mix with ducks := tput none e.mix.ducks k none } }

/-- A generator starts, changes or ramps out from the level that it has reached (R244). -/
def applyGen (r : List Word64) (e : Engine) : Engine :=
  let w := rec0 r
  let k := bits w 63 59
  let mode := bits w 58 56
  let old := tget none e.mix.gens k
  let lv := match old with
    | some g => if g.rpos = 0 then g.from_ else genLevelAt g (g.rpos - 1)
    | none => 0
  let v : Option Gen :=
    if mode = 0 then old.map fun g => { g with on := false, from_ := lv, rpos := 0 }
    else some { on := true, mode := mode, level := bits w 55 40, inc := bits w 31 0, seed := bits (rec1 r) 30 0, phase := 0, age := 0, from_ := lv, rpos := 0 }
  { e with mix := { e.mix with gens := tput none e.mix.gens k v } }

/-! ### `RESET_FN` (R476, Table 15.9) -/

/-- Items that a re-initialisation keeps from running: they wait no longer and their signals are concealed at the late check. -/
def parkItems (p : Nat → Bool) (e : Engine) : Engine :=
  let l := (e.sched.run.filter fun q => p q.1 && [ItemSt.parked, .queued, .overflow, .slot, .held, .running].contains q.2.st).map (·.1)
  let e := l.foldl (fun e i => let e := freeExec i 0 e; setRun i { getRun e i with st := .parked, bound := false } e) e
  refreshDepth { e with sched := { e.sched with overflow := e.sched.overflow.filter fun i => !p i } }

/-- The item's transfers touch DRAM. -/
def usesDram (e : Engine) (i : Nat) : Bool := (itemTransfers e i).any fun x => (xBind x != 2 && inDram (xSrc x)) || (xBind x != 1 && inDram (xDst x))

/-- A re-initialisation starts: the function goes to the state of its row "during". Ring 8 is the supervisor. -/
def startReset (fn idx tag ring : Nat) (e : Engine) : Engine :=
  let first := !resetBusy e fn idx
  let e := beginReset fn idx tag ring e
  if !first then e
  else match fn with
    | 3 => match getRx e idx with | some x => setRx idx (some { x with buf := [] }) e | none => e
    | 4 => failPaths idx e
    | 5 => parkItems (fun i => dKind (admItem e i) == 0 && subQueue (admItem e i) == idx && (getRun e i).st != .running) e
    | 6 => (inState e .running).foldl (fun e i => if dKind (admItem e i) = 3 ∧ usesDram e i then setRun i { getRun e i with err := true } e else e) e
    | 7 => parkItems (fun _ => true) e
    | _ => e

/-- The supervisor re-initialises a function on its own criterion of Table 15.8 (R24). Table 1.14 gives these criteria no cause: a free value. -/
def startChip (fn idx : Nat) (e : Engine) : Engine :=
  let c := takeFree e
  startReset fn idx 0 8 (if resetBusy e fn idx then e else containNow 4 (c.1.toNat % 16) (65536 * fn + idx) c.2)

/-- Function and index of a `RESET_FN`. -/
def resetFnOf (w : Word64) : Nat × Nat := (bits w 63 56, bits w 15 0)

/-- A `RESET_FN` begins, and its containment event is posted (R24, Table 1.3); the record's cause is not given: a free value. -/
def applyReset (x : Staged) (r : List Word64) (e : Engine) : Engine :=
  let f := resetFnOf (rec1 r)
  let c := takeFree e
  startReset f.1 f.2 x.tag x.ring (containNow 4 (c.1.toNat % 16) (65536 * f.1 + f.2) c.2)

/-! ### All directives -/

/-- `SCENE_DELETE` of place `n` in the order of execution: a scene stored after it stays (R257, R277). -/
def deleteScene (k n : Nat) (e : Engine) : Engine :=
  match tget none e.ctl.scenes k with
  | some s => if s.n < n then { e with ctl := { e.ctl with scenes := tput none e.ctl.scenes k none } } else e
  | none => e

/-- One record of a directive applies; `w` is the writes of its transaction. -/
def applyRec (x : Staged) (w : Nat) (r : List Word64) (e : Engine) : Engine :=
  match x.op with
  | 0x03 => applyReset x r e
  | 0x20 => applyLoad r e
  | 0x21 => applyDef r e
  | 0x22 => applyLink r e
  | 0x23 => applyAdmit r e
  | 0x30 => applyRoute x r e
  | 0x31 => applyFallback r e
  | 0x32 => applyAlign r e
  | 0x40 => applyGain r e
  | 0x41 => applyGainDb r e
  | 0x42 => applySend r e
  | 0x50 => applyParam w r e
  | 0x60 => applyPort r e
  | 0x61 => applyGroup true r e
  | 0x62 => applyGroup false r e
  | 0x70 => applyRefCfg r e
  | 0x71 => applyRefPrio r e
  | 0x80 => applyStreamTx r e
  | 0x81 => applyStreamRx r e
  | 0x82 => applyPtp r e
  | 0x90 => applyFabCfg r e
  | 0x91 => applyFabSlot r e
  | 0xA0 => applyPairCfg r e
  | 0xB2 => deleteScene (bits (rec1 r) 11 0) x.n e
  | 0xC0 => applyMeter r e
  | 0xC1 => applyLoud r e
  | 0xC2 => applyAutomix r e
  | 0xC3 => applyMinus r e
  | 0xC4 => applyGen r e
  | _ => e

/-- The records of a staged directive. -/
def stagedRecs (x : Staged) : List (List Word64) := (recsOf x.op x.words).getD []

/-- The writes of a staged directive. -/
def stagedWrites (x : Staged) : Nat := writesOf x.op (stagedRecs x)

/-- What a directive that applies sets in motion (R256, R259). A route with NOTIFY reports by event 0x0203, not 0x0403. -/
def effectOf (x : Staged) (after : List Nat) : Effect :=
  let rs := stagedRecs x
  { n := x.n, ring := x.ring, tag := x.tag, notify := x.flags / 32 % 2 == 1 && x.op != 0x30
    gps := []
    sinks := if x.op = 0x30 then rs.map fun r => bits (rec0 r) 63 48 else []
    moves := if x.op = 0x31 then rs.map fun r => bits (rec0 r) 63 48 else []
    gens := if x.op = 0xC4 then rs.map fun r => bits (rec0 r) 63 59 else []
    taps := x.op == 0x23, after := after }

def addEffect (f : Effect) (e : Engine) : Engine := { e with ctl := { e.ctl with effects := e.ctl.effects ++ [f] } }

/-- A directive applies: its records in order (R275). Its effect lasts until the gain points that it has given a term rest (R259). -/
def applyDir (w : Nat) (x : Staged) (e : Engine) : Engine :=
  let was := e.mix.gpDirty
  let e := (stagedRecs x).foldl (fun e r => applyRec x w r e) { e with mix := { e.mix with gpDirty := [] } }
  let gps := e.mix.gpDirty
  addEffect { effectOf x [] with gps := gps } { e with mix := { e.mix with gpDirty := gps.foldl (fun l i => insertNat i l) was } }

/-- A graph change: an `ADMIT` with DRY = 0. -/
def isSwap (x : Staged) : Bool := x.op == 0x23 && !bit (x.words.getD 2 0) 32

/-- The directives of a transaction apply in ring order; its last graph change puts the accepted graph in place. -/
def applyStaged (g : Option Graph) (w : Nat) : List Staged → Engine → Engine
  | [], e => e
  | x :: t, e =>
    let e := if isSwap x then
        (if t.any isSwap then e else match g with | some g => addEffect (effectOf x []) (swapGraph g e) | none => e)
      else if x.op = 0x23 then e
      else applyDir w x e
    applyStaged g w t e

end Sys2Proof.Machine
end

