-- ==== Sys2Proof/Machine/Checks.lean ====
section
/-! DEFINITION. The checks of a directive's records, each against the state that the records before it leave (R154, R181, R182, R258,
R262–R271, R310, R337, R366, R393, R424, R476). A check answers the statuses of all its failures; `firstStatus` chooses. -/
namespace Sys2Proof.Machine

/-! ### Signals -/

def sinkStatus (t : Nat) : Nat := if t = 0x3FFF then 0x0121 else if sinkOk t then 0 else 0x0120
def sourceStatus (s : Nat) : Nat := if sourceOk s then 0 else 0x0120

/-- A source of the house domain, or silence. -/
def houseSource (v : Engine) (s : Nat) : Bool := s == 0x3FFF || sourceDom v s == (0, 0)

/-- A general gain point other than a bus master (Table 7.3). -/
def generalGp (i : Nat) : Bool := decide (0x100100 ≤ i) && decide (i < 0x110000)

/-- The host's buffer is writable over PCIe. -/
def bufferOk (v : Engine) (a n : Nat) : Bool := n == 0 || (hostAt v a n).isSome

/-! ### Graph directives (R154, R262) -/

/-- The mask names blocks of one region. -/
def oneRegion (mask : Nat) : Bool := [0, 1, 2, 3].any fun g => mask / 2 ^ (8 * g) % 256 * 2 ^ (8 * g) == mask && mask != 0

/-- A field that Table 5.2 or 5.3 leaves out or gives as 0 for the kind is not 0, or KIND or CONC is reserved. -/
def descReserved (d : Quad) : Bool :=
  let k := dKind d
  decide (4 < k) || decide (1 < dConc d) || (dTrapEn d && k != 0) || bits d.w2 63 40 != 0 || bits d.w3 63 51 != 0 || bits d.w3 30 12 != 0
  || (if k = 0 then decide (2 ^ 18 ≤ dArg d) else dArg d != 0)
  || (match k with
      | 0 => decide (4096 ≤ dEntry d)
      | 1 => decide (256 ≤ dEntry d) || decide (32 ≤ dAffinity d)
      | 2 => decide (256 ≤ dEntry d) || decide (256 ≤ dAffinity d)
      | 3 => decide (8192 ≤ dEntry d) || decide (4 ≤ dAffinity d)
      | _ => dAffinity d != 0)

/-- The program that a cell item names declares a handler (R125), in the lowest healthy cell of its mask. -/
def declaresHandler (v : Engine) (d : Quad) : Bool :=
  match healthyCells v (dAffinity d) with
  | c :: _ => field (bundleAt v c (dEntry d % 4096 - 1)) 106 106 == 1
  | [] => false

/-- The refusals of a descriptor that is not removed (R154, R202). -/
def descCheck (v : Engine) (d : Quad) : List Nat :=
  let k := dKind d
  if !dValid d then []
  else fails [(descReserved d, 0x0110), (dBudget d == 0, 0x0111), ((k == 0 && !oneRegion (dAffinity d)) || (k == 3 && dAffinity d == 3), 0x0112),
    (k == 0 && dEntry d % 4096 == 0, 0x0113), (k == 0 && decide (dBudget d < 32) && declaresHandler v d, 0x0114),
    ((dFeeds d != 0 && k != 0) || (dFeeder d && k != 3), 0x0115), (k == 2 && dEntry d % 256 != dAffinity d % 256, 0x0116)]

/-- A transfer entry is refused (R154, Table 5.4). -/
def xferBad (x : Quad) : Bool :=
  xLen x == 0 || bits x.w1 23 0 != 0 || bits x.w2 54 14 != 0 || bits x.w3 63 13 != 0 || xBind x == 3 || !packValid (xPack x)
  || (xBind x == 1 && decide (0x100000 < xDst x + xLen x)) || (xBind x == 2 && decide (0x100000 < xSrc x + xLen x))

def defCheck (v : Engine) (r : List Word64) : List Nat :=
  match bits (rec0 r) 63 62 with
  | 0 => if bits (rec0 r) 61 14 = 0 then descCheck v (quadOf r) else [0x0103]
  | 1 => fails [(bits (rec0 r) 61 13 != 0 || xferBad (quadOf r), 0x0103)]
  | _ => [0x0103]

def linkCheck (r : List Word64) : List Nat :=
  let w := rec0 r
  fails [(decide (32 < bits w 21 16) || bits w 63 44 != 0 || bits w 31 23 != 0 || bits w 15 12 != 0, 0x0103),
    ((linkIdx r).any fun i => decide (16384 ≤ i), 0x0401)]

/-- The bundles of a `LOAD_PROG` are an entry of the valid manifest (R470). -/
def inManifest (v : Engine) (r : List Word64) : Bool :=
  let w := r.getD 2 0
  isF .HOST_BOOT_STAT_MANOK 0 v && v.host.manifest.contains (bits w 27 16, bits w 12 0, Config.sha384 (wordBytes (r.drop 3)))

def loadCheck (v : Engine) (r : List Word64) : List Nat :=
  let w := r.getD 2 0
  fails [(bits (rec1 r) 63 32 != 0 || bits w 63 28 != 0 || bits w 15 13 != 0 || bits w 12 0 == 0 || decide (4096 < bits w 27 16 + bits w 12 0), 0x0103),
    (isF .SYS_FUSE_CELLSIGN 0 v && !inManifest v r, 0x0140)]

def admitCheck (v : Engine) (r : List Word64) : List Nat :=
  let w := r.getD 2 0
  fails [(bits w 63 33 != 0, 0x0103), (!bufferOk v (rec1 r).toNat (bits w 31 0), 0x0105)]

/-! ### Routing and gain (R264–R268) -/

/-- With the strip's domain set, the routes that name the strip as a source, and its own fallback, still join. -/
def stripKeeps (w : Word64) (v : Engine) : Bool :=
  let t := bits w 63 48
  let v' := setStripDom w v
  !isStrip t || ((v'.mix.sinks.all fun p => p.1 == t || (sinkSources p.2).all fun s => s != t || joins v' s p.1) && joins v' (getSink v' t).fb t)

def routeCheck (v : Engine) (r : List Word64) : List Nat :=
  let w := rec0 r
  let t := bits w 63 48
  let s := bits w 47 32
  let bad := bits w 24 0 != 0 || decide (2 < bits w 31 29) || decide (1 < bits w 26 25) || (bits w 26 25 != 0 && !isStrip t)
  let sig := sinkStatus t != 0 || sourceStatus s != 0
  fails [(bad, 0x0103), (sinkStatus t != 0, sinkStatus t), (sourceStatus s != 0, sourceStatus s),
    (!bad && !sig && !(joins (setStripDom w v) s t && stripKeeps w v), 0x0122)]

def fallbackCheck (v : Engine) (r : List Word64) : List Nat :=
  let w := rec0 r
  let t := bits w 63 48
  let s := bits w 47 32
  let sig := sinkStatus t != 0 || sourceStatus s != 0
  fails [(bits w 26 0 != 0, 0x0103), (sinkStatus t != 0, sinkStatus t), (sourceStatus s != 0, sourceStatus s), (!sig && !joins v s t, 0x0122)]

def alignCheck (r : List Word64) : List Nat :=
  let w := rec0 r
  fails [(bits w 63 56 != 0 || bits w 45 0 != 0 || bits w 47 46 == 3, 0x0103)]

/-- The sink that a BIND names is bound to another gain point. -/
def boundElsewhere (v : Engine) (t i : Nat) : Bool := match boundGp v t with | some j => j != i | none => false

def gainCheck (v : Engine) (r : List Word64) : List Nat :=
  let w := rec0 r
  let u := rec1 r
  let i := gpOf r
  let b := bits u 63 48
  let names := b != 0xFFFF && b != 0xFFFE
  let bad := if isSendGp i then u != 0xFFFF000000000000
    else decide (200 < bits u 47 40) || (bits u 39 29 != 0 && (decide (bits u 39 29 < 16) || decide (1024 < bits u 39 29)))
      || (isMaster i && b != 0xFFFF) || (names && (!sinkOk b || boundElsewhere v b i))
  fails [(bits w 42 32 != 0 || bits u 28 0 != 0 || bad, 0x0103), (decide (0x110000 ≤ i), 0x0401), (bit w 31, 0x0130)]

def gainDbCheck (r : List Word64) : List Nat := fails [(bits (rec0 r) 42 16 != 0, 0x0103), (decide (0x110000 ≤ gpOf r), 0x0401)]

def sendCheck (v : Engine) (r : List Word64) : List Nat :=
  let u := rec1 r
  let n := (tget [] v.sched.edit.sends (sendBus r)).length
  let p := sendPos r
  let entry := decide (sendOp r < 2)
  let past := match sendOp r with
    | 0 => !liveSend v r && decide (n ≤ p)
    | 1 => decide (1048576 ≤ n)
    | 2 => decide (n ≤ p)
    | _ => decide (n < p)
  fails [(bits (rec0 r) 32 0 != 0 || (entry && (bits u 35 32 != 0 || bits u 11 0 != 0)), 0x0103),
    (entry && !sourceOk (sendSrc u), 0x0120), (entry && sourceOk (sendSrc u) && !houseSource v (sendSrc u), 0x0122), (past, 0x0401)]

def paramCheck (v : Engine) (r : List Word64) : List Nat :=
  let w := rec0 r
  let n := bits w 31 0
  let off := paramOff r
  let cell := toCells r
  fails [(decide (1 < bits w 63 62) || bits w 59 56 != 0 || off % 16 != 0 || n % 16 != 0 || (if cell then bits (rec1 r) 63 32 != 0 else rec1 r != 0)
      || (cell && decide (0x30000 < off + n)), 0x0103),
    (!cell && decide (paramSize v (paramRegion r) < off + n), 0x040A)]

/-! ### Services (R236–R244, R269) -/

def meterCheck (v : Engine) (r : List Word64) : List Nat :=
  let w3 := r.getD 3 0
  let vec := bits w3 31 16
  let n := bits w3 63 32
  fails [(bits w3 15 1 != 0 || (vec != 0xFFFF && decide (64 ≤ vec)) || (r.drop 4).any (fun w => bits w 31 0 != 0 || decide (bits w 47 32 < bits w 63 48)), 0x0103),
    (!bufferOk v (rec1 r).toNat n || !bufferOk v (r.getD 2 0).toNat n, 0x0105)]

def loudCheck (v : Engine) (r : List Word64) : List Nat :=
  let w := rec0 r
  let m := bits w 63 58
  let chans := (List.range 8).filter fun j => bits w 47 40 / 2 ^ j % 2 == 1
  fails [(bits w 54 48 != 0 || bits w 23 0 != 0 || (bit w 57 && (chans.isEmpty || chans.any fun j => bits w 39 24 / 4 ^ j % 4 == 3)), 0x0103),
    (bit w 57 && chans.any (fun j => !houseSource v (routedTo (getSink v (0x3200 + 8 * m + j)))), 0x0122)]

def automixCheck (v : Engine) (r : List Word64) : List Nat :=
  let w := rec0 r
  let k := bits w 56 47
  let g := bits w 61 57
  let wt := signed 8 (bits w 11 4)
  match bits w 63 62 with
  | 1 => fails [(bits w 31 0 != 0 || (bit w 56 && (decide (80 < bits w 55 48) || decide (60 < bits w 47 40) || decide (30 < bits w 39 32))), 0x0103)]
  | 2 =>
    if bit w 3 then fails [(bits w 2 0 != 0, 0x0103)]
    else fails [(bits w 2 0 != 0 || !generalGp (bits w 32 12) || decide (wt < -20) || decide (10 < wt), 0x0103), (!sourceOk (bits w 46 33), 0x0120),
      (decide (128 ≤ ((membersOf v g).filter fun m => m.1 != k).length), 0x0401)]
  | _ => [0x0103]

def minusCheck (v : Engine) (r : List Word64) : List Nat :=
  let w := rec0 r
  let u := rec1 r
  match bits w 63 62 with
  | 1 =>
    let talk := bits u 63 50
    fails [(bits w 30 21 != 0 || bits u 49 21 != 0 || (bit w 31 && (!generalGp (bits w 20 0) || (talk != 0x3FFF && !generalGp (bits u 20 0)))), 0x0103),
      (decide (192 ≤ bits w 61 54), 0x0401), (bit w 31 && (!sourceOk (bits w 45 32) || !sourceOk talk), 0x0120),
      (bit w 31 && sourceOk talk && !houseSource v talk, 0x0122)]
  | 2 =>
    let on := bit w 56
    fails [(bits w 3 0 != 0 || (on && (decide (80 < bits w 41 34) || decide (60 < bits w 33 28) || decide (10000 < bits w 27 14) || decide (64 < bits w 10 4))), 0x0103),
      (on && (duckGps r).any (fun i => decide (0x110000 ≤ i)), 0x0401), (on && !sourceOk (bits w 55 42), 0x0120)]
  | _ => [0x0103]

def genCheck (v : Engine) (r : List Word64) : List Nat :=
  let w := rec0 r
  let u := rec1 r
  let m := bits w 58 56
  let inc := bits w 31 0
  fails [(bits w 39 32 != 0 || bits u 63 31 != 0 || decide (3 < m) || decide (14000 < bits w 55 40)
    || (m == 1 && (decide (inc * houseHz v < 4294967296) || decide (193273528320 < inc * 100)))
    || ((m == 2 || m == 3) && bits u 30 0 == 0), 0x0103)]

/-! ### Control -/

/-- Entries that each function of `RESET_FN` has. -/
def fnCount (fn : Nat) : Nat := [0, 0x3C, 512, 512, 4, 4, 1, 1, 1].getD fn 0

def resetCheck (r : List Word64) : List Nat :=
  let f := resetFnOf (rec1 r)
  fails [(f.1 == 0 || decide (8 < f.1) || bits (rec1 r) 55 16 != 0, 0x0103), (decide (1 ≤ f.1) && decide (f.1 ≤ 8) && decide (fnCount f.1 ≤ f.2), 0x0401)]

/-- Words 1 to 3 of a `TXN_COMMIT`, or 2 to 4 of a `SCENE_RECALL`. -/
def pointBad (w1 w3 : Word64) : Bool := decide (1 < bits w1 63 62) || bits w1 58 0 != 0 || (bit w1 61 && decide (1000000000 ≤ w3.toNat))

def commitCheck (r : List Word64) : List Nat :=
  let w1 := rec1 r
  fails [(pointBad w1 (r.getD 3 0) || (bit w1 59 && !bit w1 60) || (bit w1 60 && bits (r.getD 4 0) 31 6 != 0), 0x0103)]

/-- Bytes of a record, and entries of the table, of a query type (Table 8.7). -/
def queryShape (v : Engine) (ty i : Nat) : Nat × Nat :=
  match ty with
  | 1 => (16, 0x3400)
  | 2 => (32, 0x110000)
  | 3 => (40, 16384)
  | 4 => (4, 0x3400)
  | 5 => (8, 0x3400)
  | 6 => (8, 2 ^ 21 * (i / 2 ^ 21) + (if i / 2 ^ 21 < 256 then (tget [] v.sched.adm.sends (i / 2 ^ 21)).length else 0))
  | 7 => (16, 4096)
  | _ => (16, 8)

def queryCheck (v : Engine) (r : List Word64) : List Nat :=
  let ty := bits (rec1 r) 63 56
  let i := bits (rec1 r) 31 0
  let n := (r.getD 2 0).toNat
  let s := queryShape v ty i
  let past := if ty = 5 then decide (s.2 ≤ i) else n != 0 && decide (s.2 < i + n)
  fails [(ty == 0 || decide (8 < ty) || bits (rec1 r) 55 32 != 0, 0x0103), (!bufferOk v (r.getD 3 0).toNat (n * s.1), 0x0105), (past, 0x0401)]

/-- A stored scene; `HOST_SCENE_SIZE` = 0 disables scenes (Table 8.12). -/
def sceneAt (v : Engine) (k : Nat) : Option Scene := if getF .HOST_SCENE_SIZE_SIZE 0 v = 0 then none else tget none v.ctl.scenes k

def sceneCheck (v : Engine) (op : Nat) (r : List Word64) : List Nat :=
  let k := bits (rec1 r) 11 0
  let w1 := r.getD 2 0
  fails [(bits (rec1 r) 63 12 != 0 || (op == 0xB1 && (pointBad w1 (r.getD 4 0) || bits w1 60 59 != 0)), 0x0103),
    (op != 0xB0 && (sceneAt v k).isNone, 0x0408)]

/-- The statuses of one record of a directive that would apply at frame `a` (0 while it is staged), against the view `v`; and the view, its
free values read on. -/
def checkRec (x : Staged) (a : Nat) (r : List Word64) (v : Engine) : List Nat × Engine :=
  match x.op with
  | 0x01 => (fails [(bits (rec1 r) 63 1 != 0, 0x0103)], v)
  | 0x02 => (queryCheck v r, v)
  | 0x03 => (resetCheck r, v)
  | 0x11 => (commitCheck r, v)
  | 0x20 => (loadCheck v r, v)
  | 0x21 => (defCheck v r, v)
  | 0x22 => (linkCheck r, v)
  | 0x23 => (admitCheck v r, v)
  | 0x30 => (routeCheck v r, v)
  | 0x31 => (fallbackCheck v r, v)
  | 0x32 => (alignCheck r, v)
  | 0x40 => (gainCheck v r, v)
  | 0x41 => (gainDbCheck r, v)
  | 0x42 => (sendCheck v r, v)
  | 0x50 => (paramCheck v r, v)
  | 0x60 => ([portCfgCheck r v], v)
  | 0x61 => ([groupCheck true a r v, if bits (rec0 r) 60 59 = 2 ∧ inQuiescent v then 0x0107 else 0], v)
  | 0x62 => ([groupCheck false a r v], v)
  | 0x70 => ([refCfgCheck r v], v)
  | 0x71 => ([refPrioCheck r], v)
  | 0x80 => ([streamCheck false r v], v)
  | 0x81 => ([streamCheck true r v], v)
  | 0x82 => ([ptpCfgCheck r v], v)
  | 0x90 => ([fabCfgCheck r v], v)
  | 0x91 => if a = 0 then ([fabSlotLocal r v], v) else let c := fabSlotCheck r v; ([c.1], c.2)
  | 0xA0 => ([pairCfgCheck r], v)
  | 0xA1 => ([pairSyncCheck r v, if bits (rec0 r) 63 60 = 1 ∧ inQuiescent v then 0x0107 else 0], v)
  | 0xB0 | 0xB1 | 0xB2 => (sceneCheck v x.op r, v)
  | 0xC0 => (meterCheck v r, v)
  | 0xC1 => (loudCheck v r, v)
  | 0xC2 => (automixCheck v r, v)
  | 0xC3 => (minusCheck v r, v)
  | 0xC4 => (genCheck v r, v)
  | _ => ([], v)

/-- What the checks of a directive answer: statuses, send records held for `ADMIT` (R266), and the view. -/
structure Checked where
  statuses : List Nat
  held : Nat
  v : Engine

/-- The records of a directive in order, each against what those before it leave. -/
def checkRecs (x : Staged) (a : Nat) : List (List Word64) → Engine → Checked
  | [], v => ⟨[], 0, v⟩
  | r :: t, v =>
    let c := checkRec x a r v
    let h := (x.op == 0x42 && !liveSend v r).toNat
    let u := if t.isEmpty || firstStatus c.1 != 0 then c.2 else applyRec x 0 r c.2
    let k := checkRecs x a t u
    ⟨c.1 ++ k.statuses, h + k.held, k.v⟩

/-! ### Views -/

/-- In a view, an `ADMIT` that is still to be tested counts as accepted. -/
def viewDir (x : Staged) (e : Engine) : Engine :=
  if isSwap x then swapGraph e.sched.edit e
  else if x.op = 0x23 ∨ x.op = 0x03 then e
  else (stagedRecs x).foldl (fun e r => applyRec x 0 r e) e

/-- The state that the directives executed so far leave at the next tick (R257). -/
def viewNext (e : Engine) : Engine := (e.ctl.deferred ++ e.ctl.later.map (·.2)).foldl (fun e x => viewDir x e) e

/-- The state that the acknowledged transactions leave as well (R273). -/
def viewAcked (e : Engine) : Engine :=
  (e.ctl.txns.filter fun t => decide (t.st = .acked)).foldl (fun v t => t.staged.foldl (fun v x =>
    if isSwap x then (match t.graph with | some g => swapGraph g v | none => v) else viewDir x v) v) (viewNext e)

/-- And the directives that a transaction has staged. -/
def viewTxn (e : Engine) (t : Txn) : Engine := t.staged.foldl (fun v x => viewDir x v) (viewAcked e)

/-- The engine goes on with the free values that a view has read. -/
def fromView (v e : Engine) : Engine := { e with free := v.free }

end Sys2Proof.Machine
end

