-- ==== Sys2Proof/Machine/Transactions.lean ====
section
/-! DEFINITION. How a directive is taken from its ring (R251, R257–R259, R414): staged, deferred to the next tick, held until its condition, or
refused; and the life of a transaction: open, staged, committed, validated, acknowledged, applied (R268, R270–R278). -/
namespace Sys2Proof.Machine

/-! ### Refusal by the state of the ring and of the pair -/

/-- The directives marked "No" in Table 8.6. -/
def noTxnOp (op : Nat) : Bool := [0x01, 0x02, 0x03, 0x20, 0x82, 0x90, 0xA0, 0xA1, 0xB1, 0xB2].contains op

/-- The peer of a pair refuses every directive that changes state (R414). -/
def peerRefuses (e : Engine) (op : Nat) : Bool :=
  pairMode e != 0 && pairRole e == 3 && !([0x00, 0x01, 0x02, 0xA0, 0xA1].contains op)

/-- Ring and transaction state (R258, R259). -/
def ringStatus (e : Engine) (k op : Nat) : List Nat :=
  fails [((openTxn e k).isSome && op == 0x10, 0x0302), ((openTxn e k).isSome && noTxnOp op, 0x0106),
    ((openTxn e k).isNone && closes op, 0x0301), (peerRefuses e op, 0x0802)]

/-- The active member of a formed pair: its directives apply on both members at a stated frame (R414). -/
def pairActive (e : Engine) : Bool := pairMode e != 0 && pairRole e == 1 && isF .PAIR_STAT_FORMED 0 e
def pairLead (e : Engine) : Nat := getF .PAIR_CFG_LEAD 0 e

/-- The frame at which a directive executed now outside a transaction applies (R257, R414). -/
def nextApply (e : Engine) : Nat := frameNo e + if pairActive e then pairLead e else 1

/-- A message to the other member, by any route to its node address. -/
def toPeer (b : MsgBody) (e : Engine) : Engine :=
  match e.fab.nodes.find? fun n => n.serial == peerSerial e with
  | some n => sendMsg n.addr b e
  | none => e

/-- Forwards a directive that applies at local frame `n`. -/
def forward (n : Nat) (x : Staged) (e : Engine) : Engine :=
  toPeer (.replicate x.op ⟨x.ring, x.tag, x.flags % 128, x.words⟩ ((n : Int) + frameOfs e).toNat) e

/-! ### Completion -/

/-- Event 0x0403 for a directive whose effect ends with its completion. -/
def notifyNow (tag flags : Nat) (e : Engine) : Engine := if flags / 32 % 2 = 1 then postEvent 0x0403 [2 ^ 32 * tag] e else e

/-- A directive without later effects completes. -/
def doneDir (x : Staged) (result : Nat) (e : Engine) : Engine := notifyNow x.tag x.flags (finishDir x.ring x.op x.tag x.flags 0 result e)

def refuseX (x : Staged) (status : Nat) (e : Engine) : Engine := refuseDir x.ring x.op x.tag x.flags status e

/-- The ring waits for the directive's completion. -/
def holdDir (x : Staged) (all : Bool) (e : Engine) : Engine :=
  setRing x.ring { getRing e x.ring with hold := some ⟨x.op, x.tag, x.flags, x.words, x.n, all, if x.op = 0x23 then some (viewNext e).sched.edit else none⟩ } e

/-- The completion of the directive that a ring waits for. -/
def endHold (k status result : Nat) (e : Engine) : Engine :=
  match (getRing e k).hold with
  | some h => settleRings (finishDir k h.op h.tag h.flags status result e)
  | none => e

/-- A refusal of the directive that a ring waits for. -/
def failHold (k status : Nat) (e : Engine) : Engine := let f := takeFree e; endHold k status f.1.toNat f.2

/-! ### Staging (R270) -/

/-- Bytes of staged directive words: header and payload, the real one of an indirect directive. -/
def stagedBytes (x : Staged) : Nat := 8 * (x.words.length + 1)

/-- Bytes for cells in a directive (R268). -/
def cellBytes (x : Staged) : Nat :=
  if x.op = 0x50 then ((stagedRecs x).filter toCells).foldl (fun s r => s + bits (rec0 r) 31 0) 0 else 0

/-- The limits of a transaction (R268, R270). -/
def txnLimits (t : Txn) (x : Staged) : List Nat :=
  fails [(decide (4194304 < t.bytes + stagedBytes x), 0x0303), (decide (262144 < t.writes + stagedWrites x), 0x0304),
    (decide (4096 < cellBytes x + (t.staged.map cellBytes).foldl (· + ·) 0), 0x0103)]

/-- A directive on a ring with an open transaction is checked and staged without applying. -/
def stage (t : Txn) (x : Staged) (recs : List (List Word64)) (e : Engine) : Engine :=
  let c := checkRecs x 0 recs (viewTxn e t)
  let e := fromView c.v e
  let s := firstStatus (ringStatus e x.ring x.op ++ txnLimits t x ++ c.statuses)
  if s ≠ 0 then refuseX x s (failTxn x.ring x.tag e)
  else finishDir x.ring x.op x.tag x.flags 0 0
    (setTxn { t with staged := t.staged ++ [x], bytes := t.bytes + stagedBytes x, writes := t.writes + stagedWrites x } e)

/-! ### Opening, closing, scenes -/

def addTxn (t : Txn) (e : Engine) : Engine := refreshTxn { e with ctl := { e.ctl with txns := e.ctl.txns ++ [t] } }

def newTxn (slot : Nat) (x : Staged) : Txn :=
  { slot := slot, ring := x.ring, tag := x.tag, staged := [], bytes := 0, writes := 0, failed := none, st := .open_, commit := none, apply := 0,
    admitted := none, admRes := 0, graph := none, late := none }

/-- `TXN_OPEN` takes the lowest-numbered free slot. -/
def openDir (x : Staged) (e : Engine) : Engine :=
  let s := firstStatus (ringStatus e x.ring x.op)
  if s ≠ 0 then refuseX x s (failTxn x.ring x.tag e)
  else match freeSlot e with
    | none => refuseX x 0x0409 e
    | some slot => doneDir x slot (addTxn (newTxn slot x) e)

/-- `TXN_ABORT`: RESULT is the writes discarded. -/
def abortDir (x : Staged) (e : Engine) : Engine :=
  match firstStatus (ringStatus e x.ring x.op), openTxn e x.ring with
  | 0, some t => doneDir x t.writes (dropTxn t.slot e)
  | s, _ => refuseX x s (failTxn x.ring x.tag e)

/-- Bytes of the stored scenes other than `k`. -/
def sceneBytes (e : Engine) (k : Nat) : Nat :=
  (e.ctl.scenes.filterMap fun p => if p.1 = k then none else p.2.map (·.bytes)).foldl (· + ·) 0

/-- A failed transaction's closing directive: RESULT holds the tag of the first refused directive. -/
def failedDir (x : Staged) (tag : Nat) (e : Engine) : Engine := finishDir x.ring x.op x.tag x.flags 0x030C (2 ^ 32 * tag) e

/-- `SCENE_STORE` closes the transaction and stores it, refused where the area cannot hold it, as when its size is 0; a pair's active passes the scene to the peer. -/
def storeDir (x : Staged) (recs : List (List Word64)) (e : Engine) : Engine :=
  let c := checkRecs x 0 recs e
  let k := bits (rec1 x.words) 11 0
  match openTxn e x.ring with
  | none => refuseX x (firstStatus (ringStatus e x.ring x.op ++ c.statuses)) e
  | some t =>
    let mb := getF .HOST_SCENE_SIZE_SIZE 0 e
    let full := mb == 0 || decide (1048576 * mb < sceneBytes (viewNext e) k + t.bytes)
    let s := firstStatus (ringStatus e x.ring x.op ++ c.statuses ++ fails [(full, 0x0407)])
    let e := dropTxn t.slot e
    match t.failed with
    | some tag => failedDir x tag e
    | none =>
      if s ≠ 0 then refuseX x s e
      else
        let sc : Scene := { staged := t.staged, writes := t.writes, bytes := t.bytes, frame := frameNo e, n := x.n }
        let e := { e with ctl := { e.ctl with scenes := tput none e.ctl.scenes k (some sc) } }
        let e := if pairActive e then
            toPeer (.scene k (t.staged.map fun y => (y.op, ⟨y.ring, y.tag, y.flags % 128, y.words⟩)) t.writes t.bytes sc.frame) e else e
        doneDir x k e

/-- The commit of words 1 to 5 of a payload. -/
def commitOf (x : Staged) (ws : List Word64) : Commit :=
  { op := x.op, tag := x.tag, flags := x.flags, w1 := ws.getD 0 0, w2 := ws.getD 1 0, w3 := ws.getD 2 0, w4 := ws.getD 3 0, w5 := ws.getD 4 0, n := x.n }

/-- `TXN_COMMIT` closes the transaction and starts its validation; refused, it ends it. -/
def commitDir (x : Staged) (recs : List (List Word64)) (e : Engine) : Engine :=
  let c := checkRecs x 0 recs e
  match openTxn e x.ring with
  | none => refuseX x (firstStatus (ringStatus e x.ring x.op ++ c.statuses)) e
  | some t =>
    let s := firstStatus (ringStatus e x.ring x.op ++ c.statuses)
    match t.failed with
    | some tag => failedDir x tag (dropTxn t.slot e)
    | none =>
      if s ≠ 0 then refuseX x s (dropTxn t.slot e)
      else holdDir x false (setTxn { t with st := .validating, commit := some (commitOf x (x.words.drop 1)) } e)

/-- A directive that is a transaction by itself (R261, R268): EARLIEST, apply frame 0. -/
def aloneDir (x : Staged) (recs : List (List Word64)) (e : Engine) : Engine :=
  let c := checkRecs x 0 recs (viewAcked e)
  let e := fromView c.v e
  match freeSlot e with
  | none => refuseX x (firstStatus (ringStatus e x.ring x.op ++ c.statuses ++ [0x0409])) e
  | some slot =>
    let t := newTxn slot x
    let s := firstStatus (ringStatus e x.ring x.op ++ txnLimits t x ++ c.statuses)
    if s ≠ 0 then refuseX x s e
    else
      let t := { t with staged := [x], bytes := stagedBytes x, writes := stagedWrites x, st := .validating
                        commit := some (commitOf x [BitVec.ofNat 64 (2 ^ 62), 0, 0]) }
      holdDir x false (addTxn t e)

/-- `SCENE_RECALL` copies the scene into a slot and goes on as its commit. -/
def recallDir (x : Staged) (recs : List (List Word64)) (e : Engine) : Engine :=
  let c := checkRecs x 0 recs (viewNext e)
  let slot := freeSlot e
  let s := firstStatus (ringStatus e x.ring x.op ++ c.statuses ++ fails [(slot.isNone, 0x0409)])
  match slot, sceneAt (viewNext e) (bits (rec1 x.words) 11 0) with
  | some slot, some sc =>
    if s ≠ 0 then refuseX x s e
    else
      let t := { newTxn slot x with staged := sc.staged.map fun y => { y with ring := x.ring, n := x.n }, bytes := sc.bytes, writes := sc.writes, st := .validating
                                    commit := some (commitOf x (x.words.drop 2)) }
      holdDir x false (addTxn t e)
  | _, _ => refuseX x s e

/-! ### Directives outside a transaction -/

/-- RESULT of a directive that applies at the next tick (Table 8.6). Where no chapter gives one it is free. -/
def resultOf (x : Staged) (recs : List (List Word64)) (held : Nat) (e : Engine) : Nat × Engine :=
  match x.op with
  | 0x20 => ((healthyCells e (bits (rec1 x.words) 31 0)).length, e)
  | 0x21 | 0x22 | 0x32 => (0, e)
  | 0x42 => (held, e)
  | 0x61 | 0x62 => (groupResult (recs.getLastD []) e, e)
  | 0xB2 => (bits (rec1 x.words) 11 0, e)
  | 0x80 | 0x81 | 0x82 | 0x90 | 0xA0 => let f := takeFree e; (f.1.toNat, f.2)
  | _ => (nextApply e, e)

/-- A directive waits for the tick at which it applies. -/
def deferAt (x : Staged) (e : Engine) : Engine :=
  if pairActive e then
    let n := nextApply e
    forward n x { e with ctl := { e.ctl with later := e.ctl.later ++ [(n, x)] } }
  else { e with ctl := { e.ctl with deferred := e.ctl.deferred ++ [x] } }

/-- A directive that applies from the tick after the frame in which it executes, and completes now (R257). -/
def deferDir (x : Staged) (recs : List (List Word64)) (e : Engine) : Engine :=
  let c := checkRecs x (nextApply e) recs (viewNext e)
  let e := fromView c.v e
  let s := firstStatus (ringStatus e x.ring x.op ++ c.statuses)
  if s ≠ 0 then refuseX x s e
  else
    let r := resultOf x recs c.held e
    finishDir x.ring x.op x.tag x.flags 0 r.1 (deferAt x r.2)

/-- A directive that completes by a command of its own: a fence, a dry admission. -/
def waitDir (x : Staged) (recs : List (List Word64)) (e : Engine) : Engine :=
  let c := checkRecs x 0 recs (viewNext e)
  let s := firstStatus (ringStatus e x.ring x.op ++ c.statuses)
  if s ≠ 0 then refuseX x s e else holdDir x (x.op == 0x01 && bit (rec1 x.words) 0) e

/-! ### `QUERY` (R260, Table 8.7) -/

/-- A sink entry (Table 6.16). -/
def sinkEntry (v : Engine) (t : Nat) : List Word64 :=
  let k := getSink v t
  let d := sinkDom v t
  let st := match k.st with | .steady => 0 | .zcwait => 1 | .fade => 2 | .fbfade => 3 | .fbact => 4
  let p := match k.pend with | some r => (r.src, r.mode, r.len) | none => (0x3FFF, 0, 0)
  [BitVec.ofNat 64 (2 ^ 48 * k.cur + 2 ^ 32 * p.1 + 2 ^ 16 * k.fb + k.out),
   BitVec.ofNat 64 (2 ^ 61 * st + 2 ^ 58 * k.mode + 2 ^ 56 * k.len + 2 ^ 53 * p.2.1 + 2 ^ 51 * p.2.2 + 2 ^ 50 * k.revert.toNat + 2 ^ 46 * k.concN
     + 2 ^ 44 * d.1 + 2 ^ 40 * d.2 + 2 ^ 29 * min k.pos 2047)]

/-- BIND of a gain point: its sink, the feed that it scales, or the talk source. -/
def bindOf (v : Engine) (i : Nat) : Nat :=
  let b := (getGp v i).bind
  if b ≠ 0xFFFF then b
  else match v.mix.feeds.find? fun p => match p.2 with | some f => f.gp == i || (f.talk != 0x3FFF && f.talkGp == i) | none => false with
    | some (k, some f) => if f.gp = i then 0x3220 + k else f.talk
    | _ => 0xFFFF

/-- A gain-point entry (Table 7.19). -/
def gpEntry (v : Engine) (i : Nat) : List Word64 :=
  let p := getGp v i
  let st := match p.st with | .steady => 0 | .zcwait => 1 | .ramp => 2
  [BitVec.ofNat 64 (2 ^ 32 * p.g + p.t), BitVec.ofNat 64 (2 ^ 32 * p.h + p.m),
   BitVec.ofNat 64 (2 ^ 62 * st + 2 ^ 61 * p.next.isSome.toNat + 2 ^ 60 * p.defer.toNat + 2 ^ 52 * p.timeout + 2 ^ 41 * p.ramp + 2 ^ 26 * min p.pos 32767),
   BitVec.ofNat 64 (2 ^ 32 * p.next.getD 0 + bindOf v i)]

/-- A descriptor and its state word: the edit graph's where it is defined there, else the admitted one. -/
def descEntry (v : Engine) (i : Nat) : List Word64 :=
  let a := tget Quad.zero v.sched.adm.items i
  let d := tget Quad.zero v.sched.edit.items i
  let d := if dValid d then d else a
  [d.w0, d.w1, d.w2, d.w3, BitVec.ofNat 64 (2 ^ 63 * (v.sched.shed.contains i).toNat + 2 ^ 62 * (dValid a).toNat)]

/-- Ledger detail of a sink: one entry for each source that contributes. -/
def detailEntries (v : Engine) (t : Nat) : List Word64 :=
  (sinkLedger (latCtx v v.sched.adm) t).map fun l =>
    BitVec.ofNat 64 (2 ^ 48 * l.src + 2 ^ 32 * min l.hi 65535 + 2 ^ 31 * l.cyc.toNat + 2 ^ 30 * l.asrc.toNat + 2 ^ 24 * (l.hops % 64))

def sceneEntry (v : Engine) (k : Nat) : List Word64 :=
  match sceneAt v k with
  | some s => [BitVec.ofNat 64 (2 ^ 52 * k + 2 ^ 32 * (s.writes % 2 ^ 20) + s.bytes % 2 ^ 32), BitVec.ofNat 64 s.frame]
  | none => [0, 0]

/-- Transaction state of a ring. -/
def txnEntry (v : Engine) (k : Nat) : List Word64 :=
  match v.ctl.txns.find? fun t => t.ring == k with
  | none => [0, 0]
  | some t =>
    let c := if t.st = .open_ then (if t.failed.isSome then 2 else 1) else if t.st = .acked then 3 else 1
    [BitVec.ofNat 64 (2 ^ 61 * c + 2 ^ 58 * t.slot), BitVec.ofNat 64 t.apply]

/-- The bytes of record `i` of a query type. -/
def queryRecord (v : Engine) (ty i : Nat) : List Byte :=
  match ty with
  | 1 => wordBytes (sinkEntry v i)
  | 2 => wordBytes (gpEntry v i)
  | 3 => wordBytes (descEntry v i)
  | 4 => leBytes (getSink v i).count 4
  | 6 => wordBytes [(tget [] v.sched.adm.sends (i / 2 ^ 21)).getD (i % 2 ^ 21) 0]
  | 7 => wordBytes (sceneEntry v i)
  | _ => wordBytes (txnEntry v i)

/-- `QUERY` writes its records and completes with the byte count. -/
def queryDir (x : Staged) (recs : List (List Word64)) (e : Engine) : Engine :=
  let v := viewNext e
  let c := checkRecs x 0 recs v
  let e := fromView c.v e
  let s := firstStatus (ringStatus e x.ring x.op ++ c.statuses)
  if s ≠ 0 then refuseX x s e
  else
    let w1 := rec1 x.words
    let ty := bits w1 63 56
    let i := bits w1 31 0
    let n := (x.words.getD 2 0).toNat
    let bs := if ty = 5 then wordBytes ((detailEntries v i).take n) else (List.range n).flatMap fun j => queryRecord v ty (i + j)
    let e := match hostAt e (x.words.getD 3 0).toNat bs.length with | some a => writeBytes a bs e | none => e
    doneDir x bs.length e

/-! ### The other directives that act when they execute -/

/-- `RESET_FN` begins at once; it completes with the function (R476). -/
def resetDir (x : Staged) (recs : List (List Word64)) (e : Engine) : Engine :=
  let c := checkRecs x 0 recs e
  let s := firstStatus (ringStatus e x.ring x.op ++ c.statuses)
  if s ≠ 0 then refuseX x s e else applyReset x x.words (holdDir x false e)

/-- `PAIR_SYNC`: a resync starts at once, a handover completes at its frame (R419, R425). -/
def pairSyncDir (x : Staged) (recs : List (List Word64)) (e : Engine) : Engine :=
  let c := checkRecs x 0 recs e
  let s := firstStatus (ringStatus e x.ring x.op ++ c.statuses)
  if s ≠ 0 then refuseX x s e
  else
    let e := recs.foldl (fun e r =>
      if bits (rec0 r) 63 60 = 0 then applyResync e else applyHandover x.ring x.tag (rec1 r).toNat (holdDir x false e)) e
    if (getRing e x.ring).hold.isSome then e
    else let f := takeFree e; doneDir x f.1.toNat f.2

/-! ### One directive (R257) -/

/-- The directive `d` of opcode `op`, parsed, acts. -/
def actDir (x : Staged) (recs : List (List Word64)) (e : Engine) : Engine :=
  match x.op with
  | 0x10 => openDir x e
  | 0x11 => commitDir x recs e
  | 0x12 => abortDir x e
  | 0xB0 => storeDir x recs e
  | _ =>
    match openTxn e x.ring with
    | some t => stage t x recs e
    | none =>
      match x.op with
      | 0x00 => if peerRefuses e 0 then refuseX x 0x0802 e else doneDir x 0 e
      | 0x01 => waitDir x recs e
      | 0x02 => queryDir x recs e
      | 0x03 => resetDir x recs e
      | 0x23 => if bit (x.words.getD 2 0) 32 then waitDir x recs e else aloneDir x recs e
      | 0x50 => aloneDir x recs e
      | 0xA1 => pairSyncDir x recs e
      | 0xB1 => recallDir x recs e
      | _ => deferDir x recs e

/-- A directive whose format is wrong: a closing one ends the transaction that it would have closed, another marks it failed (R270). -/
def malformed (x : Staged) (status : Nat) (e : Engine) : Engine :=
  match openTxn e x.ring with
  | some t => refuseX x status (if x.op = 0x11 ∨ x.op = 0xB0 then dropTxn t.slot e else failTxn x.ring x.tag e)
  | none => refuseX x status e

/-- The supervisor takes directive `d` of opcode `op`, when it is the next one. -/
def runDir (op : Nat) (d : Dir) (e : Engine) : Engine :=
  if !frontIs op d e then e
  else
    let e := popDir d.ring e
    let p := parse e op d
    let x : Staged := ⟨op, d.ring, d.tag, d.flags, p.words, e.ctl.count⟩
    settleRings (if p.status ≠ 0 then malformed x p.status e else actDir x p.recs e)

end Sys2Proof.Machine
end

