-- ==== Sys2Proof/Machine/Commit.lean ====
section
/-! DEFINITION. What ends a wait of the control plane: admission results, acknowledgements, fences, function resets and mirrors; the
application of directives and transactions at a tick (R257, R259, R263, R268, R271–R275, R476); and changes across the fabric (R279–R282). -/
namespace Sys2Proof.Machine

/-! ### Admission results (R261, R263) -/

/-- The result buffer of Table 8.8, without the apply frame. -/
def admWords (r : AdmRes) (e : Engine) : List Word64 :=
  [0, BitVec.ofNat 64 (2 ^ 32 * r.b + admWindow e), BitVec.ofNat 64 (2 ^ 52 * r.part + 2 ^ 32 * r.share + r.mask),
   BitVec.ofNat 64 r.ledger.length] ++ r.ledger

/-- Writes into the buffer that words 1 and 2 of an `ADMIT` name, as many entries as fit. -/
def writeAdm (ws : List Word64) (out : List Word64) (e : Engine) : Engine :=
  let n := min out.length (bits (ws.getD 2 0) 31 0 / 8)
  match hostAt e (ws.getD 1 0).toNat (8 * n) with
  | some a => writeWords a (out.take n) e
  | none => e

/-- RESULT of an `ADMIT` (Table 8.6). -/
def admResult (r : AdmRes) : Nat := 2 ^ 32 * r.b + 2 ^ 16 * r.mask + r.share

/-- What the admission runs of a transaction give: first status that is not 0, RESULT of the last, the accepted graph, the engine. -/
structure Admitted where
  status : Nat
  res : Nat
  graph : Option Graph
  e : Engine

/-- Runs the `ADMIT` directives of a transaction in order, on the view that the directives before each leave. A dry one only tests. -/
def runAdmits : List Staged → Engine → Admitted → Admitted
  | [], _, k => k
  | x :: t, v, k =>
    if x.op = 0x23 then
      let r := admitRun { v with free := k.e.free } v.sched.edit (x.words.getD 3 0).toNat
      let e := showRun r.1 (writeAdm x.words (admWords r.1 k.e) (fromView r.2 k.e))
      if isSwap x then
        let ok := decide (r.1.status = 0)
        runAdmits t (if ok then swapGraph r.1.graph v else v)
          ⟨if k.status = 0 then r.1.status else k.status, admResult r.1, if ok then some r.1.graph else k.graph, e⟩
      else runAdmits t v { k with e := e, res := admResult r.1 }
    else runAdmits t (viewDir x v) k

/-- The admission runs of the transaction. -/
def admitTxn (t : Txn) (e : Engine) : Engine :=
  let k := runAdmits t.staged (viewAcked e) ⟨0, 0, none, e⟩
  setTxn { t with admitted := some k.status, admRes := k.res, graph := k.graph } k.e

/-- The transaction holds an `ADMIT`. -/
def hasAdmit (t : Txn) : Bool := t.staged.any fun x => x.op == 0x23

/-- A dry `ADMIT` outside a transaction ends: it tests the edit graph as it stood when it executed. -/
def dryResult (k : Nat) (h : Hold) (e : Engine) : Engine :=
  let v := viewNext e
  let r := admitRun v (h.graph.getD v.sched.edit) (h.words.getD 3 0).toNat
  let e := showRun r.1 (writeAdm h.words (admWords r.1 e) (fromView r.2 e))
  endHold k r.1.status (admResult r.1) (if r.1.status = 0 then notifyNow h.tag h.flags e else e)

def effAdmissionResult (k : Nat) (e : Engine) : Engine :=
  if !supUp e then e
  else match txnOfRing e k .validating with
    | some t => if hasAdmit t ∧ t.admitted = none then admitTxn t e else e
    | none => match (getRing e k).hold with
      | some h => if h.op = 0x23 then dryResult k h e else e
      | none => e

def execAdmissionResult (ring : Nat) (s : State) : Host.Outcome State Fault Refusal :=
  runLive "ADMISSION_RESULT" (Instr.admissionResult ring).wf (effAdmissionResult ring) s

/-! ### Validation and acknowledgement (R271–R273) -/

/-- The records of a transaction checked against the state that they will find at frame `a`. -/
def recheck (a : Nat) (g : Option Graph) : List Staged → Engine → Nat × Engine
  | [], v => (0, v)
  | x :: t, v =>
    let c := checkRecs x a (stagedRecs x) v
    let s := firstStatus c.statuses
    if s ≠ 0 then (s, c.v)
    else
      let v := fromView c.v v
      recheck a g t (if isSwap x then (match g with | some g => swapGraph g v | none => v) else viewDir x v)

def wantsPtp (c : Commit) : Bool := bit c.w1 61
def isFabric (c : Commit) : Bool := c.op == 0x11 && bit c.w1 60
def isCoord (c : Commit) : Bool := isFabric c && bit c.w1 59
def fabricId (c : Commit) : Nat := bits c.w4 63 32

/-- The frame that the commit requests (R271), a fabric one converted to this node's numbering. -/
def requested (c : Commit) (e : Engine) : Nat :=
  if wantsPtp c then ptpFrame e (1000000000 * c.w2.toNat + c.w3.toNat)
  else if isFabric c then ((c.w2.toNat : Int) - frameOfs e).toNat
  else c.w2.toNat

/-- The earliest achievable frame (R272, R414). -/
def earliest (t : Txn) (e : Engine) : Nat :=
  let a := frameNo e + 2 + ceilDiv t.writes 16384
  let regs := (t.staged.filter fun x => x.op == 0x50).flatMap fun x => (((stagedRecs x).filter fun r => !toCells r).map paramRegion)
  let a := regs.foldl (fun a g => if bitF .HOST_PARAM_ACT_MIRROR 0 g e then max a (tget 0 e.ctl.mirrorLast g + 1) else a) a
  if pairActive e then max a (frameNo e + pairLead e) else a

/-- Another graph change is acknowledged and has not applied. -/
def graphPending (e : Engine) (slot : Nat) : Bool :=
  e.ctl.txns.any fun t => t.slot != slot && (decide (t.st = .acked) || decide (t.st = .prepared) || decide (t.st = .doubt)) && t.staged.any isSwap

/-- The outcome of a validation: status, apply frame, and the engine. `exact` gives the frame of an EXACT commit. -/
def validateAt (t : Txn) (exact : Option Nat) (req : Nat) (ptpBad : Bool) (e : Engine) : Nat × Nat × Engine :=
  let a := earliest t e
  let at_ := match exact with | some n => n | none => max req a
  let early := match exact with
    | some n => fails [(decide (n < frameNo e), 0x0306), (decide (n < a), 0x0305)]
    | none => []
  let r := recheck at_ t.graph t.staged (viewAcked e)
  let e := fromView r.2 e
  (firstStatus (early ++ fails [(t.staged.any isSwap && graphPending e t.slot, 0x030B), (ptpBad, 0x0601)] ++ [t.admitted.getD 0, r.1]), at_, e)

def validateTxn (t : Txn) (c : Commit) (e : Engine) : Nat × Nat × Engine :=
  let req := requested c e
  validateAt t (if bits c.w1 63 62 = 0 then some req else none) req (wantsPtp c && !ptpLocked e) e

/-- The transaction is acknowledged for frame `n`: it moves behind those acknowledged before, its admission buffers get the frame, and a
pair's active forwards its directives. -/
def acknowledge (t : Txn) (n : Nat) (e : Engine) : Engine :=
  let t := { t with st := TxnSt.acked, apply := n }
  let own := match t.commit with | some c => if isFabric c then [fabricId c] else [] | none => []
  let e := refreshTxn { e with ctl := { e.ctl with txns := (e.ctl.txns.filter fun x => x.slot != t.slot) ++ [t], outcomes := own ++ e.ctl.outcomes } }
  let e := t.staged.foldl (fun e x => if isSwap x then writeAdm x.words [BitVec.ofNat 64 n] e else e) e
  if pairActive e then t.staged.foldl (fun e x => forward n x e) e else e

/-- RESULT of an acknowledged commit. -/
def ackResult (t : Txn) (c : Commit) (n : Nat) : Nat := if c.op = 0x23 then t.admRes else n

/-- A refused commit: nothing of the transaction applies. A one-directive `ADMIT` still answers its result. -/
def refuseTxn (t : Txn) (c : Commit) (status : Nat) (e : Engine) : Engine :=
  let e := dropTxn t.slot e
  if c.op = 0x23 then endHold t.ring status t.admRes e else failHold t.ring status e

/-- This node's bit in a participant mask. -/
def ownBit (e : Engine) : Nat := 2 ^ (ownAddr e % 64)

/-- A broadcast to the other participants. -/
def toNodes (mask : Nat) (b : MsgBody) (e : Engine) : Engine :=
  ((List.range 64).filter fun a => mask / 2 ^ a % 2 == 1 && a != ownAddr e).foldl (fun e a => sendMsg a b e) e

/-- The transaction of a fabric-wide change. -/
def fabricTxn (e : Engine) (id : Nat) : Option (Txn × Commit) :=
  e.ctl.txns.findSome? fun t => match t.commit with
    | some c => if isFabric c && fabricId c == id && !decide (t.st = .acked) then some (t, c) else none
    | none => none

def setCoord (id : Nat) (v : Option Coord) (e : Engine) : Engine := { e with ctl := { e.ctl with coords := tput none e.ctl.coords id v } }

/-- When all participants have answered before the tick of p − 2, the coordinator broadcasts ALL_PREPARED, and its own part is
acknowledged. -/
def checkPrepared (id : Nat) (e : Engine) : Engine :=
  match tget none e.ctl.coords id with
  | none => e
  | some c =>
    let all := (List.range 64).all fun a => c.mask / 2 ^ a % 2 == 0 || c.prepared / 2 ^ a % 2 == 1
    if c.done || !all || !decide (fabFrame e < (c.p : Int) - 2) then e
    else
      let e := toNodes c.mask (.allPrepared id) (setCoord id (some { c with done := true }) e)
      match fabricTxn e id with
      | some (t, _) => endHold t.ring 0 t.apply (acknowledge t t.apply e)
      | none => e

/-- The coordinator has validated its own part and sends PREPARE (R280). -/
def coordinate (t : Txn) (c : Commit) (n : Nat) (e : Engine) : Engine :=
  let p := ((n : Int) + frameOfs e).toNat
  let mask := c.w5.toNat
  let e := setTxn { t with st := .prepared, apply := n } e
  let e := setCoord (fabricId c) (some { mask := mask, prepared := ownBit e, p := p, ring := t.ring, done := false }) e
  checkPrepared (fabricId c) (toNodes mask (.prepare (fabricId c) p) e)

/-- The coordinator's own part fails validation: it broadcasts ABORT and names itself as the refusing node (R280). -/
def refuseCoord (t : Txn) (c : Commit) (e : Engine) : Engine :=
  endHold t.ring 0x0702 (ownAddr e) (dropTxn t.slot (toNodes c.w5.toNat (.abort (fabricId c)) e))

/-- Validation ends: the commit of the ring is acknowledged or refused. A participant's waits for its PREPARE. -/
def effTxnAcknowledge (k : Nat) (e : Engine) : Engine :=
  if !supUp e then e
  else match txnOfRing e k .validating with
    | none => e
    | some t =>
      match t.commit with
      | none => e
      | some c =>
        if (hasAdmit t && t.admitted.isNone) || (isFabric c && !isCoord c) then e
        else
          let r := validateTxn t c e
          if r.1 ≠ 0 then (if isCoord c then refuseCoord t c r.2.2 else refuseTxn t c r.1 r.2.2)
          else if isCoord c then coordinate t c r.2.1 r.2.2
          else endHold k 0 (ackResult t c r.2.1) (acknowledge t r.2.1 r.2.2)

def execTxnAcknowledge (ring : Nat) (s : State) : Host.Outcome State Fault Refusal :=
  runLive "TXN_ACKNOWLEDGE" (Instr.txnAcknowledge ring).wf (effTxnAcknowledge ring) s

/-! ### Changes across the fabric (R279–R282) -/

/-- A participant receives PREPARE: it validates its part for frame p, and answers. A node that has committed no such part refuses, with a
status that the spec does not give. While the supervisor restarts no reliable message is taken (Table 1.8). -/
def effPrepare (id p src : Nat) (e : Engine) : Engine :=
  if !supUp e then e
  else match fabricTxn e id with
  | none => let f := takeFree e; sendMsg src (.prepared id (1 + f.1.toNat % 65535)) f.2
  | some (t, c) =>
    if t.st ≠ .validating then e
    else
      let e := if hasAdmit t ∧ t.admitted = none then admitTxn t e else e
      let t := ((e.ctl.txns.find? fun x => x.slot == t.slot).getD t)
      let n := ((p : Int) - frameOfs e).toNat
      let r := validateAt t (some n) n false e
      let e := r.2.2
      if r.1 ≠ 0 then sendMsg src (.prepared id r.1) (refuseTxn t c r.1 e)
      else sendMsg src (.prepared id 0) (endHold t.ring 0 n (setTxn { t with st := .prepared, apply := n } e))

def execPrepare (id p src : Nat) (s : State) : Host.Outcome State Fault Refusal :=
  runLive "PREPARE" (Instr.prepare id p src).wf (effPrepare id p src) s

/-- The coordinator gives up: ABORT to all, and its commit completes with the node in RESULT [5:0]. -/
def abandonFabric (id status node : Nat) (c : Coord) (e : Engine) : Engine :=
  let e := setCoord id none (toNodes c.mask (.abort id) e)
  match fabricTxn e id with
  | some (t, _) => endHold t.ring status node (dropTxn t.slot e)
  | none => e

/-- A participant's answer reaches the coordinator. -/
def effPrepared (id node status : Nat) (e : Engine) : Engine :=
  if !supUp e then e
  else match tget none e.ctl.coords id with
  | none => e
  | some c =>
    if c.done ∨ c.mask / 2 ^ node % 2 = 0 then e
    else if status ≠ 0 then abandonFabric id 0x0702 node c e
    else checkPrepared id (setCoord id (some { c with prepared := setBit c.prepared node true }) e)

def execPrepared (id node status : Nat) (s : State) : Host.Outcome State Fault Refusal :=
  runLive "PREPARED" (Instr.prepared id node status).wf (effPrepared id node status) s

/-- The tick of p − 2 without every PREPARED: `u` is the unreachable node. -/
def effFabricPrepareDeadline (id u : Nat) (e : Engine) : Engine :=
  match tget none e.ctl.coords id with
  | none => e
  | some c =>
    if c.done || c.mask / 2 ^ u % 2 == 0 || c.prepared / 2 ^ u % 2 == 1 || decide (fabFrame e < (c.p : Int) - 2) then e
    else abandonFabric id 0x0701 u c e

def execFabricPrepareDeadline (id unreachable : Nat) (s : State) : Host.Outcome State Fault Refusal :=
  runLive "FABRIC_PREPARE_DEADLINE" (Instr.fabricPrepareDeadline id unreachable).wf (effFabricPrepareDeadline id unreachable) s

/-- A transaction in doubt will apply at m + 2, and be reported then (R281, R282). -/
def applyLate (t : Txn) (e : Engine) : Engine := acknowledge { t with late := some (frameNo e + 2 - t.apply) } (frameNo e + 2) e

def effAllPrepared (id : Nat) (e : Engine) : Engine :=
  if !supUp e then e
  else match fabricTxn e id with
  | none => e
  | some (t, _) => match t.st with
    | .prepared => if frameNo e + 1 < t.apply then acknowledge t t.apply e else applyLate t e
    | .doubt => applyLate t e
    | _ => e

def execAllPrepared (id : Nat) (s : State) : Host.Outcome State Fault Refusal :=
  runLive "ALL_PREPARED" (Instr.allPrepared id).wf (effAllPrepared id) s

/-- A node receives ABORT: it discards its part. -/
def effAbort (id : Nat) (e : Engine) : Engine :=
  if !supUp e then e
  else match fabricTxn e id with
  | none => e
  | some (t, c) =>
    if isCoord c then e
    else
      let e := postEvent 0x0402 [2 ^ 32 * t.tag + 0x0703 * 2 ^ 16 + t.ring] (dropTxn t.slot e)
      if t.st = .validating then failHold t.ring 0x0703 e else e

def execAbort (id : Nat) (s : State) : Host.Outcome State Fault Refusal := runLive "ABORT" (Instr.abort id).wf (effAbort id) s

/-- The tick of p − 1 without ALL_PREPARED. -/
def effInDoubtEntry (id : Nat) (e : Engine) : Engine :=
  match fabricTxn e id with
  | none => e
  | some (t, c) => if t.st = .prepared ∧ !isCoord c ∧ t.apply ≤ frameNo e + 1 then setTxn { t with st := .doubt } e else e

def execInDoubtEntry (id : Nat) (s : State) : Host.Outcome State Fault Refusal :=
  runLive "IN_DOUBT_ENTRY" (Instr.inDoubtEntry id).wf (effInDoubtEntry id) s

/-- 100 ms in doubt: the node asks every node that it knows, and learns whether any participant applied. -/
def effInDoubtTimeout (id : Nat) (applied : Bool) (e : Engine) : Engine :=
  match fabricTxn e id with
  | none => e
  | some (t, _) =>
    if t.st ≠ .doubt then e
    else
      let e := (e.fab.nodes.filter fun n => n.addr != ownAddr e).foldl (fun e n => sendMsg n.addr (.ask id) e) e
      if applied then applyLate t e
      else postEvent 0x0405 [2 ^ 32 * id + ownAddr e % 64] (dropTxn t.slot e)

def execInDoubtTimeout (id : Nat) (applied : Bool) (s : State) : Host.Outcome State Fault Refusal :=
  runLive "IN_DOUBT_TIMEOUT" (Instr.inDoubtTimeout id applied).wf (effInDoubtTimeout id applied) s

/-- The coordinator learns of a late apply. -/
def effLateApplyReport (id node k : Nat) (e : Engine) : Engine :=
  if supUp e && (tget none e.ctl.coords id).isSome then postEvent 0x0404 [2 ^ 32 * (id % 2 ^ 32) + k % 256 * 256 + node % 64] e else e

def execLateApplyReport (id node k : Nat) (s : State) : Host.Outcome State Fault Refusal :=
  runLive "LATE_APPLY_REPORT" (Instr.lateApplyReport id node k).wf (effLateApplyReport id node k) s

/-! ### Fences, function resets, mirrors -/

/-- Nothing executed before place `n` on ring `k` (or on any, under `all`) has still to apply, or goes on. -/
def fenceMet (k n : Nat) (all : Bool) (e : Engine) : Bool :=
  let on := fun r => all || r == k
  (e.ctl.deferred.all fun x => !(on x.ring && decide (x.n < n)))
  && (e.ctl.later.all fun p => !(on p.2.ring && decide (p.2.n < n)))
  && (e.ctl.txns.all fun t => match t.commit with | some c => !(on t.ring && decide (c.n < n)) | none => true)
  && (e.ctl.effects.all fun f => !(on f.ring && decide (f.n < n)))

def effFenceComplete (k : Nat) (e : Engine) : Engine :=
  if !supUp e then e
  else match (getRing e k).hold with
    | some h =>
      if h.op = 0x01 ∧ fenceMet k h.n h.all e then notifyNow h.tag h.flags (endHold k 0 (frameNo e) e) else e
    | none => e

def execFenceComplete (ring : Nat) (s : State) : Host.Outcome State Fault Refusal :=
  runLive "FENCE_COMPLETE" (Instr.fenceComplete ring).wf (effFenceComplete ring) s

/-- The summing engine's tables are whole again and its gain points restart STEADY at their targets (Table 15.9). -/
def rebuildSumming (e : Engine) : Engine :=
  let e := { e with ecc := e.ecc.filter fun p => !(decide (0x20480000 ≤ p.1) && decide (p.1 < 0x20700000)) }
  refreshPend (e.mix.gps.foldl (fun e p =>
    let t := p.2.next.getD p.2.t
    setGp p.1 { p.2 with g := t, t := t, st := .steady, next := none, pos := 0, defer := false } e) e)

/-- What a function does when it resumes (Table 15.9). -/
def resumeFn (fn idx : Nat) (e : Engine) : Engine :=
  match fn with
  | 1 => if (getPort e idx).reset then e else restartPort idx e
  | 6 => setF .DDRC_STAT_STATE 0 2 { e with xmem := { e.xmem with drift := [] } }
  | 8 => rebuildSumming e
  | _ => e

/-- `RESET_FN` ends (R475–R477): the function resumes, or stays as it is; every directive that waits for it completes, and event 0x0B02 is
posted. The second failure of one function within 60 s requests a warm reset with cause 0x03. -/
def effResetFnComplete (fn idx : Nat) (ok : Bool) (e : Engine) : Engine :=
  if !resetBusy e fn idx then e
  else
    let mine := e.ctl.resetFn.filter fun r => r.1 == fn && r.2.1 == idx
    let rest := e.ctl.resetFn.filter fun r => !(r.1 == fn && r.2.1 == idx)
    let e := { e with ctl := { e.ctl with resetFn := if ok then rest else rest ++ [(fn, idx, 0, 9)] } }
    let e := if ok then resumeFn fn idx e
      else
        let l := e.host.fnLog.filter fun r => r.1 == fn && r.2.1 == idx && r.2.2.2 && decide (aoSec e ≤ r.2.2.1 + 60)
        let e := { e with host := { e.host with fnLog := e.host.fnLog ++ [(fn, idx, aoSec e, true)] } }
        if l.isEmpty then e else requestWarm 0x03 e
    let e := postEvent 0x0B02 [2 ^ 56 * fn + 2 ^ 32 * (idx % 65536) + if ok then 0 else 0x0502] e
    mine.foldl (fun e r =>
      match (getRing e r.2.2.2).hold with
      | some h =>
        if r.2.2.2 < 8 ∧ h.op = 0x03 ∧ h.tag = r.2.2.1 then
          (if ok then notifyNow h.tag h.flags (endHold r.2.2.2 0 (frameNo e) e) else failHold r.2.2.2 0x0502 e)
        else e
      | none => e) e

def execResetFnComplete (fn idx : Nat) (ok : Bool) (s : State) : Host.Outcome State Fault Refusal :=
  runLive "RESET_FN_COMPLETE" (Instr.resetFnComplete fn idx ok).wf (effResetFnComplete fn idx ok) s

def effParameterMirrorEnd (r : Nat) (e : Engine) : Engine := if bitF .HOST_PARAM_ACT_MIRROR 0 r e then endMirror r e else e

def execParameterMirrorEnd (region : Nat) (s : State) : Host.Outcome State Fault Refusal :=
  runLive "PARAMETER_MIRROR_END" (Instr.parameterMirrorEnd region).wf (effParameterMirrorEnd region) s

/-! ### The tick (R227 step 2, R275) -/

/-- A node that applies late reports it, by event 0x0404 and to the coordinator (R281, R282). -/
def tellLate (t : Txn) (c : Commit) (e : Engine) : Engine :=
  match t.late with
  | some k =>
    postEvent 0x0404 [2 ^ 32 * fabricId c + k % 256 * 256 + ownAddr e % 64] (sendMsg (bits c.w4 5 0) (.lateApply (fabricId c) k) e)
  | none => e

/-- A transaction applies: event 0x0401, and its slot is free. -/
def applyTxn (t : Txn) (e : Engine) : Engine :=
  let e := dropTxn t.slot (applyStaged t.graph t.writes t.staged e)
  match t.commit with
  | none => e
  | some c =>
    let e := tellLate t c e
    let e := postEvent 0x0401 [2 ^ 32 * c.tag + t.ring, t.writes] e
    if (c.op = 0x11 ∨ c.op = 0xB1) ∧ c.flags / 32 % 2 = 1 then
      addEffect { n := c.n, ring := t.ring, tag := c.tag, notify := true, gps := [], sinks := [], moves := [], gens := [], taps := false
                  after := t.staged.map (·.n) } e
    else e

/-- The directives of the frame that ended, those of a pair that are due, and the transactions whose apply frame has come, in order. -/
def applyControl (e : Engine) : Engine :=
  let now := e.ctl.deferred
  let due := (e.ctl.later.filter fun p => decide (p.1 ≤ frameNo e)).map (·.2)
  let e := { e with ctl := { e.ctl with deferred := [], later := e.ctl.later.filter fun p => !decide (p.1 ≤ frameNo e) } }
  let e := (now ++ due).foldl (fun e x => applyDir (stagedWrites x) x e) e
  let txns := e.ctl.txns.filter fun t => decide (t.st = .acked) && decide (t.apply ≤ frameNo e)
  flipParams (txns.foldl (fun e t => applyTxn t e) e)

end Sys2Proof.Machine
end

