-- ==== Sys2Proof/Machine/Directives.lean ====
section
/-! DEFINITION. The directives of Table 8.6, one command each: the directive as its ring's program carries it, which acts when it is the one
that the supervisor takes next (R251). A directive on a ring with an open transaction is also the command `STAGING`. The kinds of `PTP_CFG`,
`FAB_CFG`, `PAIR_CFG` and `PAIR_SYNC` are told apart by the first record. -/
namespace Sys2Proof.Machine

/-- A directive whose first record has kind `k`; one without a kind up to `last` counts as kind 0. -/
def runKind (op k last : Nat) (d : Dir) (e : Engine) : Engine :=
  let f := firstKind e op d
  if (if last < f then 0 else f) = k then runDir op d e else e

/-- A directive that may be staged, on a ring with an open transaction (R270). -/
def effStaging (op : Nat) (d : Dir) (e : Engine) : Engine :=
  if opcodes.contains op && !closes op && op != 0x10 && !noTxnOp op && (openTxn e d.ring).isSome then runDir op d e else e

def execStaging (op : Nat) (d : Dir) (s : State) : Host.Outcome State Fault Refusal :=
  runLive "STAGING" (Instr.staging op d).wf (effStaging op d) s

/-- `NOP` (R259). -/
def effNop (d : Dir) (e : Engine) : Engine := runDir 0x00 d e

def execNop (d : Dir) (s : State) : Host.Outcome State Fault Refusal := runLive "NOP" (Instr.nop d).wf (effNop d) s

/-- `FENCE` (R259). -/
def effFence (d : Dir) (e : Engine) : Engine := runDir 0x01 d e

def execFence (d : Dir) (s : State) : Host.Outcome State Fault Refusal := runLive "FENCE" (Instr.fence d).wf (effFence d) s

/-- `QUERY` (R260). -/
def effQuery (d : Dir) (e : Engine) : Engine := runDir 0x02 d e

def execQuery (d : Dir) (s : State) : Host.Outcome State Fault Refusal := runLive "QUERY" (Instr.query d).wf (effQuery d) s

/-- `RESET_FN` (R476). -/
def effResetFn (d : Dir) (e : Engine) : Engine := runDir 0x03 d e

def execResetFn (d : Dir) (s : State) : Host.Outcome State Fault Refusal := runLive "RESET_FN" (Instr.resetFn d).wf (effResetFn d) s

/-- `TXN_OPEN` (R270). -/
def effTxnOpen (d : Dir) (e : Engine) : Engine := runDir 0x10 d e

def execTxnOpen (d : Dir) (s : State) : Host.Outcome State Fault Refusal := runLive "TXN_OPEN" (Instr.txnOpen d).wf (effTxnOpen d) s

/-- `TXN_COMMIT` (R271). -/
def effTxnCommit (d : Dir) (e : Engine) : Engine := runDir 0x11 d e

def execTxnCommit (d : Dir) (s : State) : Host.Outcome State Fault Refusal := runLive "TXN_COMMIT" (Instr.txnCommit d).wf (effTxnCommit d) s

/-- `TXN_ABORT` (R276). -/
def effTxnAbort (d : Dir) (e : Engine) : Engine := runDir 0x12 d e

def execTxnAbort (d : Dir) (s : State) : Host.Outcome State Fault Refusal := runLive "TXN_ABORT" (Instr.txnAbort d).wf (effTxnAbort d) s

/-- `LOAD_PROG` (R262). -/
def effLoadProg (d : Dir) (e : Engine) : Engine := runDir 0x20 d e

def execLoadProg (d : Dir) (s : State) : Host.Outcome State Fault Refusal := runLive "LOAD_PROG" (Instr.loadProg d).wf (effLoadProg d) s

/-- `DEF_ITEM` (R154, R262). -/
def effDefItem (d : Dir) (e : Engine) : Engine := runDir 0x21 d e

def execDefItem (d : Dir) (s : State) : Host.Outcome State Fault Refusal := runLive "DEF_ITEM" (Instr.defItem d).wf (effDefItem d) s

/-- `LINK` (R262). -/
def effLink (d : Dir) (e : Engine) : Engine := runDir 0x22 d e

def execLink (d : Dir) (s : State) : Host.Outcome State Fault Refusal := runLive "LINK" (Instr.link d).wf (effLink d) s

/-- `ADMIT` (R261). -/
def effAdmitGraph (d : Dir) (e : Engine) : Engine := runDir 0x23 d e

def execAdmitGraph (d : Dir) (s : State) : Host.Outcome State Fault Refusal := runLive "ADMIT" (Instr.admitGraph d).wf (effAdmitGraph d) s

/-- `ROUTE` (R264). -/
def effRoute (d : Dir) (e : Engine) : Engine := runDir 0x30 d e

def execRoute (d : Dir) (s : State) : Host.Outcome State Fault Refusal := runLive "ROUTE" (Instr.route d).wf (effRoute d) s

/-- `FALLBACK` (R264, R508). -/
def effFallback (d : Dir) (e : Engine) : Engine := runDir 0x31 d e

def execFallback (d : Dir) (s : State) : Host.Outcome State Fault Refusal := runLive "FALLBACK" (Instr.fallback d).wf (effFallback d) s

/-- `ALIGN` (R264). -/
def effAlign (d : Dir) (e : Engine) : Engine := runDir 0x32 d e

def execAlign (d : Dir) (s : State) : Host.Outcome State Fault Refusal := runLive "ALIGN" (Instr.align d).wf (effAlign d) s

/-- `SET_GAIN` (R265). -/
def effSetGain (d : Dir) (e : Engine) : Engine := runDir 0x40 d e

def execSetGain (d : Dir) (s : State) : Host.Outcome State Fault Refusal := runLive "SET_GAIN" (Instr.setGain d).wf (effSetGain d) s

/-- `SET_GAIN_DB` (R265). -/
def effSetGainDb (d : Dir) (e : Engine) : Engine := runDir 0x41 d e

def execSetGainDb (d : Dir) (s : State) : Host.Outcome State Fault Refusal := runLive "SET_GAIN_DB" (Instr.setGainDb d).wf (effSetGainDb d) s

/-- `SET_SEND` (R265, R266). -/
def effSetSend (d : Dir) (e : Engine) : Engine := runDir 0x42 d e

def execSetSend (d : Dir) (s : State) : Host.Outcome State Fault Refusal := runLive "SET_SEND" (Instr.setSend d).wf (effSetSend d) s

/-- `WRITE_PARAM` (R268). -/
def effWriteParam (d : Dir) (e : Engine) : Engine := runDir 0x50 d e

def execWriteParam (d : Dir) (s : State) : Host.Outcome State Fault Refusal := runLive "WRITE_PARAM" (Instr.writeParam d).wf (effWriteParam d) s

/-- `PORT_CFG` (R310). -/
def effPortCfg (d : Dir) (e : Engine) : Engine := runDir 0x60 d e

def execPortCfg (d : Dir) (s : State) : Host.Outcome State Fault Refusal := runLive "PORT_CFG" (Instr.portCfg d).wf (effPortCfg d) s

/-- `GROUP_START` (R311). -/
def effGroupStart (d : Dir) (e : Engine) : Engine := runDir 0x61 d e

def execGroupStart (d : Dir) (s : State) : Host.Outcome State Fault Refusal := runLive "GROUP_START" (Instr.groupStart d).wf (effGroupStart d) s

/-- `GROUP_STOP` (R311). -/
def effGroupStop (d : Dir) (e : Engine) : Engine := runDir 0x62 d e

def execGroupStop (d : Dir) (s : State) : Host.Outcome State Fault Refusal := runLive "GROUP_STOP" (Instr.groupStop d).wf (effGroupStop d) s

/-- `REF_CFG` (R337). -/
def effRefCfg (d : Dir) (e : Engine) : Engine := runDir 0x70 d e

def execRefCfg (d : Dir) (s : State) : Host.Outcome State Fault Refusal := runLive "REF_CFG" (Instr.refCfg d).wf (effRefCfg d) s

/-- `REF_PRIO` (R338). -/
def effRefPrio (d : Dir) (e : Engine) : Engine := runDir 0x71 d e

def execRefPrio (d : Dir) (s : State) : Host.Outcome State Fault Refusal := runLive "REF_PRIO" (Instr.refPrio d).wf (effRefPrio d) s

/-- `STREAM_TX` (R366). -/
def effStreamTx (d : Dir) (e : Engine) : Engine := runDir 0x80 d e

def execStreamTx (d : Dir) (s : State) : Host.Outcome State Fault Refusal := runLive "STREAM_TX" (Instr.streamTx d).wf (effStreamTx d) s

/-- `STREAM_RX` (R366). -/
def effStreamRx (d : Dir) (e : Engine) : Engine := runDir 0x81 d e

def execStreamRx (d : Dir) (s : State) : Host.Outcome State Fault Refusal := runLive "STREAM_RX" (Instr.streamRx d).wf (effStreamRx d) s

/-- `PTP_CFG` whose first record is an instance record (R367), or one of no kind. -/
def effPtpCfgInstance (d : Dir) (e : Engine) : Engine := runKind 0x82 0 5 d e

def execPtpCfgInstance (d : Dir) (s : State) : Host.Outcome State Fault Refusal := runLive "PTP_CFG_INSTANCE" (Instr.ptpCfgInstance d).wf (effPtpCfgInstance d) s

/-- `PTP_CFG` whose first record sets the time (R367). -/
def effPtpCfgTime (d : Dir) (e : Engine) : Engine := runKind 0x82 1 5 d e

def execPtpCfgTime (d : Dir) (s : State) : Host.Outcome State Fault Refusal := runLive "PTP_CFG_TIME" (Instr.ptpCfgTime d).wf (effPtpCfgTime d) s

/-- `PTP_CFG` whose first record is a servo record (R367). -/
def effPtpCfgServo (d : Dir) (e : Engine) : Engine := runKind 0x82 2 5 d e

def execPtpCfgServo (d : Dir) (s : State) : Host.Outcome State Fault Refusal := runLive "PTP_CFG_SERVO" (Instr.ptpCfgServo d).wf (effPtpCfgServo d) s

/-- `PTP_CFG` whose first record is a remap (R367). -/
def effPtpCfgRemap (d : Dir) (e : Engine) : Engine := runKind 0x82 3 5 d e

def execPtpCfgRemap (d : Dir) (s : State) : Host.Outcome State Fault Refusal := runLive "PTP_CFG_REMAP" (Instr.ptpCfgRemap d).wf (effPtpCfgRemap d) s

/-- `PTP_CFG` whose first record is a latency record (R367). -/
def effPtpCfgLatency (d : Dir) (e : Engine) : Engine := runKind 0x82 4 5 d e

def execPtpCfgLatency (d : Dir) (s : State) : Host.Outcome State Fault Refusal := runLive "PTP_CFG_LATENCY" (Instr.ptpCfgLatency d).wf (effPtpCfgLatency d) s

/-- `PTP_CFG` whose first record is a pulse record (R367). -/
def effPtpCfgPulse (d : Dir) (e : Engine) : Engine := runKind 0x82 5 5 d e

def execPtpCfgPulse (d : Dir) (s : State) : Host.Outcome State Fault Refusal := runLive "PTP_CFG_PULSE" (Instr.ptpCfgPulse d).wf (effPtpCfgPulse d) s

/-- `FAB_CFG` whose first record is a node record (R393), or one of no kind. -/
def effFabCfgNode (d : Dir) (e : Engine) : Engine := runKind 0x90 0 3 d e

def execFabCfgNode (d : Dir) (s : State) : Host.Outcome State Fault Refusal := runLive "FAB_CFG_NODE" (Instr.fabCfgNode d).wf (effFabCfgNode d) s

/-- `FAB_CFG` whose first record is a link record (R393). -/
def effFabCfgLink (d : Dir) (e : Engine) : Engine := runKind 0x90 1 3 d e

def execFabCfgLink (d : Dir) (s : State) : Host.Outcome State Fault Refusal := runLive "FAB_CFG_LINK" (Instr.fabCfgLink d).wf (effFabCfgLink d) s

/-- `FAB_CFG` whose first record excludes a node (R393). -/
def effFabCfgExclude (d : Dir) (e : Engine) : Engine := runKind 0x90 2 3 d e

def execFabCfgExclude (d : Dir) (s : State) : Host.Outcome State Fault Refusal := runLive "FAB_CFG_EXCLUDE" (Instr.fabCfgExclude d).wf (effFabCfgExclude d) s

/-- `FAB_CFG` whose first record ends an exclusion (R393). -/
def effFabCfgReadmit (d : Dir) (e : Engine) : Engine := runKind 0x90 3 3 d e

def execFabCfgReadmit (d : Dir) (s : State) : Host.Outcome State Fault Refusal := runLive "FAB_CFG_READMIT" (Instr.fabCfgReadmit d).wf (effFabCfgReadmit d) s

/-- `FAB_SLOT` (R394). -/
def effFabSlot (d : Dir) (e : Engine) : Engine := runDir 0x91 d e

def execFabSlot (d : Dir) (s : State) : Host.Outcome State Fault Refusal := runLive "FAB_SLOT" (Instr.fabSlot d).wf (effFabSlot d) s

/-- `PAIR_CFG` whose first record is a pair record (R424), or one of no kind. -/
def effPairCfgPair (d : Dir) (e : Engine) : Engine := runKind 0xA0 0 1 d e

def execPairCfgPair (d : Dir) (s : State) : Host.Outcome State Fault Refusal := runLive "PAIR_CFG_PAIR" (Instr.pairCfgPair d).wf (effPairCfgPair d) s

/-- `PAIR_CFG` whose first record is an output group (R424). -/
def effPairCfgOutputGroup (d : Dir) (e : Engine) : Engine := runKind 0xA0 1 1 d e

def execPairCfgOutputGroup (d : Dir) (s : State) : Host.Outcome State Fault Refusal := runLive "PAIR_CFG_OUTPUT_GROUP" (Instr.pairCfgOutputGroup d).wf (effPairCfgOutputGroup d) s

/-- `PAIR_SYNC` whose first record is a RESYNC (R425), or one of no kind. -/
def effPairSyncResync (d : Dir) (e : Engine) : Engine := runKind 0xA1 0 1 d e

def execPairSyncResync (d : Dir) (s : State) : Host.Outcome State Fault Refusal := runLive "PAIR_SYNC_RESYNC" (Instr.pairSyncResync d).wf (effPairSyncResync d) s

/-- `PAIR_SYNC` whose first record is a HANDOVER (R425). -/
def effPairSyncHandover (d : Dir) (e : Engine) : Engine := runKind 0xA1 1 1 d e

def execPairSyncHandover (d : Dir) (s : State) : Host.Outcome State Fault Refusal := runLive "PAIR_SYNC_HANDOVER" (Instr.pairSyncHandover d).wf (effPairSyncHandover d) s

/-- `SCENE_STORE` (R277). -/
def effSceneStore (d : Dir) (e : Engine) : Engine := runDir 0xB0 d e

def execSceneStore (d : Dir) (s : State) : Host.Outcome State Fault Refusal := runLive "SCENE_STORE" (Instr.sceneStore d).wf (effSceneStore d) s

/-- `SCENE_RECALL` (R278). -/
def effSceneRecall (d : Dir) (e : Engine) : Engine := runDir 0xB1 d e

def execSceneRecall (d : Dir) (s : State) : Host.Outcome State Fault Refusal := runLive "SCENE_RECALL" (Instr.sceneRecall d).wf (effSceneRecall d) s

/-- `SCENE_DELETE` (R277). -/
def effSceneDelete (d : Dir) (e : Engine) : Engine := runDir 0xB2 d e

def execSceneDelete (d : Dir) (s : State) : Host.Outcome State Fault Refusal := runLive "SCENE_DELETE" (Instr.sceneDelete d).wf (effSceneDelete d) s

/-- `METER_CFG` (R269). -/
def effMeterCfg (d : Dir) (e : Engine) : Engine := runDir 0xC0 d e

def execMeterCfg (d : Dir) (s : State) : Host.Outcome State Fault Refusal := runLive "METER_CFG" (Instr.meterCfg d).wf (effMeterCfg d) s

/-- `LOUD_CFG` (R269). -/
def effLoudCfg (d : Dir) (e : Engine) : Engine := runDir 0xC1 d e

def execLoudCfg (d : Dir) (s : State) : Host.Outcome State Fault Refusal := runLive "LOUD_CFG" (Instr.loudCfg d).wf (effLoudCfg d) s

/-- `AUTOMIX_CFG` (R269). -/
def effAutomixCfg (d : Dir) (e : Engine) : Engine := runDir 0xC2 d e

def execAutomixCfg (d : Dir) (s : State) : Host.Outcome State Fault Refusal := runLive "AUTOMIX_CFG" (Instr.automixCfg d).wf (effAutomixCfg d) s

/-- `MINUS_CFG` (R269). -/
def effMinusCfg (d : Dir) (e : Engine) : Engine := runDir 0xC3 d e

def execMinusCfg (d : Dir) (s : State) : Host.Outcome State Fault Refusal := runLive "MINUS_CFG" (Instr.minusCfg d).wf (effMinusCfg d) s

/-- `GEN_CFG` (R269). -/
def effGenCfg (d : Dir) (e : Engine) : Engine := runDir 0xC4 d e

def execGenCfg (d : Dir) (s : State) : Host.Outcome State Fault Refusal := runLive "GEN_CFG" (Instr.genCfg d).wf (effGenCfg d) s

end Sys2Proof.Machine
end

