-- ==== Sys2Proof/Machine/Memory.lean ====
section
/-! DEFINITION. The crossbar's arbitration and responses (R431–R438), the on-chip patrol scrubber (R429), and the DDR4 controller: queue,
refresh, temperature bands, training, errors, scrubbing and self-refresh (R439–R452). -/
namespace Sys2Proof.Machine

/-! ### The crossbar -/

def openAt (e : Engine) (t : Nat) : List XReq := tget [] e.xmem.open_ t
def setOpen (t : Nat) (l : List XReq) (e : Engine) : Engine := { e with xmem := { e.xmem with open_ := tput [] e.xmem.open_ t l } }

/-- Outstanding transactions: those that no response has answered. -/
def outstanding (e : Engine) : List XReq := (e.xmem.open_.flatMap (·.2)).filter fun x => !x.dead

/-- Outstanding transactions of a master. -/
def heldBy (e : Engine) (m : Nat) : Nat := ((outstanding e).filter fun x => x.m == m).length

/-- The transaction IDs that a master has outstanding. -/
def idsOf (e : Engine) (m : Nat) : List Nat := (((outstanding e).filter fun x => x.m == m).map (·.id)).eraseDups

/-- Entries of the shared part of the pool in use: each master's beyond its own 8 (R435). -/
def sharedUse (e : Engine) : Nat := (List.range 40).foldl (fun s m => s + (heldBy e m - 8)) 0

/-- `XBAR_STAT` follows the pool (Table 14.11). -/
def showPool (e : Engine) : Engine :=
  let n := (outstanding e).length
  maxF .XBAR_STAT_MAXUSE 0 n (setF .XBAR_STAT_INUSE 0 n e)

/-- A master receives a response (Table 14.5). -/
def answerMaster (m code : Nat) (data : List Byte) (e : Engine) : Engine :=
  { e with xmem := { e.xmem with resp := tput (0, []) e.xmem.resp m (code, data) } }

def Resp.code : Resp → Nat
  | .done => 0
  | .nodest => 1
  | .tfail => 2
  | .poison => 3

/-- The ageing priority of a waiting request (R434). A QOS above CAP is used as CAP. -/
def xbarQ (e : Engine) (w : XWant) : Nat :=
  let cap := getF .XBAR_MQOS_CAP w.m e
  min cap (min cap (getF .XBAR_MQOS_QOS w.m e) + w.waited / 64)

/-- A request may start at target `t`: an entry of the pool is free for its master, its master has at most 64 IDs outstanding with it, and no
other target holds a transaction of its ID. Shared entries go to the requests that have waited longest (R435, R436). -/
def mayStart (e : Engine) (t : Nat) (wants : List XWant) (w : XWant) : Bool :=
  let before := (wants.filter fun v => decide (8 ≤ heldBy e v.m) && decide (w.waited < v.waited)).length
  targetOf w.addr == some t && (decide ((idsOf e w.m).length < 64) || (idsOf e w.m).contains w.id) && decide (heldBy e w.m < 8 ∨ before < 704 - sharedUse e)
  && !(e.xmem.open_.any fun p => p.1 != t && p.2.any fun x => x.m == w.m && x.id == w.id && !x.dead)

/-- Places after the last granted master, in ascending index order. -/
def turnAfter (e : Engine) (t m : Nat) : Nat := (m + 40 - tget 0 e.xmem.park t) % 40

/-- `a` goes before `b` at target `t`. -/
def grantBefore (e : Engine) (t : Nat) (a b : XWant) : Bool :=
  decide (xbarQ e b < xbarQ e a) || (xbarQ e a == xbarQ e b && decide (turnAfter e t a.m < turnAfter e t b.m))

/-- The request that the arbitration of R434 grants: of equals the first. -/
def grantOf (e : Engine) (t : Nat) : List XWant → Option XWant
  | [] => none
  | w :: ws => match grantOf e t ws with
    | none => some w
    | some v => if grantBefore e t v w then some v else some w

/-- A target port grants one start and parks on its master; a request that decodes to no target is answered NODEST (R433, R434). -/
def effXbarGrant (t : Nat) (wants : List XWant) (e : Engine) : Engine :=
  let e := (wants.filter fun w => (targetOf w.addr).isNone).foldl (fun e w => answerMaster w.m 1 [] (xbarError 1 w.m w.addr e)) e
  match grantOf e t (wants.filter (mayStart e t wants)) with
  | none => e
  | some w =>
    let x : XReq := { m := w.m, id := w.id, wr := w.wr, addr := w.addr, len := w.len, data := w.data, queued := false, left := 0, code := 0,
                      got := [], dead := false }
    let e := maxF .XBAR_TGT_WAITMAX t (min w.waited 65535) (setOpen t (openAt e t ++ [x]) e)
    showPool { e with xmem := { e.xmem with park := tput 0 e.xmem.park t (w.m + 1) } }

def execXbarGrant (t : Nat) (wants : List XWant) (s : State) : Host.Outcome State Fault Refusal :=
  runLive "XBAR_GRANT" (Instr.xbarGrant t wants).wf (effXbarGrant t wants) s

/-- The first transaction at a target that has not been answered, and the rest. -/
def takeLive : List XReq → Option (XReq × List XReq)
  | [] => none
  | x :: t => if x.dead then (takeLive t).map fun p => (p.1, x :: p.2) else some (x, t)

/-- A DRAM request waits for its queue entries: the target can serve it and they have not all completed. -/
def inQueue (e : Engine) (x : XReq) : Bool :=
  targetOf x.addr == some 12 && ownerOk e x.m x.addr x.len x.wr false && (if x.queued then x.left != 0 else targetUp e x.addr && !dmDown e)

/-- A target that is silent for 20 µs: the crossbar answers TFAIL (R437). Whether a write that it held has taken effect on chip is free;
entries in the DDR queue run on. -/
def effXbarTimeout (t : Nat) (e : Engine) : Engine :=
  match takeLive (openAt e t) with
  | none => e
  | some (x, rest) =>
    let p := takeFree e
    let e := p.2
    let e :=
      if x.queued && x.left != 0 then setOpen t ((openAt e t).map fun y => if y = x then { y with dead := true } else y) e
      else
        let e := setOpen t rest e
        if x.wr && !x.queued && p.1.getLsbD 0 then (access e x.m x.addr true false x.data x.len).e else e
    showPool (answerMaster x.m 2 [] (xbarError 2 x.m x.addr e))

def execXbarTimeout (t : Nat) (s : State) : Host.Outcome State Fault Refusal :=
  runLive "XBAR_TIMEOUT" (Instr.xbarTimeout t).wf (effXbarTimeout t) s

/-- A parity error on the request path of master `m`: the request is discarded with TFAIL; on a block port the block is isolated at the next
boundary with cause 0x7 (R20, R437). -/
def effRequestParityError (m addr : Nat) (e : Engine) : Engine :=
  let e := answerMaster m 2 [] (xbarError 3 m addr e)
  if m < 32 ∧ !isolatedBlock e m then dueCap (.block m 7) (markFault e) else e

def execRequestParityError (m addr : Nat) (s : State) : Host.Outcome State Fault Refusal :=
  runLive "REQUEST_PARITY_ERROR" (Instr.requestParityError m addr).wf (effRequestParityError m addr) s

/-- The patrol scrubber reads a word of region SRAM, summing and routing memory, network buffers or supervisor SRAM (R429). -/
def effRegionScrub (a : Nat) (e : Engine) : Engine :=
  match targetOf a with
  | some t =>
    if t < 12 ∧ t ≠ 8 then
      if eccAt e a = 1 then setEcc a 0 (bumpF .XBAR_MEMSTAT_CE t 1 e)
      else if 2 ≤ eccAt e a then onUncorrectable a e
      else e
    else e
  | none => e

def execRegionScrub (addr : Nat) (s : State) : Host.Outcome State Fault Refusal :=
  runLive "REGION_SCRUB" (Instr.regionScrub addr).wf (effRegionScrub addr) s

/-! ### The DDR queue (R440–R443) -/

/-- The channel is in service and its clock runs. -/
def ddrRun (e : Engine) : Bool := getF .DDRC_STAT_STATE 0 e == 2 && !dmDown e

def setQueue (q : List DdrEntry) (e : Engine) : Engine :=
  let e := { e with xmem := { e.xmem with ddrq := q } }
  maxF .DDRC_STAT_QMAX 0 q.length (setF .DDRC_STAT_QNOW 0 q.length e)

/-- Row bits of the installed devices (Table 14.6). -/
def rowBits (e : Engine) : Nat := if getF .DDRC_CFG_DENS 0 e = 0 then 16 else 17

/-- The row of an offset, and its bank among all ranks: rank, bank and bank group (R440). -/
def ddrRow (e : Engine) (off : Nat) : Nat := off / 2 ^ 17 % 2 ^ rowBits e
def ddrBank (e : Engine) (off : Nat) : Nat :=
  let row := ddrRow e off
  let k := off / 64 % 16
  let rank := off / 2 ^ (17 + rowBits e) % 2
  rank * 16 + ((k / 4) ^^^ (row / 4 % 4)) * 4 + ((k % 4) ^^^ (row % 4))

/-- An entry joins the queue: it is counted when it breaks the condition of R442, that every 16 consecutive entries hold at most 3 entries
per bank that open a new row. -/
def countBank (e : Engine) (d : DdrEntry) : Engine :=
  let b := ddrBank e d.off
  let row := ddrRow e d.off + 1
  let opens := tget 0 e.xmem.rows b != row
  let before := (e.xmem.recent.filter fun p => p.1 == b && p.2).length
  let e := if opens && decide (3 ≤ before) then bumpF .DDRC_BANKCONF_BANKCONF 0 1 e else e
  { e with xmem := { e.xmem with recent := ((b, opens) :: e.xmem.recent).take 15, rows := tput 0 e.xmem.rows b row } }

/-- The entries of a request: one for each burst, and a read before the write of a burst that is written in part (R441). -/
def entriesOf (x : XReq) : List DdrEntry :=
  let off := x.addr - 0x1000000000
  let first := off / 64
  let last := (off + x.len - 1) / 64
  (List.range (last + 1 - first)).flatMap fun j =>
    let base := 64 * (first + j)
    let lo := max off base
    let hi := min (off + x.len) (base + 64)
    let d : DdrEntry := { m := x.m, off := base, wr := x.wr, at_ := lo - base, len := hi - lo, data := (x.data.drop (lo - off)).take (hi - lo),
                          rmw := false, bad := false, retried := false, crc := false }
    if x.wr ∧ hi - lo < 64 then [{ d with wr := false, at_ := 0, len := 0, data := [], rmw := true }, d] else [d]

/-- The oldest DRAM request that is not in the queue yet. -/
def nextDram (e : Engine) : Option XReq := (openAt e 12).find? fun x => !x.queued && !x.dead

/-- A DRAM request enters the queue as consecutive entries, when they find room (R441). -/
def effDdrQueueEntry (e : Engine) : Engine :=
  match nextDram e with
  | none => e
  | some x =>
    let l := entriesOf x
    if targetUp e x.addr && !dmDown e && ownerOk e x.m x.addr x.len x.wr false && decide (e.xmem.ddrq.length + l.length ≤ 64) then
      let e := setOpen 12 ((openAt e 12).map fun y => if y = x then { y with queued := true, left := l.length } else y) e
      setQueue (e.xmem.ddrq ++ l) (l.foldl countBank e)
    else e

def execDdrQueueEntry (s : State) : Host.Outcome State Fault Refusal :=
  runLive "DDR_QUEUE_ENTRY" Instr.ddrQueueEntry.wf effDdrQueueEntry s

/-- An entry of the oldest queued request has completed with a code and the bytes that it read. -/
def creditEntry (code : Nat) (got : List Byte) : List XReq → List XReq
  | [] => []
  | x :: t =>
    if x.queued ∧ x.left ≠ 0 then
      let y := { x with left := x.left - 1, code := if x.code = 0 then code else x.code, got := x.got ++ got }
      if y.dead ∧ y.left = 0 then t else y :: t
    else x :: creditEntry code got t

/-- The head entry leaves the queue. -/
def endEntry (code : Nat) (got : List Byte) (e : Engine) : Engine :=
  setQueue (e.xmem.ddrq.drop 1) (setOpen 12 (creditEntry code got (openAt e 12)) e)

/-- The burst at an offset is rewritten with the poison code word (R448). -/
def poisonBurst (off : Nat) (e : Engine) : Engine :=
  let a := 0x1000000000 + off
  setEcc a 3 ((List.range 8).foldl (fun e j => setEcc (a + 8 * j) 0 e) e)

/-- The read of a partial write was POISON: its write, next in the queue, is not made. -/
def spoilNext (e : Engine) : Engine :=
  match e.xmem.ddrq with
  | r :: w :: t => { e with xmem := { e.xmem with ddrq := r :: { w with bad := true } :: t } }
  | _ => e

/-- The head entry while DM is down: it is logged and answered POISON (Table 1.9). -/
def deadEntry (e : Engine) : Engine :=
  match e.xmem.ddrq with
  | [] => e
  | d :: _ =>
    let r := deadDram e d.m (0x1000000000 + d.off) d.wr d.len
    if d.rmw then endEntry 0 [] (spoilNext r.e) else endEntry 3 r.data r.e

/-- The controller completes the head entry (R441, R448). -/
def effDdrEntryComplete (e : Engine) : Engine :=
  if dmDown e then deadEntry e
  else if !ddrRun e then e
  else match e.xmem.ddrq with
    | [] => e
    | d :: _ =>
      let a := 0x1000000000 + d.off
      if d.wr then
        if d.bad then endEntry 3 [] e
        else endEntry 0 [] ((List.range 8).foldl (fun e j => setEcc (a + 8 * j) 0 e) (writeBytes (a + d.at_) d.data e))
      else
        let met := metBy e a 64
        let e := met.foldl (meetError d.m) e
        let poison := met.any fun g => decide (2 ≤ g.2)
        if d.rmw then endEntry 0 [] (if poison then spoilNext e else e)
        else if poison then let f := freeBytes e d.len; endEntry 3 f.1 f.2
        else endEntry 0 (readBytes e (a + d.at_) d.len) e

def execDdrEntryComplete (s : State) : Host.Outcome State Fault Refusal :=
  runLive "DDR_ENTRY_COMPLETE" Instr.ddrEntryComplete.wf effDdrEntryComplete s

/-! ### Refresh and temperature (R444–R446) -/

def setDebt (n : Nat) (e : Engine) : Engine :=
  setF .DDRC_REF_DEBT 0 (min n 15) { e with xmem := { e.xmem with debt := n } }

def ddrHot (e : Engine) : Bool := isF .DDRC_STAT_HOT 0 e
def ddrWarm (e : Engine) : Bool := isF .DDRC_STAT_WARM 0 e

/-- The postponement limit. -/
def refreshLimit (e : Engine) : Nat := if ddrWarm e && !ddrHot e then 4 else 8

/-- tREFI has passed: the debt rises, and above the limit one refresh pays it back. -/
def effTrefiTick (e : Engine) : Engine :=
  if ddrRun e then
    let n := e.xmem.debt + 1
    setDebt (if refreshLimit e < n then n - 1 else n) e
  else e

def execTrefiTick (s : State) : Host.Outcome State Fault Refusal := runLive "TREFI_TICK" Instr.trefiTick.wf effTrefiTick s

/-- One refresh of an idle burst. -/
def effIdleBurst (e : Engine) : Engine :=
  if ddrRun e && e.xmem.ddrq.isEmpty && e.xmem.debt != 0 then setDebt (e.xmem.debt - 1) e else e

def execIdleBurst (s : State) : Host.Outcome State Fault Refusal := runLive "IDLE_BURST" Instr.idleBurst.wf effIdleBurst s

/-- tRFC in ns (Table 14.6). -/
def tRfc (e : Engine) : Nat := if getF .DDRC_CFG_DENS 0 e = 0 then 350 else 550

/-- The move to 3.9 µs (R446): the debt doubles, and what exceeds 8 is paid back to back. -/
def catchUp (e : Engine) : Engine :=
  let n := 2 * e.xmem.debt
  if 8 < n then
    let hold := (n - 8) * tRfc e
    let e := maxF .DDRC_REF_MAXHOLD 0 hold (bumpF .DDRC_REF_CATCHUPS 0 1 (setDebt 8 e))
    postEvent 0x0A03 [hold % 65536 + 65536 * (n - 8)] e
  else setDebt n e

/-- Event 0x0A04 as the state now stands (Table 14.9). -/
def tempEvent (e : Engine) : Engine :=
  let band := if ddrHot e then 2 else if ddrWarm e then 1 else 0
  postEvent 0x0A04 [2 ^ 62 * band + 2 ^ 61 * getF .DDRC_STAT_SENSFAIL 0 e + getF .DDRC_TEMP_LAST 0 e] e

/-- The band that a reading leads to, and the readings below 83 °C in a row: 0 normal, 1 warm, 2 hot. -/
def nextBand (e : Engine) (v : Int) : Nat × Nat :=
  let warm : Int := getF .DDRC_TEMPCFG_TWARM 0 e
  let cool := if v < 83 then e.xmem.cool + 1 else 0
  if ddrHot e then
    (if 2 ≤ cool then (if warm - 2 ≤ v then 1 else 0) else 2, cool)
  else if 85 < v then (2, 0)
  else if warm ≤ v then (1, cool)
  else if ddrWarm e && decide (warm - 2 ≤ v) then (1, cool)
  else (0, cool)

/-- The controller moves to a band: the debt follows the unit in which it is counted, and the change is reported, with a change of the
sensor's state, in one event. -/
def toBand (band : Nat) (fail : Bool) (e : Engine) : Engine :=
  let was := if ddrHot e then 2 else if ddrWarm e then 1 else 0
  let failed := isF .DDRC_STAT_SENSFAIL 0 e
  let e := setF .DDRC_STAT_SENSFAIL 0 fail.toNat e
  let e := setF .DDRC_STAT_WARM 0 (decide (band = 1)).toNat (setF .DDRC_STAT_HOT 0 (decide (band = 2)).toNat e)
  let e := if band ≠ was ∨ fail ≠ failed then tempEvent e else e
  if band = 2 ∧ was ≠ 2 then catchUp e
  else if band ≠ 2 ∧ was = 2 then setDebt ((e.xmem.debt + 1) / 2) e
  else e

/-- A reading of the DRAM temperature (R445): the board sensor's answer, or whether the host's value was written within 64 ms; none is no
answer, or no such value. -/
def effTemperatureReading (v : Option Int) (e : Engine) : Engine :=
  if getF .DDRC_STAT_STATE 0 e = 0 then e
  else
    let host := isF .DDRC_TEMP_SRC 0 e
    match v with
    | none =>
      if host then toBand 2 (isF .DDRC_STAT_SENSFAIL 0 e) { e with xmem := { e.xmem with cool := 0 } }
      else
        let n := e.xmem.noSens + 1
        let e := { e with xmem := { e.xmem with noSens := n } }
        if 3 ≤ n then toBand 2 true { e with xmem := { e.xmem with cool := 0 } } else e
    | some x =>
      let x := if host then signed 8 (getF .DDRC_TEMP_HOSTVAL 0 e) else x
      let b := nextBand e x
      let e := setF .DDRC_TEMP_LAST 0 (x % 256).toNat { e with xmem := { e.xmem with cool := b.2, noSens := 0 } }
      toBand b.1 (host && isF .DDRC_STAT_SENSFAIL 0 e) e

def execTemperatureReading (v : Option Int) (s : State) : Host.Outcome State Fault Refusal :=
  runLive "TEMPERATURE_READING" (Instr.temperatureReading v).wf (effTemperatureReading v) s

/-! ### Training (R447) -/

/-- The drift of a rank is measured and corrected, `used` per cent of the range. Drift outside the range makes the supervisor reset the
channel (Table 15.8). -/
def effRetrainingPause (rank used : Nat) (e : Engine) : Engine :=
  if ddrRun e && decide (rank ≤ getF .DDRC_CFG_RANKS 0 e) then
    let e := { e with xmem := { e.xmem with drift := tput 0 e.xmem.drift rank used } }
    let e := if 75 < used then postEvent 0x0A06 [2 ^ 63 * rank + min used 255] e else e
    if 100 < used then startChip 6 0 e else e
  else e

def execRetrainingPause (rank used : Nat) (s : State) : Host.Outcome State Fault Refusal :=
  runLive "RETRAINING_PAUSE" (Instr.retrainingPause rank used).wf (effRetrainingPause rank used) s

/-! ### Errors of the channel (R448, R450) -/

/-- Event 0x0A05: write CRC or CA parity, and whether the retry failed. -/
def retryEvent (crc failed : Bool) (e : Engine) : Engine := postEvent 0x0A05 [2 ^ 63 * crc.toNat + 2 ^ 62 * failed.toNat] e

/-- One entry of a sequence whose CA retry failed: a write leaves poison, and the requester sees POISON. -/
def failEntry (e : Engine) (d : DdrEntry) : Engine :=
  let e := if d.wr then ddrUncorrectable 2 d.m d.off 0 (poisonBurst d.off e) else e
  let got := if d.wr || d.rmw then ([], e) else freeBytes e d.len
  endEntry 3 got.1 got.2

/-- The frames of one second. -/
def secondFrames (e : Engine) : Nat := houseHz e / frameLen e

/-- A CA retry has failed: the second within 1 s makes the supervisor reset the channel (Table 15.8). -/
def failedRetry (e : Engine) : Engine :=
  let near := e.xmem.caFails.filter fun f => decide (frameNo e ≤ f + secondFrames e)
  let e := { e with xmem := { e.xmem with caFails := frameNo e :: near } }
  if near.isEmpty then e else startChip 6 0 e

/-- ALERT_n for CA parity: every queued entry is re-issued once; on the retry, every request of the sequence fails. -/
def effCaParityError (e : Engine) : Engine :=
  if !ddrRun e then e
  else match e.xmem.ddrq with
    | [] => e
    | d :: _ =>
      if d.retried then
        let seq := e.xmem.ddrq.takeWhile (·.retried)
        let e := if seq.any (·.wr) then e else ddrUncorrectable 2 d.m d.off 0 e
        failedRetry (retryEvent false true (seq.foldl failEntry e))
      else
        let e := { e with xmem := { e.xmem with ddrq := e.xmem.ddrq.map fun x => { x with retried := true } } }
        retryEvent false false (maxF .HOST_RST_STAT_LEVEL 0 1 <| bumpF .DDRC_UE_CARETRY 0 1 e)

def execCaParityError (s : State) : Host.Outcome State Fault Refusal :=
  runLive "CA_PARITY_ERROR" Instr.caParityError.wf effCaParityError s

/-- ALERT_n for write CRC on the write at the head: it is re-issued once; again, its burst is left poisoned. -/
def effWriteCrcError (e : Engine) : Engine :=
  if !ddrRun e then e
  else match e.xmem.ddrq with
    | [] => e
    | d :: t =>
      if !d.wr then e
      else if d.crc then
        retryEvent true true (endEntry 3 [] (ddrUncorrectable 3 d.m d.off 0 (poisonBurst d.off e)))
      else
        retryEvent true false (maxF .HOST_RST_STAT_LEVEL 0 1 <| bumpF .DDRC_UE_WCRETRY 0 1 { e with xmem := { e.xmem with ddrq := { d with crc := true } :: t } })

def execWriteCrcError (s : State) : Host.Outcome State Fault Refusal :=
  runLive "WRITE_CRC_ERROR" Instr.writeCrcError.wf effWriteCrcError s

/-- One granule that the scrubber finds in error (R449). -/
def scrubGranule (e : Engine) (g : Nat × Nat) : Engine :=
  let off := g.1 - 0x1000000000
  if g.2 = 1 then setEcc g.1 0 (ddrCorrected 0x3F off (off / 8 % 8) e)
  else if g.2 = 3 then ddrUncorrectable 6 0x3F off 0 e
  else ddrUncorrectable 5 0x3F off (off / 8 % 8) (poisonBurst (off / 64 * 64) e)

/-- The patrol scrubber reads the next burst while the queue is empty. -/
def effDdrScrub (e : Engine) : Engine :=
  if ddrRun e && isF .DDRC_SCRUB_EN 0 e && e.xmem.ddrq.isEmpty then
    let a := e.xmem.scrubAt
    let e := (metBy e (0x1000000000 + a) 64).foldl scrubGranule e
    if a + 64 < ddrSize e then { e with xmem := { e.xmem with scrubAt := a + 64 } }
    else bumpF .DDRC_SCRUB_PASSES 0 1 { e with xmem := { e.xmem with scrubAt := 0 } }
  else e

def execDdrScrub (s : State) : Host.Outcome State Fault Refusal := runLive "DDR_SCRUB" Instr.ddrScrub.wf effDdrScrub s

/-! ### Self-refresh (R451) -/

/-- The queue has been empty for IDLE µs in Quiescent: the whole debt is paid, and the devices enter self-refresh. -/
def effSelfRefreshEntry (e : Engine) : Engine :=
  if ddrRun e && isF .DDRC_SR_SREN 0 e && inQuiescent e && e.xmem.ddrq.isEmpty then setF .DDRC_STAT_STATE 0 4 (setDebt 0 e) else e

def execSelfRefreshEntry (s : State) : Host.Outcome State Fault Refusal :=
  runLive "SELF_REFRESH_ENTRY" Instr.selfRefreshEntry.wf effSelfRefreshEntry s

/-- The first request, or leaving Quiescent, ends self-refresh. -/
def effSelfRefreshExit (e : Engine) : Engine :=
  if getF .DDRC_STAT_STATE 0 e = 4 ∧ (!e.xmem.ddrq.isEmpty ∨ (nextDram e).isSome ∨ !inQuiescent e) then
    setF .DDRC_STAT_STATE 0 2 (setDebt 0 e)
  else e

def execSelfRefreshExit (s : State) : Host.Outcome State Fault Refusal :=
  runLive "SELF_REFRESH_EXIT" Instr.selfRefreshExit.wf effSelfRefreshExit s

end Sys2Proof.Machine
end

