-- ==== Sys2Proof/Machine/Power.lean ====
section
/-! DEFINITION. Power states, boot, resets and the recovery ladder (R42–R46, R468–R480, R489, R499): what each clears, what it keeps, and
what holds the engine in reset. -/
namespace Sys2Proof.Machine

/-! ### What survives -/

/-- Fields of the always-on domain (R474), and the straps and fuses. -/
def aoFields : List Fld :=
  [.SYS_AO_SEC_LO_SEC, .SYS_AO_SEC_HI_SEC, .SYS_AO_ALARM_ALARM, .SYS_AO_CFG_ALEN, .SYS_AO_CFG_PTPSET, .SYS_AO_STAT_VBLOST,
   .SYS_AO_STAT_ALARMED, .SYS_AO_STAT_HEAD, .SYS_AO_LOG_LOG, .SYS_FUSE_SVNMIN, .HOST_BOOT_STAT_BOOTSEL, .CLK_OSC_F10]

/-- Fields that count since power-good, and so go on over a warm reset (Tables 1.15, 3.12). -/
def goodFields : List Fld := [.SYS_SUP_STAT_RESTARTS, .SYS_CELL_BIST_FAILS]

/-- Fields of the keep set (R479): those that `PAIR_CFG`, `FAB_CFG`, `REF_CFG`, `REF_PRIO` and `PTP_CFG` write, `SYS_FRAME_CFG`,
`NET_PORTCFG`, `DDRC_CFG`, and the HOST_ ring and area bases. -/
def keepFields : List Fld :=
  [.PAIR_CFG_MODE, .PAIR_CFG_SIDE, .PAIR_CFG_LINK, .PAIR_CFG_LEAD, .PAIR_CFG_AUTOHAND, .PAIR_CFG_CONV, .PAIR_PEER_LO_PEER, .PAIR_PEER_HI_PEER,
   .FAB_NODECFG_FID, .FAB_NODECFG_RPRIO, .FAB_NODECFG_TMPRIO, .FAB_NODECFG_TMCAND, .FAB_PREF_PREFV, .FAB_PREF_PREF, .FAB_LINK_CFG_EN,
   .FAB_LINK_CFG_ASYM, .CLK_SEL_MODE, .CLK_SEL_FORCE, .CLK_SEL_QLTHR, .CLK_SEL_HOQL, .CLK_SEL_OSCQL, .CLK_SEL_SWMODE, .CLK_SEL_SLEW,
   .CLK_DRIFT_SOFT, .CLK_DRIFT_HARD, .CLK_DRIFT_RATE, .CLK_OSC_TRIM, .CLK_AESQL_GRADE1, .CLK_AESQL_GRADE2, .CLK_VIDCFG_FRATE,
   .CLK_VIDCFG_LINES, .CLK_VIDCFG_FEDGE, .CLK_VIDCFG_OFFSET, .CLK_OUTCFG_MCLKEN, .CLK_OUTCFG_MCLKDIV, .CLK_OUTCFG_MCLKFAM, .CLK_OUTCFG_WC0EN,
   .CLK_OUTCFG_WC0RATE, .CLK_OUTCFG_WC1EN, .CLK_OUTCFG_WC1RATE, .CLK_OUTCFG_FPEN, .CLK_OUTCFG_FPSRC, .CLK_PTPQL_EN, .CLK_PTPQL_CLASS,
   .CLK_PTPQL_ACCMAX, .CLK_PTPQL_QL, .CLK_REFCFG_EN, .CLK_REFCFG_TYPE, .CLK_REFCFG_INST, .CLK_REFCFG_MULT, .CLK_REFCFG_QLSRC,
   .CLK_REFCFG_QLPROV, .CLK_REFCFG_PRIO, .CLK_REFCFG_WTR, .CLK_REFCFG_BW, .PTP_SERVO_SLEW, .PTP_SERVO_MAPLIM, .SYS_FRAME_CFG_FLOG,
   .SYS_FRAME_CFG_PULL, .SYS_FRAME_CFG_RATE, .NET_PORTCFG_EN, .NET_PORTCFG_SPEED, .NET_PORTCFG_FEC, .DDRC_CFG_EN, .DDRC_CFG_RANKS,
   .DDRC_CFG_DENS, .HOST_CR_BASE_LO_BASE, .HOST_CR_BASE_HI_BASE, .HOST_CQ_BASE_LO_BASE, .HOST_CQ_BASE_HI_BASE, .HOST_EV_BASE_LO_BASE,
   .HOST_EV_BASE_HI_BASE, .HOST_STAGE_BASE_LO_BASE, .HOST_STAGE_BASE_HI_BASE, .HOST_SCENE_BASE_LO_BASE, .HOST_SCENE_BASE_HI_BASE,
   .HOST_PARAM_BASE_BASE]

/-- HOST_ fields that a warm reset does not keep: what boot, the power state, the rings' execution and the parameter areas define, and what
R458 and R463 clear. -/
def hostLost : List Fld :=
  [.HOST_BOOT_STAT_STAGE, .HOST_BOOT_STAT_ERR, .HOST_BOOT_STAT_SLOTB, .HOST_BOOT_STAT_WARM, .HOST_BOOT_STAT_KEEPOK, .HOST_BOOT_STAT_MANOK,
   .HOST_BOOT_STAT_SVN, .HOST_PWR_CTL_REQ, .HOST_PWR_STAT_STATE, .HOST_CR_CFG_EN, .HOST_CR_STAT_TXN, .HOST_CR_STAT_SLOT, .HOST_TXN_STAT_ACKED,
   .HOST_TXN_STAT_USED, .HOST_PARAM_ACT_MIRROR, .HOST_PARAM_ACT_ACT, .HOST_QSPI_CTL_HOSTEN, .HOST_QSPI_CTL_BUSY]

/-- HOST_ fields of the HP domain, which a warm reset does not touch (R458, R478). -/
def hostKept : List Fld := ((fieldRows.filter fun r => r.blk == 1).map (·.fld)).filter fun f => !hostLost.contains f

/-- The part of the register table that holds the given fields. -/
def regsOf (fs : List Fld) (e : Engine) : Table Nat :=
  let l := fs.map Fld.ctorIdx
  e.regs.filter fun p => l.contains (p.1 % 1024)

/-- Memory outside the engine's own, and DRAM when its contents are kept. -/
def memKept {α : Type} (dram : Bool) (l : List (Nat × α)) : List (Nat × α) :=
  l.filter fun p => decide (0x2000000000 ≤ p.1) || (dram && decide (0x1000000000 ≤ p.1) && decide (p.1 < 0x1800000000))

def keepOf (e : Engine) : Keep :=
  { regs := regsOf keepFields e
    inst := e.ptp.inst.map fun p => (p.1, { PtpInst.off with w0 := p.2.w0, w1 := p.2.w1, ingress := p.2.ingress, egress := p.2.egress })
    groups := e.pair.groups }

/-- The supervisor has written a keep set: it runs, or runs no more since the last boot. -/
def keepNow (e : Engine) : Option Keep := if getF .HOST_BOOT_STAT_STAGE 0 e = 4 then some (keepOf e) else e.host.keep

/-- The engine under a cold reset: all but the always-on domain and the straps at its reset value. DRAM is kept only out of Retain. -/
def coldEngine (dram : Bool) (e : Engine) : Engine :=
  { Engine.reset with
    regs := regsOf aoFields e, mem := memKept dram e.mem, ecc := if dram then memKept true e.ecc else [], held := e.held, free := e.free
    ctl := { Ctl.reset with scenes := if dram then e.ctl.scenes else [], count := e.ctl.count }
    host := { HostIf.reset with keep := if dram then keepNow e else none, failN := e.host.failN, coreOn := e.host.coreOn, vbLost := e.host.vbLost,
                                  uartOut := e.host.uartOut } }

/-! ### Boot (R468–R472) -/

/-- Every synchronous domain runs (Table 1.13). -/
def allLocked (e : Engine) : Engine := setF .SYS_DOMAIN_STAT_LOCKED 0 0x1FF e

/-- Boot starts: the PLLs lock, and the boot source that BOOT_SEL names is taken. -/
def startBoot (e : Engine) : Engine :=
  let e := if e.host.vbLost then setF .SYS_AO_STAT_VBLOST 0 1 { e with host := { e.host with vbLost := false } } else e
  let e := allLocked (if e.host.retained then e else aoLog 1 0 [] e)
  match getF .HOST_BOOT_STAT_BOOTSEL 0 e with
  | 3 => setF .HOST_BOOT_STAT_ERR 0 4 (setF .HOST_BOOT_STAT_STAGE 0 5 e)
  | 1 => setF .HOST_BOOT_STAT_STAGE 0 2 e
  | _ => setF .HOST_BOOT_STAT_STAGE 0 1 e

/-- A cause of reset holds the engine, or is gone; with the last one gone, boot starts. -/
def holdBit (b : Nat) (e : Engine) : Engine := { e with held := setBit e.held b true }
def freeBit (b : Nat) (e : Engine) : Engine :=
  if e.held / 2 ^ b % 2 = 1 then
    let e := { e with held := setBit e.held b false }
    if e.held = 0 then startBoot e else e
  else e

/-- A cold reset of everything: ECLIPSE is released with the pins. It ends a chip-level reset for a loss of FX, whose PLL locks again in boot. -/
def holdCold (b : Nat) (e : Engine) : Engine :=
  holdBit b { coldEngine (e.held / 64 % 2 == 1) e with held := setBit e.held 5 false }

/-- No cold reset is in effect: the engine runs, or a loss of FX alone stops it. -/
def noCold (e : Engine) : Bool := e.held == 0 || e.held == 32

/-- PWR_GOOD or RST_N goes low, `pwr` for PWR_GOOD; or both are high, and the straps are sampled. Only PWR_GOOD ends a power cycle (R480);
in Retain the supplies are off already. -/
def effColdReset (low pwr : Bool) (sel : Nat) (f10 : Bool) (e : Engine) : Engine :=
  if low then
    if e.held / 64 % 2 = 1 then e
    else
      let e := if pwr && e.held / 4 % 2 == 1 then { e with held := setBit e.held 2 false, host := { e.host with failN := false } } else e
      if e.held / 8 % 2 = 1 then e
      else holdCold 3 (if pwr then aoLog 4 0 [] e else e)
  else if e.held / 8 % 2 = 1 ∨ (e.held = 0 ∧ getF .HOST_BOOT_STAT_STAGE 0 e = 0) then
    let e := setF .CLK_OSC_F10 0 f10.toNat (setF .HOST_BOOT_STAT_BOOTSEL 0 sel e)
    freeBit 3 (holdBit 3 e)
  else e

def execColdReset (low pwr : Bool) (sel : Nat) (f10 : Bool) (s : State) : Host.Outcome State Fault Refusal :=
  run "COLD_RESET" (Instr.coldReset low pwr sel f10).wf (effColdReset low pwr sel f10) s

/-- The log names the slot of a rejected image. -/
def logRejected (slotB : Bool) (e : Engine) : Engine := aoLog 5 0 [BitVec.ofNat 8 slotB.toNat] e

/-- No image is accepted: from flash the preferred slot was tried, then the other (R469). Host push follows when BOOT_SEL asks for it, else boot
halts (Table 15.11). -/
def imageRejected (slotB svnLow : Bool) (e : Engine) : Engine :=
  let e := logRejected slotB { e with host := { e.host with pushed := false } }
  let e := if getF .HOST_BOOT_STAT_STAGE 0 e = 1 ∧ getF .HOST_BOOT_STAT_BOOTSEL 0 e ≠ 1 then logRejected (!slotB) e else e
  if getF .HOST_BOOT_STAT_BOOTSEL 0 e = 2 ∧ getF .HOST_BOOT_STAT_STAGE 0 e = 1 ∧ !isF .HOST_BOOT_STAT_WARM 0 e then setF .HOST_BOOT_STAT_STAGE 0 2 e
  else setF .HOST_BOOT_STAT_ERR 0 (if svnLow then 2 else 1) (setF .HOST_BOOT_STAT_STAGE 0 5 e)

/-- A cell or unit that fails its self-test at boot is fenced before the first frame (R27, R115). -/
def bootFences (cells : List Nat) (units : List (Bool × Nat)) (e : Engine) : Engine :=
  let e := cells.foldl (fun e c => if fencedCell e c then e else bumpF .SYS_CELL_BIST_FAILS 0 1 (checkBlock (c / 8) (contain 2 5 (c / 8) false (markCell c e)))) e
  let e := units.foldl (fun e u => applyCap [] e (if u.1 then .dma u.2 5 else .sum u.2 5)) e
  applyCaps e

/-- The keep set is applied (R479): register values, and what follows from them. -/
def applyKeep (k : Keep) (e : Engine) : Engine :=
  let l := keepFields.map Fld.ctorIdx
  let e := k.regs.foldl (fun e p =>
    match keepFields.find? fun f => f.ctorIdx == p.1 % 1024 with
    | some f => setF f (p.1 / 1024) p.2 e
    | none => e) { e with regs := e.regs.filter fun p => !l.contains (p.1 % 1024) }
  let e := { e with ptp := { e.ptp with inst := k.inst }, pair := { e.pair with groups := k.groups } }
  let e := setFreq (signed 24 (getF .CLK_OSC_TRIM 0 e)) (followCfg e)
  let e := refreshCad 0 (allLinks.foldl (fun e l => if isF .FAB_LINK_CFG_EN l e then setLink l 1 0 e else e) e)
  setF .HOST_BOOT_STAT_KEEPOK 0 1 e

/-- `DDRC_CFG` from the boot configuration. -/
def ddrConfig (v : Nat) (e : Engine) : Engine :=
  setF .DDRC_CFG_EN 0 (v / 2 ^ 31) (setF .DDRC_CFG_RANKS 0 (v / 2 ^ 30) (setF .DDRC_CFG_DENS 0 (v / 2 ^ 28 % 4) e))

/-- Boot reads VOUT_MODE and writes VOUT_COMMAND, 800 mV (R70, R464): a regulator that reports another format than the linear one raises
the AVS fault, and the write stays to be retried. -/
def bootVolt (linear : Bool) (e : Engine) : Engine :=
  if linear then e
  else setF .SYS_AVS_STAT_FAULT 0 1 { e with health := { e.health with pmbus := some 800, pmbusBusy := false, avsHalt := true } }

/-- The engine is ready in Quiescent. -/
def becomeReady (slotB : Bool) (svn ddr : Nat) (cells : List Nat) (units : List (Bool × Nat)) (keepOk linear : Bool) (e : Engine) : Engine :=
  let e := setF .HOST_BOOT_STAT_SVN 0 svn (setF .HOST_BOOT_STAT_SLOTB 0 slotB.toNat e)
  let e := ddrConfig ddr e
  let e := match e.host.keep, keepOk with
    | some k, true => applyKeep k e
    | _, _ => e
  let e := setF .DDRC_STAT_STATE 0 (if isF .DDRC_CFG_EN 0 e then 2 else 0) e
  let e := setF .SYS_SUP_STAT_STATE 0 1 (setF .HOST_PWR_STAT_STATE 0 1 (setF .HOST_BOOT_STAT_STAGE 0 4 e))
  let e := bootFences cells units (bootVolt linear e)
  let ev := if isF .HOST_BOOT_STAT_WARM 0 e then (0x0B03, getF .HOST_RST_STAT_CAUSE 0 e * 256 + min e.host.ackLost 255) else (0x0B01, 0)
  let e := { e with host := { e.host with owedEvents := e.host.owedEvents ++ [ev], pushed := false, retained := false, keep := none } }
  if pairMode e = 0 then driveRole 0 e else startDecision e

/-- The entry of the always-on log that was written last. -/
def lastLog (e : Engine) : List Byte :=
  let k := (getF .SYS_AO_STAT_HEAD 0 e + 31) % 32
  (List.range 8).flatMap fun j => leBytes (getF .SYS_AO_LOG_LOG (8 * k + j) e) 4

/-- The boot configuration enables the UART or not; the first text is that of the boot's own entry. A byte that the UART receives reaches nothing in
the model: with DBGLOCK blown it is ignored, and what it does otherwise the manual does not say (R467). -/
def bootUart (on : Bool) (e : Engine) : Engine := uartSend (lastLog e) { e with host := { e.host with uart := on } }

/-- Boot ends: the image of the slot (or the pushed one) verifies or not, after the other slot's had been rejected when `retried`; the self-tests name the failures, and the keep set is applied when
its CRC holds (R469, R471, Table 15.5). -/
def effBootReady (ok : Bool) (slot : BootSlot) (svn ddr : Nat) (cells : List Nat) (units : List (Bool × Nat)) (keepOk : Bool) (board : BootBoard)
    (e : Engine) : Engine :=
  let st := getF .HOST_BOOT_STAT_STAGE 0 e
  if st = 1 ∨ st = 3 ∨ (st = 2 ∧ e.host.pushed) then
    let low := ok && decide (svn < getF .SYS_FUSE_SVNMIN 0 e)
    let e := bootUart board.uart e
    if ok && !low then
      becomeReady slot.isB svn ddr cells units keepOk board.linear (if slot.retried ∧ st ≠ 2 then logRejected (!slot.isB) e else e)
    else imageRejected slot.isB low e
  else e

def execBootReady (ok : Bool) (slot : BootSlot) (svn ddr : Nat) (cells : List Nat) (units : List (Bool × Nat)) (keepOk : Bool) (board : BootBoard) (s : State) :
    Host.Outcome State Fault Refusal :=
  runLive "BOOT_READY" (Instr.bootReady ok slot svn ddr cells units keepOk board).wf
    (effBootReady ok slot svn ddr cells units keepOk board) s

/-- GO starts the verification of a pushed image. -/
def effGo (e : Engine) : Engine :=
  if getF .HOST_BOOT_STAT_STAGE 0 e = 2 then { e with host := { e.host with pushed := true } } else e

def execGo (s : State) : Host.Outcome State Fault Refusal := runLive "GO" Instr.go.wf effGo s

/-- COMMITSVN raises the fused minimum to the SVN of the running image (R469). -/
def effCommitsvn (e : Engine) : Engine :=
  if getF .HOST_BOOT_STAT_STAGE 0 e = 4 then maxF .SYS_FUSE_SVNMIN 0 (getF .HOST_BOOT_STAT_SVN 0 e) e else e

def execCommitsvn (s : State) : Host.Outcome State Fault Refusal := runLive "COMMITSVN" Instr.commitsvn.wf effCommitsvn s

/-- 60 s of host push without GO. -/
def effHostPushTimeout (e : Engine) : Engine :=
  if getF .HOST_BOOT_STAT_STAGE 0 e = 2 ∧ !e.host.pushed then setF .HOST_BOOT_STAT_ERR 0 3 (setF .HOST_BOOT_STAT_STAGE 0 5 e) else e

def execHostPushTimeout (s : State) : Host.Outcome State Fault Refusal :=
  runLive "HOST_PUSH_TIMEOUT" Instr.hostPushTimeout.wf effHostPushTimeout s

/-! ### Clocks, supplies and temperature -/

/-- A domain has lost lock or stopped; `SYS_DOMAIN_STAT` shows it at the next frame boundary (R48). -/
def loseDomain (d : Nat) (e : Engine) : Engine := { e with health := { e.health with domLost := setBit e.health.domLost d true } }

/-- FX loses lock (R45, Table 15.8): the engine resets at chip level with cause 0x05; what FX clocks, the supervisor too, stands. -/
def effFxLossOfLock (e : Engine) : Engine :=
  let e := loseDomain 0 e
  holdBit 5 (requestWarm 0x05 (setF .SYS_SUP_STAT_STATE 0 3 (releaseEcl e)))

def execFxLossOfLock (s : State) : Host.Outcome State Fault Refusal := runLive "FX_LOSS_OF_LOCK" Instr.fxLossOfLock.wf effFxLossOfLock s

/-- A synchronous domain loses lock or stops (Table 1.13); what depends on it follows by its own events (Table 1.9). -/
def effDomainLossOfLock (d : Nat) (e : Engine) : Engine :=
  if d = 0 then effFxLossOfLock e else loseDomain d e

def execDomainLossOfLock (dom : Nat) (s : State) : Host.Outcome State Fault Refusal :=
  runLive "DOMAIN_LOSS_OF_LOCK" (Instr.domainLossOfLock dom).wf (effDomainLossOfLock dom) s

/-- OSC_IN has stopped for 10 µs, and has run again for 10 ms (R46). -/
def effOscInLoss (e : Engine) : Engine := if noCold e then holdCold 0 (aoLog 0x0A 0 [] e) else holdBit 0 e
def execOscInLoss (s : State) : Host.Outcome State Fault Refusal := run "OSC_IN_LOSS" Instr.oscInLoss.wf effOscInLoss s

def effOscInRestore (e : Engine) : Engine := freeBit 0 e
def execOscInRestore (s : State) : Host.Outcome State Fault Refusal := run "OSC_IN_RESTORE" Instr.oscInRestore.wf effOscInRestore s

/-- VDD_CORE or VDDIO_B falls below its monitor threshold (R489): a cold reset, which ends as one of PWR_GOOD does. -/
def effSupplyMonitorTrip (_core : Bool) (e : Engine) : Engine := effColdReset true true 0 false e
def execSupplyMonitorTrip (core : Bool) (s : State) : Host.Outcome State Fault Refusal :=
  run "SUPPLY_MONITOR_TRIP" (Instr.supplyMonitorTrip core).wf (effSupplyMonitorTrip core) s

/-- A signed byte field. -/
def byteF (f : Fld) (e : Engine) : Int := signed 8 (getF f 0 e)

/-- Event 0x0B07. -/
def thermalEvent (up : Bool) (e : Engine) : Engine :=
  postEvent 0x0B07 [2 ^ 63 * up.toNat + getF .SYS_TEMP_TALARM 0 e * 256 + getF .SYS_TEMP_CUR 0 e] e

/-- The junction sensor's reading (R499). -/
def effThermalSample (t : Int) (e : Engine) : Engine :=
  let e := setF .SYS_TEMP_CUR 0 (t % 256).toNat e
  let e := if byteF .SYS_TEMP_MAX e < t then setF .SYS_TEMP_MAX 0 (t % 256).toNat e else e
  let alarm := byteF .SYS_TEMP_TALARM e
  if !e.host.hot && decide (alarm ≤ t) then thermalEvent true { e with host := { e.host with hot := true } }
  else if e.host.hot && decide (t < alarm - 5) then thermalEvent false { e with host := { e.host with hot := false } }
  else e

def execThermalSample (t : Int) (s : State) : Host.Outcome State Fault Refusal :=
  runLive "THERMAL_SAMPLE" (Instr.thermalSample t).wf (effThermalSample t) s

/-- The thermal comparator trips, and releases (R499). -/
def effThermalTrip (e : Engine) : Engine :=
  if noCold e then holdCold 1 (aoLog 0x0B 0 [BitVec.ofNat 8 (getF .SYS_TEMP_CUR 0 e)] e) else holdBit 1 e
def execThermalTrip (s : State) : Host.Outcome State Fault Refusal := run "THERMAL_TRIP" Instr.thermalTrip.wf effThermalTrip s

def effThermalTripRelease (e : Engine) : Engine := freeBit 1 e
def execThermalTripRelease (s : State) : Host.Outcome State Fault Refusal :=
  run "THERMAL_TRIP_RELEASE" Instr.thermalTripRelease.wf effThermalTripRelease s

/-- JTAG enters a boundary-scan test mode, and leaves it for test-logic reset (R466). -/
def effBoundaryScanTestMode (enter : Bool) (e : Engine) : Engine :=
  if enter then (if e.held / 16 % 2 = 1 then e else holdCold 4 e) else freeBit 4 e
def execBoundaryScanTestMode (enter : Bool) (s : State) : Host.Outcome State Fault Refusal :=
  run "BOUNDARY_SCAN_TEST_MODE" (Instr.boundaryScanTestMode enter).wf (effBoundaryScanTestMode enter) s

/-! ### The always-on domain (R474) -/

/-- VBAT falls below its minimum: the counter and the log are lost, and hold free values. -/
def effVbatLoss (e : Engine) : Engine :=
  let p := takeFree e
  let e := setF .SYS_AO_STAT_HEAD 0 (p.1.toNat / 2 ^ 40) (setAoSec (p.1.toNat % 2 ^ 40) p.2)
  let e := (List.range 256).foldl (fun e j => setF .SYS_AO_LOG_LOG j (Config.freeValue (e.free + j)).toNat e) e
  { e with free := e.free + 256, host := { e.host with vbLost := true } }

def execVbatLoss (s : State) : Host.Outcome State Fault Refusal := run "VBAT_LOSS" Instr.vbatLoss.wf effVbatLoss s

/-- Once an hour the supervisor sets the counter from the locked local clock, `t` ns after the tick. -/
def effAoPtpSet (t : Nat) (e : Engine) : Engine :=
  if supUp e && isF .SYS_AO_CFG_PTPSET 0 e && e.ptp.locked then setAoSec (clockNs e t / 1000000000 % 2 ^ 40) e else e

def execAoPtpSet (t : Nat) (s : State) : Host.Outcome State Fault Refusal := runLive "AO_PTP_SET" (Instr.aoPtpSet t).wf (effAoPtpSet t) s

/-! ### Power states (R473) -/

/-- A request through `HOST_PWR_CTL.REQ`, judged and carried out at the next tick. -/
def requestPower (r : Nat) (e : Engine) : Engine :=
  setF .HOST_PWR_CTL_REQ 0 r { e with host := { e.host with pwrReq := some r } }

def effRunRequest (e : Engine) : Engine := requestPower 0 e
def execRunRequest (s : State) : Host.Outcome State Fault Refusal := runLive "RUN_REQUEST" Instr.runRequest.wf effRunRequest s

def effQuiescentRequest (e : Engine) : Engine := requestPower 1 e
def execQuiescentRequest (s : State) : Host.Outcome State Fault Refusal :=
  runLive "QUIESCENT_REQUEST" Instr.quiescentRequest.wf effQuiescentRequest s

def effRetainRequest (e : Engine) : Engine := requestPower 2 e
def execRetainRequest (s : State) : Host.Outcome State Fault Refusal := runLive "RETAIN_REQUEST" Instr.retainRequest.wf effRetainRequest s

/-- The link goes down for the engine (R458): command rings are disabled, and nothing more is written to the host. -/
def hostGone (e : Engine) : Engine :=
  let e := [0, 1, 2, 3, 4, 5, 6, 7].foldl (fun e k => disableRing k e) e
  { e with host := { e.host with linkOff := true } }

/-- A member whose graph runs in Run: not a warm peer, nor a hot one before its sync (Table 13.1). -/
def memberRuns (e : Engine) : Bool := pairRole e != 3 || (isHot e && decide (2 ≤ peerState e))

/-- Retain is entered (Table 15.6): DRAM in self-refresh, the log entry, ECLIPSE released, the link down, CORE_ON low; the core has no
supply from then on. -/
def enterRetain (e : Engine) : Engine :=
  let e := hostGone (releaseEcl (aoLog 7 0 [] e))
  let c := coldEngine true e
  let c := setF .DDRC_STAT_STATE 0 4 (setF .HOST_PWR_STAT_STATE 0 2 c)
  holdBit 6 { c with host := { c.host with coreOn := false } }

/-- Every output port, transmit stream and fabric transmit channel carries 0 (Table 15.6). -/
def silenceOutputs (e : Engine) : Engine := clearOut { e with mix := { e.mix with netTx := [] } }

/-- The request takes effect at the tick. -/
def powerTick (e : Engine) : Engine :=
  match e.host.pwrReq with
  | none => e
  | some r =>
    let st := getF .HOST_PWR_STAT_STATE 0 e
    let e := { e with host := { e.host with pwrReq := none } }
    let go := fun e => postEvent 0x0B04 [r] (setF .HOST_PWR_STAT_STATE 0 r e)
    if r = st then e
    else if r = 1 ∧ st = 0 then silenceOutputs { go e with sched := { (go e).sched with running := false } }
    else if r = 0 ∧ st = 1 ∧ !e.sched.stale then
      { go e with sched := { (go e).sched with running := memberRuns e } }
    else if r = 2 ∧ st = 1 then enterRetain (go e)
    else setF .HOST_PWR_STAT_REJ 0 1 e

/-- The seconds counter where it next reaches ALARM. -/
def alarmSec (e : Engine) : Nat :=
  let s := aoSec e
  let v := s / 2 ^ 32 * 2 ^ 32 + getF .SYS_AO_ALARM_ALARM 0 e
  if v < s then v + 2 ^ 32 else v

/-- WAKE_N or the enabled alarm ends Retain: CORE_ON goes high, and boot follows PWR_GOOD. The counter has reached ALARM when that fires. -/
def effRetainWake (alarm : Bool) (e : Engine) : Engine :=
  if e.held / 64 % 2 = 1 ∧ (!alarm ∨ isF .SYS_AO_CFG_ALEN 0 e) then
    let e := if alarm then setF .SYS_AO_STAT_ALARMED 0 1 (setAoSec (min (alarmSec e) (2 ^ 40 - 1)) e) else e
    let e := aoLog 8 0 [] (setF .HOST_PWR_STAT_WAKE 0 (if alarm then 2 else 1) e)
    { e with held := setBit (setBit e.held 6 false) 3 true, host := { e.host with coreOn := true, retained := true } }
  else e

def execRetainWake (alarm : Bool) (s : State) : Host.Outcome State Fault Refusal :=
  run "RETAIN_WAKE" (Instr.retainWake alarm).wf (effRetainWake alarm) s

/-! ### The recovery ladder (R475–R480) -/

/-- A keyed write of `HOST_RST_CTL` (Table 15.11). -/
def keyed (v b : Nat) : Bool := v / 65536 % 65536 == 0x6C17 && v / 2 ^ b % 2 == 1

def effWarmResetRequest (v : Nat) (e : Engine) : Engine := if keyed v 0 then requestWarm 0x06 e else e
def execWarmResetRequest (val : Nat) (s : State) : Host.Outcome State Fault Refusal :=
  runLive "WARM_RESET_REQUEST" (Instr.warmResetRequest val).wf (effWarmResetRequest val) s

def requestCycle (e : Engine) : Engine := { e with host := { e.host with cycleReq := some 0x09 } }

def effPowerCycleRequest (v : Nat) (e : Engine) : Engine := if keyed v 1 then requestCycle e else e
def execPowerCycleRequest (val : Nat) (s : State) : Host.Outcome State Fault Refusal :=
  runLive "POWER_CYCLE_REQUEST" (Instr.powerCycleRequest val).wf (effPowerCycleRequest val) s

/-- Event 0x0B08, while the event ring is enabled and the supervisor runs. -/
def ladderEvent (level cause : Nat) (e : Engine) : Engine :=
  if isF .HOST_EV_CFG_EN 0 e && supUp e then postEvent 0x0B08 [2 ^ 60 * level + 2 ^ 20 * cause] e else e

/-- Each acknowledged transaction is logged with code 0x06 (R274, R478). -/
def logLost (l : List Txn) (e : Engine) : Engine :=
  l.foldl (fun e t => aoLog 6 0 (leBytes (match t.commit with | some c => c.tag | none => t.tag) 4) e) e

/-- The transactions that a reset keeps from applying. -/
def ackedTxns (e : Engine) : List Txn := e.ctl.txns.filter fun t => decide (t.st = .acked)

/-- Level 4 (R480): FAIL_N low, held in reset until a power cycle; the log says which acknowledged transactions are lost (R274). -/
def powerCycle (cause : Nat) (e : Engine) : Engine :=
  let e := logLost (ackedTxns e) (aoLog 9 cause [] (releaseEcl (ladderEvent 4 cause e)))
  let c := holdBit 2 (coldEngine false e)
  setF .HOST_RST_STAT_LEVEL 0 4 { c with host := { c.host with failN := true } }

def effPowerCycle (e : Engine) : Engine :=
  match e.host.cycleReq with
  | some c => powerCycle c e
  | none => e

def execPowerCycle (s : State) : Host.Outcome State Fault Refusal := runLive "POWER_CYCLE" Instr.powerCycle.wf effPowerCycle s

/-- What a warm reset leaves (R478). -/
def warmEngine (cause : Nat) (dramLost : Bool) (lost : Nat) (e : Engine) : Engine :=
  let now := aoSec e
  let w : Engine := { Engine.reset with
    regs := regsOf (aoFields ++ goodFields ++ hostKept) e, mem := memKept (!dramLost) e.mem, ecc := if dramLost then [] else memKept true e.ecc, free := e.free
    ctl := { Ctl.reset with scenes := if dramLost then [] else e.ctl.scenes, count := e.ctl.count, phase := e.ctl.phase, used := e.ctl.used, msi := e.ctl.msi,
                            eseq := e.ctl.eseq, lost := e.ctl.lost }
    host := { HostIf.reset with cfg := e.host.cfg, msix := e.host.msix, warmAt := now :: e.host.warmAt, linkOff := true, uartOut := e.host.uartOut,
                                keep := if dramLost then none else keepNow e, ackLost := lost, vbLost := e.host.vbLost, aer := e.host.aer,
                                msiOut := e.host.msiOut } }
  let w := setF .HOST_RST_STAT_CAUSE 0 cause (bumpF .HOST_RST_STAT_WARMS 0 1 (maxF .HOST_RST_STAT_LEVEL 0 3 w))
  allLocked (setF .HOST_BOOT_STAT_WARM 0 1 (setF .HOST_BOOT_STAT_STAGE 0 1 w))

/-- Level 3: a warm reset that has been requested (R475, R478). The third within 60 s goes to level 4 instead. `dramLost`: the channel could
not enter self-refresh. -/
def effWarmReset (dramLost : Bool) (e : Engine) : Engine :=
  match e.host.warmReq with
  | none => e
  | some cause =>
    if e.held % 32 ≠ 0 ∨ e.held / 64 % 2 = 1 then e
    else
      let near := e.host.warmAt.filter fun t => decide (aoSec e ≤ t + 60)
      if 2 ≤ near.length then requestCycle { e with host := { e.host with warmReq := none } }
      else
        let e := if cause = 1 ∨ cause = 5 then e else ladderEvent 3 cause e
        let acked := ackedTxns e
        let e := logLost acked (aoLog 2 cause [BitVec.ofNat 8 dramLost.toNat] (hostGone (releaseEcl e)))
        warmEngine cause dramLost acked.length { e with host := { e.host with warmAt := near } }

def execWarmReset (dramLost : Bool) (s : State) : Host.Outcome State Fault Refusal :=
  run "WARM_RESET" (Instr.warmReset dramLost).wf (effWarmReset dramLost) s

/-- A warm reset not ready within 1.2 s. -/
def effWarmResetDeadline (e : Engine) : Engine :=
  if isF .HOST_BOOT_STAT_WARM 0 e && getF .HOST_BOOT_STAT_STAGE 0 e != 4 then powerCycle 0x09 e else e

def execWarmResetDeadline (s : State) : Host.Outcome State Fault Refusal :=
  runLive "WARM_RESET_DEADLINE" Instr.warmResetDeadline.wf effWarmResetDeadline s

/-- `SYS_SUP_STAT` as a word (Table 1.15). -/
def supWord (e : Engine) : Nat := wordOf e (rowsAt 0 0x60)

/-- The restarted supervisor resumes (R43, Table 1.8): event 0x0002; open transactions are abandoned (R276), admission runs once over the
current graph, selection runs afresh, a released member takes its role (R404), and the rings are read again. -/
def effSupervisorRestartEnd (e : Engine) : Engine :=
  if getF .SYS_SUP_STAT_STATE 0 e = 2 then
    let e := setF .SYS_SUP_STAT_STATE 0 1 e
    let e := postEvent 0x0002 [supWord e] e
    let e := [0, 1, 2, 3, 4, 5, 6, 7].foldl (fun e k => abandon k e) e
    settleRings (restartRole (selectRef (lateShed (needReadmit e))))
  else e

def execSupervisorRestartEnd (s : State) : Host.Outcome State Fault Refusal :=
  runLive "SUPERVISOR_RESTART_END" Instr.supervisorRestartEnd.wf effSupervisorRestartEnd s

/-- A parity error of a region's dispatch sub-queue passes to the chip each time (R20, R21): the event names the region, and the supervisor
re-initialises its dispatch with `RESET_FN` 0x05. -/
def effSubQueueParityError (r : Nat) (e : Engine) : Engine := startReset 0x05 r 0 8 (containNow 3 9 (65536 * r + 0xFFFF) e)

def execSubQueueParityError (region : Nat) (s : State) : Host.Outcome State Fault Refusal :=
  runLive "SUB_QUEUE_PARITY_ERROR" (Instr.subQueueParityError region).wf (effSubQueueParityError region) s

end Sys2Proof.Machine
end

