-- ==== Sys2Proof/Machine/Host.lean ====
section
/-! DEFINITION. The host's accesses: register reads and writes with the rules of each register (R11, R80, R457, R504), BAR0, BAR2 and
configuration space, the link's loss and return, MSI-X, the manifest and the flash (R454–R463, R470). -/
namespace Sys2Proof.Machine

/-! ### Reads -/

def effRcRead (blk off : Nat) (e : Engine) : Engine :=
  let r := readReg blk off 0 e
  { r.2 with host := { r.2.host with rd := leBytes r.1 4, rdStatus := 0 } }

def execRcRead (blk off : Nat) (s : State) : Host.Outcome State Fault Refusal :=
  runLive "RC_READ" (Instr.rcRead blk off).wf (effRcRead blk off) s

/-- A read of a low word, `t` ns after the tick. -/
def effLatchingRead (blk off t : Nat) (e : Engine) : Engine :=
  let r := readReg blk off t e
  { r.2 with host := { r.2.host with rd := leBytes r.1 4, rdStatus := 0 } }

def execLatchingRead (blk off t : Nat) (s : State) : Host.Outcome State Fault Refusal :=
  runLive "LATCHING_READ" (Instr.latchingRead blk off t).wf (effLatchingRead blk off t) s

/-! ### Register writes with rules of their own -/

/-- The plain store of every field at an offset. -/
def plainWrite (blk off v : Nat) (e : Engine) : Engine := (rowsAt blk off).foldl (storeField v) e

/-- A store that takes effect at the next frame tick. -/
def tickWrite (blk off v : Nat) (e : Engine) : Engine := (rowsAt blk off).foldl (deferField v) e

/-- `SYS_FRAME_CFG` (R53): written in Quiescent only; a change of F or of the house rate invalidates the admitted graph.
R49 begins frame n at house sample n × F and lets no count step: after a change of F both cannot hold. The model keeps both counts running and the
new F acts from the write on (DESIGN CHOICE, log 140). -/
def effSysFrameCfgWrite (v : Nat) (e : Engine) : Engine :=
  if !inQuiescent e then setF .SYS_FRAME_CFG_REJ 0 1 e
  else
    let n := plainWrite 0 0x100 v e
    if getF .SYS_FRAME_CFG_FLOG 0 n = getF .SYS_FRAME_CFG_FLOG 0 e ∧ getF .SYS_FRAME_CFG_RATE 0 n = getF .SYS_FRAME_CFG_RATE 0 e
        ∧ getF .SYS_FRAME_CFG_PULL 0 n = getF .SYS_FRAME_CFG_PULL 0 e then n
    else
      let stale := getF .SYS_FRAME_CFG_FLOG 0 n != getF .SYS_FRAME_CFG_FLOG 0 e || getF .SYS_FRAME_CFG_RATE 0 n != getF .SYS_FRAME_CFG_RATE 0 e
      let n := { n with ptp := { n.ptp with tm := tmAt n n.sample, mapped := false }, sched := { n.sched with stale := n.sched.stale || stale } }
      refreshCad n.sample (followCfg n)

def execSysFrameCfgWrite (val : Nat) (s : State) : Host.Outcome State Fault Refusal :=
  runLive "SYS_FRAME_CFG_WRITE" (Instr.sysFrameCfgWrite val).wf (effSysFrameCfgWrite val) s

/-- Writing `HOST_PROGMAN_HI` starts the verification of the manifest (R470). -/
def effManifestWrite (hi : Nat) (e : Engine) : Engine :=
  setF .HOST_PROGMAN_HI_MAN 0 hi { e with host := { e.host with manBusy := true } }

def execManifestWrite (hi : Nat) (s : State) : Host.Outcome State Fault Refusal :=
  runLive "MANIFEST_WRITE" (Instr.manifestWrite hi).wf (effManifestWrite hi) s

/-- Verification ends: a valid manifest replaces the old one. -/
def effManifestVerified (ok : Bool) (l : List (Nat × Nat × Nat)) (e : Engine) : Engine :=
  if !e.host.manBusy then e
  else
    let e := { e with host := { e.host with manBusy := false } }
    let e := if ok then setF .HOST_BOOT_STAT_MANOK 0 1 { e with host := { e.host with manifest := l } } else e
    postEvent 0x0B06 [ok.toNat] e

def execManifestVerified (ok : Bool) (entries : List (Nat × Nat × Nat)) (s : State) : Host.Outcome State Fault Refusal :=
  runLive "MANIFEST_VERIFIED" (Instr.manifestVerified ok entries).wf (effManifestVerified ok entries) s

/-- A write of `HOST_QSPI_CTL` (R463): HOSTEN = 1 is taken in Quiescent only, and with HOSTEN set the write starts the command. -/
def effQspiCommand (v : Nat) (e : Engine) : Engine :=
  if v / 2 ^ 31 % 2 = 1 ∧ !inQuiescent e then e
  else
    let e := plainWrite 1 0x40 v e
    if isF .HOST_QSPI_CTL_HOSTEN 0 e && inQuiescent e then setF .HOST_QSPI_CTL_BUSY 0 1 e else e

def execQspiCommand (val : Nat) (s : State) : Host.Outcome State Fault Refusal :=
  runLive "QSPI_COMMAND" (Instr.qspiCommand val).wf (effQspiCommand val) s

/-- The command finishes: what the flash returned joins the FIFO, of 256 bytes; a command that returns nothing has taken LEN bytes. -/
def effQspiCommandComplete (data : List Byte) (e : Engine) : Engine :=
  if isF .HOST_QSPI_CTL_BUSY 0 e then
    let q := if data.isEmpty then e.host.qfifo.drop (getF .HOST_QSPI_CTL_LEN 0 e) else (e.host.qfifo ++ data).take 256
    setF .HOST_QSPI_CTL_BUSY 0 0 { e with host := { e.host with qfifo := q } }
  else e

def execQspiCommandComplete (data : List Byte) (s : State) : Host.Outcome State Fault Refusal :=
  runLive "QSPI_COMMAND_COMPLETE" (Instr.qspiCommandComplete data).wf (effQspiCommandComplete data) s

/-- Four bytes enter the flash FIFO. -/
def pushFifo (v : Nat) (e : Engine) : Engine := { e with host := { e.host with qfifo := (e.host.qfifo ++ leBytes v 4).take 256 } }

/-- The host takes the rings up again (R458). -/
def hostBack (e : Engine) : Engine := { e with host := { e.host with linkOff := false } }

/-- A ring whose base lies outside the outbound window cannot be enabled (R457). -/
def baseOk (e : Engine) (hi lo : Nat) : Bool := (hostAt e (2 ^ 32 * hi + lo) 1).isSome

/-- A write of a ring's CFG register. Its LOG2 is written only while EN is 0 (Table 8.9). -/
def ringCfg (en log2 : Fld) (i hi lo blk off v : Nat) (on : Engine → Engine) (off_ : Engine → Engine) (e : Engine) : Engine :=
  if v / 2 ^ 31 % 2 = 1 ∧ !baseOk e hi lo then setF .HOST_PCIE_STAT_OUTRNG 0 1 e
  else
    let was := isF en i e
    let old := getF log2 i e
    let e := (rowsAt blk off).foldl (fun e p => if p.1.fld = en ∨ (p.1.fld = log2 ∧ was) then e else storeField v e p) e
    let e := if was then setF log2 i old e else e
    if v / 2 ^ 31 % 2 = 1 then on (hostBack (setF en i 1 e)) else off_ (setF en i 0 e)

/-- Events that waited for the event ring (Table 15.5, R475). -/
def postOwed (e : Engine) : Engine :=
  let l := e.host.owedEvents
  l.foldl (fun e p => postEvent p.1 [if p.1 = 0x0B01 then wordOf e (rowsAt 1 0x20) else p.2] e) { e with host := { e.host with owedEvents := [] } }

/-- The host has consumed event entries (R254). -/
def effEvHead (head : Nat) (e : Engine) : Engine :=
  let n := freed (evSize e) (getF .HOST_EV_HEAD_HEAD 0 e) head
  let u := tget 0 e.ctl.used 8
  setF .HOST_EV_HEAD_HEAD 0 head { e with ctl := { e.ctl with used := tput 0 e.ctl.used 8 (u - min u n) } }

/-- Base and size registers of the per-region areas: block, offsets of base and size, halves that the area holds, and the largest size. -/
def areaRules : List (Nat × Nat × Nat × Fld × Fld × Nat × Nat) :=
  [(1, 0x1320, 0x1330, .HOST_PARAM_BASE_BASE, .HOST_PARAM_SIZE_SIZE, 2, 0x400000),
   (9, 0x10, 0x20, .ROUTE_DLY_BASE_BASE, .ROUTE_DLY_SIZE_SIZE, 1, 0x800000),
   (10, 0x20, 0x30, .SUM_MIX_BASE_BASE, .SUM_MIX_SIZE_SIZE, 1, 0x800000),
   (12, 0x40, 0x50, .PAIR_STATE_BASE_BASE, .PAIR_STATE_SIZE_SIZE, 2, 0x100000)]

/-- A write that leaves an area inside its region's SRAM, or that is no area register (Tables 6.11, 7.12, 8.13, 13.12). -/
def areaOk (blk off v : Nat) (e : Engine) : Bool :=
  areaRules.all fun r =>
    let low := 4096 * (v % 2 ^ 23 / 4096)
    if r.1 = blk ∧ r.2.1 ≤ off ∧ off < r.2.1 + 16 then
      decide (low + r.2.2.2.2.2.1 * getF r.2.2.2.2.1 ((off - r.2.1) / 4) e ≤ 0x800000)
    else if r.1 = blk ∧ r.2.2.1 ≤ off ∧ off < r.2.2.1 + 16 then
      decide (low ≤ r.2.2.2.2.2.2) && decide (getF r.2.2.2.1 ((off - r.2.2.1) / 4) e + r.2.2.2.2.2.1 * low ≤ 0x800000)
    else true

/-- Foreign domain `k` is used by a port or by a bridge channel of the admitted graph (R202). -/
def chanUsed (e : Engine) (n : Nat) : Bool := e.sched.adm.items.any fun p => dKind p.2 == 2 && dEntry p.2 % 256 == n
def fnUsed (e : Engine) (k : Nat) : Bool :=
  ((List.range 32).any fun i => isF .PORT_SAPCFG_EN i e && getF .PORT_SAPCFG_DOM i e == 2 && getF .PORT_SAPCFG_FN i e == k)
  || ((List.range 16).any fun i => isF .PORT_AESCFG_EN i e && getF .PORT_AESCFG_DOM i e == 2 && getF .PORT_AESCFG_FN i e == k)
  || ((List.range 4).any fun i => isF .PORT_MADICFG_EN i e && getF .PORT_MADICFG_DOM i e == 2 && getF .PORT_MADICFG_FN i e == k)
  || ((List.range 256).any fun n => chanUsed e n && 5 ≤ getF .ROUTE_BRCFG_KIND n e && getF .ROUTE_BRCFG_FN n e == k)

def rejectRoute (e : Engine) : Engine := setF .ROUTE_CFG_REJ 0 1 e

/-- `ROUTE_CFG` (R199): the ratio is written in Quiescent, and ×4 only at 44.1 and 48 kHz. -/
def routeCfgWrite (v : Nat) (e : Engine) : Engine :=
  let d := v / 256 % 4
  let old := getF .ROUTE_CFG_DRATIO 0 e
  let bad := d != old && (!inQuiescent e || (d == 2 && decide (1 < getF .SYS_FRAME_CFG_RATE 0 e)))
  let e := plainWrite 9 0 v e
  if bad then rejectRoute (setF .ROUTE_CFG_DRATIO 0 old e) else e

/-- A ROUTE_ register. -/
def routeWrite (off v : Nat) (e : Engine) : Engine :=
  if off = 0 then routeCfgWrite v e
  else if 0x100 ≤ off ∧ off < 0x140 then (if fnUsed e ((off - 0x100) / 4) then rejectRoute e else tickWrite 9 off v e)
  else if 0x400 ≤ off ∧ off < 0x800 then
    let n := (off - 0x400) / 4
    let k := v % 16
    let wrong := ((k == 1 || k == 2) && getF .ROUTE_CFG_DRATIO 0 e != 1) || ((k == 3 || k == 4) && getF .ROUTE_CFG_DRATIO 0 e != 2)
    if chanUsed e n || wrong then rejectRoute e else tickWrite 9 off v e
  else plainWrite 9 off v e

/-- A SUM_ register (R247). -/
def sumWrite (off v : Nat) (e : Engine) : Engine :=
  if 0x20 ≤ off ∧ off < 0x40 then plainWrite 10 off v e
  else if off = 0x58 ∨ off = 0x5C then effLoudResetWrite ((off - 0x58) / 4) v e
  else if 0x1000 ≤ off ∧ off < 0x1400 then
    let n := (off - 0x1000) / 4
    (rowsAt 10 off).foldl (fun e p =>
      if p.1.fld = .SUM_BUSCFG_SHARED then (if n < 224 ∧ v / 2 ^ 29 % 4 ≠ 0 then e else deferField v e p) else storeField v e p) e
  else tickWrite 10 off v e

/-- A DDRC_ register (R439): the configuration is written in Quiescent; enabling the channel trains it and puts it in service. -/
def ddrcWrite (off v : Nat) (e : Engine) : Engine :=
  if off = 0 then
    if inQuiescent e then
      let was := isF .DDRC_CFG_EN 0 e
      let e := plainWrite 4 0 v e
      if isF .DDRC_CFG_EN 0 e then (if was then e else setF .DDRC_STAT_STATE 0 2 e) else setF .DDRC_STAT_STATE 0 0 e
    else e
  else if off = 0x30 then showLog (plainWrite 4 off v e)
  else plainWrite 4 off v e

/-- `NET_PORTCFGp` (Table 11.7, R341): ETH0 and ETH1 have no SPEED 0b10, and RS is a value of FEC at 25 Gb/s only; a reserved value leaves its field
(R504). -/
def portCfgWrite (p v : Nat) (e : Engine) : Engine :=
  let speed := v / 2 ^ 29 % 4
  let fec := v / 2 ^ 27 % 4
  let e := setF .NET_PORTCFG_EN p (v / 2 ^ 31 % 2) e
  let e := if speed < (if p = 2 then 3 else 2) then setF .NET_PORTCFG_SPEED p speed e else e
  if fec < 2 ∨ (fec = 2 ∧ p < 2 ∧ getF .NET_PORTCFG_SPEED p e = 0) then setF .NET_PORTCFG_FEC p fec e else e

/-- A NET_ register (R369). -/
def netWrite (off v : Nat) (e : Engine) : Engine :=
  if off < 0x0C then (if inQuiescent e ∧ off % 4 = 0 then portCfgWrite (off / 4) v e else e)
  else if off = 0x108 then
    ringCfg .NET_HRX_CFG_EN .NET_HRX_CFG_LOG2 0 (getF .NET_HRX_BASE_HI_BASE 0 e) (getF .NET_HRX_BASE_LO_BASE 0 e) 7 off v id id e
  else if off = 0x128 then
    ringCfg .NET_HTX_CFG_EN .NET_HTX_CFG_LOG2 0 (getF .NET_HTX_BASE_HI_BASE 0 e) (getF .NET_HTX_BASE_LO_BASE 0 e) 7 off v id id e
  else plainWrite 7 off v e

/-- A SYS_ register. -/
def sysWrite (off v : Nat) (e : Engine) : Engine :=
  if off = 0x100 then effSysFrameCfgWrite v e
  else if off = 0x210 then { e with host := { e.host with aoLo := v } }
  else if off = 0x214 then setAoSec (2 ^ 32 * (v % 256) + e.host.aoLo) e
  else plainWrite 0 off v e

/-- A register of command ring `k` (Table 8.9). -/
def crWrite (k o v : Nat) (off : Nat) (e : Engine) : Engine :=
  if o = 0x08 then
    ringCfg .HOST_CR_CFG_EN .HOST_CR_CFG_LOG2 k (getF .HOST_CR_BASE_HI_BASE k e) (getF .HOST_CR_BASE_LO_BASE k e) 1 off v settleRings
      (disableRing k) e
  else if o = 0x0C then effHostCrTailWrite k (v % 65536) [] e
  else if o = 0x14 then effHostCrSeqWrite k v e
  else plainWrite 1 off v e

/-- A register of completion ring `k` (Table 8.10). -/
def cqWrite (k o v : Nat) (off : Nat) (e : Engine) : Engine :=
  if o = 0x08 then
    ringCfg .HOST_CQ_CFG_EN .HOST_CQ_CFG_LOG2 k (getF .HOST_CQ_BASE_HI_BASE k e) (getF .HOST_CQ_BASE_LO_BASE k e) 1 off v
      (fun e => settleRings (payOwed e.ctl.owed.length k e)) id e
  else if o = 0x10 then effHostCqHeadWrite k (v % 65536) e
  else plainWrite 1 off v e

/-- A HOST_ register. -/
def hostWrite (off v : Nat) (e : Engine) : Engine :=
  if off = 0x24 then
    let e := if v / 2 ^ 31 % 2 = 1 then effGo e else e
    if v / 2 ^ 30 % 2 = 1 then effCommitsvn e else e
  else if off = 0x2C then effManifestWrite v e
  else if off = 0x30 then (if v % 4 = 3 then e else requestPower (v % 4) e)
  else if off = 0x38 then effPowerCycleRequest v (effWarmResetRequest v e)
  else if off = 0x40 then effQspiCommand v e
  else if off = 0x44 then pushFifo v e
  else if 0x1000 ≤ off ∧ off < 0x1100 then crWrite ((off - 0x1000) / 32) (off % 32) v off e
  else if 0x1100 ≤ off ∧ off < 0x1200 then cqWrite ((off - 0x1100) / 32) (off % 32) v off e
  else if off = 0x1208 then
    ringCfg .HOST_EV_CFG_EN .HOST_EV_CFG_LOG2 0 (getF .HOST_EV_BASE_HI_BASE 0 e) (getF .HOST_EV_BASE_LO_BASE 0 e) 1 off v
      (fun e => postOwed (reportLost e)) id e
  else if off = 0x1210 then effEvHead (v % 65536) e
  else if 0x1300 ≤ off ∧ off < 0x1310 then (if inQuiescent e then plainWrite 1 off v e else e)
  else plainWrite 1 off v e

/-- A write of a register, by the rules of its block. -/
def regWrite (blk off v : Nat) (e : Engine) : Engine :=
  if !areaOk blk off v e then e
  else match blk with
    | 0 => sysWrite off v e
    | 1 => hostWrite off v e
    | 2 => if off = 4 then tickWrite 2 off v e else plainWrite 2 off v e
    | 3 => if off < 0xA0 then tickWrite 3 off v e else plainWrite 3 off v e
    | 4 => ddrcWrite off v e
    | 7 => netWrite off v e
    | 9 => routeWrite off v e
    | 10 => sumWrite off v e
    | b => plainWrite b off v e

def effRegisterWrite (blk off v : Nat) (e : Engine) : Engine := regWrite blk off v e

def execRegisterWrite (blk off val : Nat) (s : State) : Host.Outcome State Fault Refusal :=
  runLive "REGISTER_WRITE" (Instr.registerWrite blk off val).wf (effRegisterWrite blk off val) s

/-- The writes that wait in the peripheral bridge take effect, in order (R438). -/
def drainPosted (e : Engine) : Engine :=
  e.xmem.posted.foldl (fun e p => match regAt p.1 with | some r => regWrite r.1 r.2 p.2 e | none => e) { e with xmem := { e.xmem with posted := [] } }

/-- The bridge runs accesses in order: writes that wait have taken effect before a later read, and before a seventeenth write (R438). -/
def bridgeTurn (t : Nat) (wr : Bool) (e : Engine) : Engine :=
  if t = 15 ∧ (!wr ∨ 16 ≤ e.xmem.posted.length) then drainPosted e else e

/-- The oldest transaction at a target takes effect and is answered (R433, R436, R437). One that the DDR queue carries is answered with
what its entries gave. -/
def effXbarResponse (t : Nat) (e : Engine) : Engine :=
  match takeLive (openAt e t) with
  | none => e
  | some (x, rest) =>
    if inQueue e x then e
    else if x.queued then showPool (answerMaster x.m x.code x.got (setOpen t rest e))
    else
      let r := access (setOpen t rest (bridgeTurn t x.wr e)) x.m x.addr x.wr false x.data x.len
      showPool (answerMaster x.m r.code.code r.data r.e)

def execXbarResponse (t : Nat) (s : State) : Host.Outcome State Fault Refusal :=
  runLive "XBAR_RESPONSE" (Instr.xbarResponse t).wf (effXbarResponse t) s

/-! ### BAR0, BAR2 and configuration space (R454–R457) -/

/-- What the host reads, and its PCIe completion. -/
def answerHost (data : List Byte) (status : Nat) (e : Engine) : Engine := { e with host := { e.host with rd := data, rdStatus := status } }

/-- An inbound write that is discarded (R456). -/
def failWrite (e : Engine) : Engine := bumpF .HOST_PCIE_STAT_WERR 0 1 { e with host := { e.host with aer := true } }

/-- A word of the MSI-X table. PRESUMED (log entry 97): a vector is masked after reset, as PCIe gives. -/
def msixDefault (i : Nat) : Nat := if i % 4 = 3 then 1 else 0
def msixWord (e : Engine) (i : Nat) : Nat := tget (msixDefault i) e.host.msix i
def setMsix (i v : Nat) (e : Engine) : Engine := { e with host := { e.host with msix := tput (msixDefault i) e.host.msix i v } }

/-- Pending bits of 32 vectors from `32·h`: masked vectors whose sources have fired. -/
def pendingBits (e : Engine) (h : Nat) : Nat :=
  (List.range 32).foldl (fun v j =>
    let n := 32 * h + j
    if tget false e.ctl.msi n && msixWord e (4 * n + 3) % 2 == 1 then v + 2 ^ j else v) 0

/-- The register that a BAR0 offset reaches (Table 15.1). -/
def bar0Reg (e : Engine) (off : Nat) : Option (Nat × Nat) :=
  if off < 0x4000 then some (1, off) else if 0x8000 ≤ off then some (getF .HOST_REGWIN_BLK 0 e, off - 0x8000) else none

/-- A host access through BAR0 (R455, R456). An offset that Table 15.1 does not name reads a free value. -/
def effBar0Access (off len : Nat) (wr : Bool) (v : Nat) (e : Engine) : Engine :=
  if len ≠ 4 ∨ off % 4 ≠ 0 then (if wr then failWrite e else answerHost [] 2 e)
  else
    let e := drainPosted e
    match bar0Reg e off with
    | some r =>
      if wr then regWrite r.1 r.2 v e
      else
        let f := takeFree e
        let x := readReg r.1 r.2 (f.1.toNat % frameNs e) f.2
        answerHost (leBytes x.1 4) 0 x.2
    | none =>
      if off < 0x4400 then
        if wr then setMsix ((off - 0x4000) / 4) v e else answerHost (leBytes (msixWord e ((off - 0x4000) / 4)) 4) 0 e
      else if wr then e
      else if off = 0x5000 ∨ off = 0x5004 then answerHost (leBytes (pendingBits e ((off - 0x5000) / 4)) 4) 0 e
      else if 0x6000 ≤ off then answerHost [0, 0, 0, 0] 0 e
      else let f := freeBytes e 4; answerHost f.1 0 f.2

def execBar0Access (off len : Nat) (wr : Bool) (val : Nat) (s : State) : Host.Outcome State Fault Refusal :=
  runLive "BAR0_ACCESS" (Instr.bar0Access off len wr val).wf (effBar0Access off len wr val) s

/-- A BAR2 write, split at 512-byte boundaries; each part that gets an error response is discarded. -/
def bar2Write (a : Nat) (data : List Byte) (e : Engine) : Nat → Resp × Engine
  | 0 => (.done, e)
  | f + 1 =>
    if data.isEmpty then (.done, e)
    else
      let k := min data.length (512 - a % 512)
      let r := access e 39 a true true (data.take k) k
      let t := bar2Write (a + k) (data.drop k) r.e f
      (r.code.then_ t.1, t.2)

/-- A BAR2 read, split likewise. -/
def bar2Read (a n : Nat) (e : Engine) : Nat → Resp × List Byte × Engine
  | 0 => (.done, [], e)
  | f + 1 =>
    if n = 0 then (.done, [], e)
    else
      let k := min n (512 - a % 512)
      let r := access e 39 a false true [] k
      let t := bar2Read (a + k) (n - k) r.e f
      (r.code.then_ t.1, r.data ++ t.2.1, t.2.2)

/-- The engine address of a BAR2 offset. -/
def bar2At (e : Engine) (off : Nat) : Nat := 2 ^ 32 * getF .HOST_BAR2_BASE_HI_BASE 0 e + 2 ^ 20 * getF .HOST_BAR2_BASE_LO_BASE 0 e + off

/-- A host access through BAR2 (R456). -/
def effBar2Access (off : Nat) (wr : Bool) (data : List Byte) (n : Nat) (e : Engine) : Engine :=
  let a := bar2At e off
  let e := drainPosted e
  if wr then
    let r := bar2Write a data e (data.length + 1)
    let e := drainPosted r.2
    if r.1 = .done then e else failWrite e
  else
    let r := bar2Read a n e (n + 1)
    match r.1 with
    | .done => answerHost r.2.1 0 r.2.2
    | .nodest => answerHost [] 1 r.2.2
    | .tfail => answerHost [] 2 r.2.2
    | .poison => answerHost r.2.1 3 r.2.2

def execBar2Access (off : Nat) (wr : Bool) (data : List Byte) (len : Nat) (s : State) : Host.Outcome State Fault Refusal :=
  runLive "BAR2_ACCESS" (Instr.bar2Access off wr data len).wf (effBar2Access off wr data len) s

/-- Link down, hot reset, function-level reset, Bus Master Enable cleared or D3hot: causes 0 to 4 (R458). -/
def effLinkDown (cause : Nat) (e : Engine) : Engine :=
  let e := hostGone e
  if cause = 0 then setF .HOST_PCIE_STAT_DOWNS 0 1 (setF .HOST_PCIE_STAT_LINKUP 0 0 e) else e

def execLinkDown (cause : Nat) (s : State) : Host.Outcome State Fault Refusal :=
  runLive "LINK_DOWN" (Instr.linkDown cause).wf (effLinkDown cause) s

/-- The endpoint has trained the link (R454). -/
def effPcieLinkUp (speed width : Nat) (e : Engine) : Engine :=
  setF .HOST_PCIE_STAT_LINKUP 0 1 (setF .HOST_PCIE_STAT_WIDTH 0 width (setF .HOST_PCIE_STAT_SPEED 0 speed (hostBack e)))

def execPcieLinkUp (speed width : Nat) (s : State) : Host.Outcome State Fault Refusal :=
  run "PCIE_LINK_UP" (Instr.pcieLinkUp speed width).wf (effPcieLinkUp speed width) s

def cfgWord (e : Engine) (off : Nat) : Nat := tget 0 e.host.cfg off
def setCfg (off v : Nat) (e : Engine) : Engine := { e with host := { e.host with cfg := tput 0 e.host.cfg off v } }

/-- A double word of configuration space. PRESUMED (log entry 97): the PCIe header's layout; the spec gives the device ID, the sizes and kinds of the two
BARs and which capabilities stand. What a double word outside them reads is free. -/
def cfgRead (off : Nat) (e : Engine) : Nat × Engine :=
  match off with
  | 0x00 => (0x0640 * 65536 + Config.vendorId.toNat, e)
  | 0x04 | 0x14 | 0x1C => (cfgWord e off, e)
  | 0x10 => (cfgWord e off + 0x4, e)
  | 0x18 => (cfgWord e off + 0xC, e)
  | _ => let f := takeFree e; (f.1.toNat % 2 ^ 32, f.2)

/-- A configuration write: the command word, whose Bus Master Enable has the effect of R458, and the BARs. -/
def cfgWrite (off v : Nat) (e : Engine) : Engine :=
  match off with
  | 0x04 =>
    let was := cfgWord e 4 / 4 % 2
    let e := setCfg 4 (v % 65536) e
    if v / 4 % 2 = 1 then hostBack e else if was = 1 then hostGone e else e
  | 0x10 => setCfg off (65536 * (v / 65536) % 2 ^ 32) e
  | 0x18 => setCfg off (0x10000000 * (v / 0x10000000) % 2 ^ 32) e
  | 0x14 | 0x1C => setCfg off (v % 2 ^ 32) e
  | _ => e

/-- A configuration request, which hardware answers at whatever stage boot is (R454). -/
def effConfigurationRequest (off : Nat) (wr : Bool) (v : Nat) (e : Engine) : Engine :=
  if wr then cfgWrite off v e
  else let r := cfgRead off e; answerHost (leBytes r.1 4) 0 r.2

def execConfigurationRequest (off : Nat) (wr : Bool) (val : Nat) (s : State) : Host.Outcome State Fault Refusal :=
  run "CONFIGURATION_REQUEST" (Instr.configurationRequest off wr val).wf (effConfigurationRequest off wr val) s

/-- A vector whose sources have fired sends one message for all of them, unless it is masked (R459). -/
def effMsiXMessage (v : Nat) (e : Engine) : Engine :=
  if tget false e.ctl.msi v && msixWord e (4 * v + 3) % 2 == 0 && !e.host.linkOff then
    { e with ctl := { e.ctl with msi := tput false e.ctl.msi v false }
             host := { e.host with msiOut := some (v, 2 ^ 32 * msixWord e (4 * v + 1) + msixWord e (4 * v), msixWord e (4 * v + 2)) } }
  else e

def execMsiXMessage (v : Nat) (s : State) : Host.Outcome State Fault Refusal :=
  runLive "MSI_X_MESSAGE" (Instr.msiXMessage v).wf (effMsiXMessage v) s

/-- The directive in front of a ring, whose payload or buffer could not be read, completes with 0x0105. -/
def failFront (k : Nat) (e : Engine) : Engine :=
  if (getRing e k).hold.isSome then settleRings (failHold k 0x0105 e)
  else if (getRing e k).active && !(getRing e k).words.isEmpty then
    match frontOf (getRing e k).words with
    | some f => settleRings (refuseDir k f.op f.tag f.flags 0x0105 (failTxn k f.tag (popDir k e)))
    | none => e
  else e

/-- An outbound read ends in an error (R457): on a directive's payload or buffer, or on the ring itself, which halts. -/
def effOutboundReadError (k : Nat) (payload cto : Bool) (e : Engine) : Engine :=
  let e := if cto then bumpF .HOST_PCIE_STAT_CTO 0 1 e else e
  if payload then failFront k e
  else
    let a := 2 ^ 32 * getF .HOST_CR_BASE_HI_BASE k e + getF .HOST_CR_BASE_LO_BASE k e + 8 * getF .HOST_CR_HEAD_HEAD k e
    postEvent 0x0B05 [k, a] (haltRing k e)

def execOutboundReadError (ring : Nat) (payload cto : Bool) (s : State) : Host.Outcome State Fault Refusal :=
  runLive "OUTBOUND_READ_ERROR" (Instr.outboundReadError ring payload cto).wf (effOutboundReadError ring payload cto) s

end Sys2Proof.Machine
end

