-- ==== Sys2Proof/Machine/RouteEvents.lean ====
section
/-! DEFINITION. The commands of routing, rate conversion and gain points: crossings, timeouts and ends of fades, fallback returns, the ASRC
states, and the steps of gain points (R184–R193, R205, R224). -/
namespace Sys2Proof.Machine

/-! ### Sinks -/

/-- The sink is in ZCWAIT, position `k` is in the frame and not yet carried, and the old source crosses zero there: it takes the new source
from sample `k` on (R186). -/
def effZeroCrossingCut (t k : Nat) (e : Engine) : Engine :=
  let s := getSink e t
  match s.st, s.pend with
  | .zcwait, some r =>
    if s.y.length ≤ k ∧ k < sinkLen e t ∧ sourceCrosses e t k then
      let s := sinkTo e t k s
      settleEffects (endReq t 0 (some r) (setSink t { s with st := .steady, cur := r.src, pend := none, pos := 0 } e))
    else e
  | _, _ => e

def execZeroCrossingCut (sink k : Nat) (s : State) : Host.Outcome State Fault Refusal :=
  runLive "ZERO_CROSSING_CUT" (Instr.zeroCrossingCut sink k).wf (effZeroCrossingCut sink k) s

/-- T of R186 in samples. -/
def zcTimeoutOf (e : Engine) (t : Nat) : Nat := (roundDiv ((getF .ROUTE_CFG_ZC_TIMEOUT 0 e * sinkHz e t : Nat) : Int) 2000).toNat

/-- A wait of `n` samples is over at a position: it is the first that is not short of `n`, `front` saying that none before it is left to
judge. -/
def firstAt (n pos : Nat) (front : Bool) : Bool := pos == n || (front && decide (n < pos))

/-- No crossing within T samples: a linear crossfade of 32 samples starts at sample `k` (R186). -/
def effZcTimeout (t k : Nat) (e : Engine) : Engine :=
  let s := getSink e t
  match s.st, s.pend with
  | .zcwait, some r =>
    let s' := sinkTo e t k s
    if s.y.length ≤ k ∧ k < sinkLen e t ∧ firstAt (zcTimeoutOf e t) s'.pos (s.y.length == k) then
      bumpF .ROUTE_STAT_ZC_TIMEOUTS 0 1
        (setSink t { s' with st := .fade, out := s'.cur, cur := r.src, act := some r, pend := none, mode := 1, len := 0, pos := 0 } e)
    else e
  | _, _ => e

def execZcTimeout (sink k : Nat) (s : State) : Host.Outcome State Fault Refusal :=
  runLive "ZC_TIMEOUT" (Instr.zcTimeout sink k).wf (effZcTimeout sink k) s

/-- Sample `k` is the last of a fade or of a fallback move: the sink goes to the state after it, and the request that waits starts at the
next sample (R187, R188, R190). -/
def effFadeEnd (t k : Nat) (e : Engine) : Engine :=
  let s := getSink e t
  let n := match s.st with
    | .fade => fadeLen s.len
    | .fbfade => 32
    | _ => 0
  let s' := if k < sinkLen e t then sinkTo e t (k + 1) s else s
  if n = 0 ∨ s'.pos < n then e
  else
    let e := setSink t s' e
    if s.st = .fade then settleEffects (endFade t e)
    else
      let e := endMove t e
      let s := getSink e t
      settleEffects (if s.st = .fbact ∧ s.carry ≠ 0x3FFF ∧ isLost e s.carry then
        loseFallback t (setSink t { s with last := s.y.getLastD s.last } e)
      else e)

def execFadeEnd (sink k : Nat) (s : State) : Host.Outcome State Fault Refusal :=
  runLive "FADE_END" (Instr.fadeEnd sink k).wf (effFadeEnd sink k) s

/-- A fallback free of every loss cause for the hold time fades in from the silence that stands for it (R192). -/
def effFallbackReturn (t : Nat) (e : Engine) : Engine :=
  let s := getSink e t
  if s.st = .fbact ∧ s.carry = 0x3FFF ∧ s.fb ≠ 0x3FFF ∧ !isLost e s.fb ∧ holdOver e s.fbClean then
    fbEvent t 4 (setSink t (startMove (.const 0) (.src s.fb) .fbact s) e)
  else e

def execFallbackReturn (sink : Nat) (s : State) : Host.Outcome State Fault Refusal :=
  runLive "FALLBACK_RETURN" (Instr.fallbackReturn sink).wf (effFallbackReturn sink) s

/-- With REVERT set, the source in CUR that has been free of every loss cause for the hold time is crossfaded back (R193). -/
def effReversion (t : Nat) (e : Engine) : Engine :=
  let s := getSink e t
  if s.st = .fbact ∧ s.revert ∧ !isLost e s.cur ∧ holdOver e s.curClean then
    let e := if s.curLost then postEvent 0x0202 [2 ^ 48 * t] e else e
    fbEvent t 3 (setSink t (startMove (.src s.carry) (.src s.cur) .steady { s with curLost := false, curTaint := false, newFb := false }) e)
  else e

def execReversion (sink : Nat) (s : State) : Host.Outcome State Fault Refusal :=
  runLive "REVERSION" (Instr.reversion sink).wf (effReversion sink) s

/-! ### ASRC (R204, R205) -/

/-- The channel is an enabled ASRC channel. -/
def isAsrc (e : Engine) (ch : Nat) : Bool :=
  isF .ROUTE_BRCFG_EN ch e && (getF .ROUTE_BRCFG_KIND ch e == 5 || getF .ROUTE_BRCFG_KIND ch e == 6)

/-- The octave stage and the core ratio of an overall ratio, in units of 2^-22 (R204). -/
def octOf (r : Nat) : Nat × Nat :=
  if r < 2 ^ 21 then (1, 2 * r) else if r ≤ 2 ^ 23 then (0, r) else (2, r / 2)

/-- A ratio in range (R204). -/
def ratioOk (r : Nat) : Bool := decide (2 ^ 20 ≤ r) && decide (r ≤ 2 ^ 24)

/-- A change of state of an ASRC channel, which takes effect at the next frame boundary (R205). -/
def asrcChange (ch st r : Nat) (e : Engine) : Engine :=
  { e with mix := { e.mix with asrcDue := tput (0, 0) e.mix.asrcDue ch (st + 1, r) } }

/-- The ratio has been steady for 20 ms: the channel locks at the boundary (R205). `r` is the measured ratio in units of 2^-22. -/
def effAsrcLock (ch r : Nat) (e : Engine) : Engine :=
  if isAsrc e ch ∧ getF .ROUTE_BRSTAT_STATE ch e ≠ 2 ∧ ratioOk r then asrcChange ch 2 r e else e

def execAsrcLock (ch ratio : Nat) (s : State) : Host.Outcome State Fault Refusal :=
  runLive "ASRC_LOCK" (Instr.asrcLock ch ratio).wf (effAsrcLock ch ratio) s

/-- Clock loss or a departure of more than 1000 ppm (R205). -/
def effAsrcUnlock (ch : Nat) (e : Engine) : Engine :=
  if isAsrc e ch ∧ getF .ROUTE_BRSTAT_STATE ch e = 2 then asrcChange ch 1 0 e else e

def execAsrcUnlock (ch : Nat) (s : State) : Host.Outcome State Fault Refusal :=
  runLive "ASRC_UNLOCK" (Instr.asrcUnlock ch).wf (effAsrcUnlock ch) s

/-- A measured ratio outside 0.25–4.0 (R205). -/
def effAsrcRange (ch r : Nat) (e : Engine) : Engine :=
  if isAsrc e ch ∧ !ratioOk r then asrcChange ch 3 r e else e

def execAsrcRange (ch ratio : Nat) (s : State) : Host.Outcome State Fault Refusal :=
  runLive "ASRC_RANGE" (Instr.asrcRange ch ratio).wf (effAsrcRange ch ratio) s

/-- The channel leaves LOCKED: UNLK is set, the output is declared lost and fades out from its last sample. -/
def leaveLocked (ch : Nat) (e : Engine) : Engine :=
  if getF .ROUTE_BRSTAT_STATE ch e = 2 then
    let h := (getSig e (0x3100 + ch)).getLastD 0
    let e := setF .ROUTE_BRSTAT_UNLK ch 1 e
    declareLost (0x3100 + ch) { e with mix := { e.mix with asrcFade := tput (32, 0) e.mix.asrcFade ch (0, h) } }
  else e

/-- The ratio of an ASRC channel as the engine measures its Foreign clock (R200), in units of 2^-22; none while the clock is absent or its
offset saturates. -/
def measuredRatio (e : Engine) (ch : Nat) : Option Nat :=
  let k := getF .ROUTE_BRCFG_FN ch e
  let ofs := signed 24 (getF .ROUTE_FN_STAT_OFFSET k e)
  if !isF .ROUTE_FN_STAT_PRESENT k e ∨ 8388607 ≤ ofs.natAbs then none
  else
    let f := nomHz (getF .ROUTE_FN_CFG_NOM k e) * (100000000 + ofs).toNat
    let h := houseHz e * 100000000
    some (if getF .ROUTE_BRCFG_KIND ch e = 5 then 2 ^ 22 * f / h else 2 ^ 22 * h / f)

/-- ACQUIRE is entered: the octave stage follows the measured ratio (R204). -/
def enterAcquire (ch : Nat) (e : Engine) : Engine :=
  let e := setF .ROUTE_BRSTAT_STATE ch 1 e
  match measuredRatio e ch with
  | some r => setF .ROUTE_BRSTAT_OCT ch (octOf r).1 e
  | none => e

/-- The core ratio of a measured ratio behind an octave stage. -/
def coreOf (oct r : Nat) : Nat := if oct = 1 then 2 * r else if oct = 2 then r / 2 else r

/-- LOCKED is entered: the output fades in. The octave stage held since ACQUIRE stands when its core takes the ratio. The instantaneous delay
lies within 2 samples of 64, and the spec says no more of it. -/
def enterLocked (ch r : Nat) (e : Engine) : Engine :=
  let p := takeFree e
  let e := setF .ROUTE_BRSTAT_STATE ch 2 p.2
  let held := getF .ROUTE_BRSTAT_OCT ch e
  let oct := if 2 ^ 21 ≤ coreOf held r ∧ coreOf held r ≤ 2 ^ 23 then held else (octOf r).1
  let e := setF .ROUTE_BRSTAT_RATIO ch (coreOf oct r) (setF .ROUTE_BRSTAT_OCT ch oct e)
  let e := setF .ROUTE_BRSTAT_DLYOFS ch ([6, 7, 0, 1, 2].getD (p.1.toNat % 5) 0) e
  declareFound (0x3100 + ch) { e with mix := { e.mix with asrcFade := tput (32, 0) e.mix.asrcFade ch (0, 0) } }

/-- A bridge channel at the boundary (Tables 6.8, 6.15): a fixed-ratio channel is LOCKED while enabled, an ASRC channel enters ACQUIRE when it is
enabled, and the change that waits takes effect; a channel that is not enabled leaves its state. -/
def channelTick (e : Engine) (ch : Nat) : Engine :=
  let st := getF .ROUTE_BRSTAT_STATE ch e
  let kind := getF .ROUTE_BRCFG_KIND ch e
  let due := tget (0, 0) e.mix.asrcDue ch
  if !isF .ROUTE_BRCFG_EN ch e ∨ kind = 0 ∨ 6 < kind then
    setF .ROUTE_BRSTAT_STATE ch 0 (if kind = 5 ∨ kind = 6 then leaveLocked ch e else e)
  else if kind < 5 then setF .ROUTE_BRSTAT_STATE ch 2 e
  else
    let e := if st = 0 then enterAcquire ch e else e
    match due with
    | (2, _) => if getF .ROUTE_BRSTAT_STATE ch e = 2 then enterAcquire ch (leaveLocked ch e) else e
    | (3, r) => if getF .ROUTE_BRSTAT_STATE ch e = 2 then e else enterLocked ch r e
    | (4, _) => setF .ROUTE_BRSTAT_STATE ch 3 (leaveLocked ch e)
    | _ => e

/-- The bridge channels that a tick concerns: those enabled, and those in a state. -/
def liveChannels (e : Engine) : List Nat :=
  e.regs.foldl (fun l p =>
    if p.1 % 1024 = Fld.ROUTE_BRCFG_EN.ctorIdx ∨ p.1 % 1024 = Fld.ROUTE_BRSTAT_STATE.ctorIdx then insertNat (p.1 / 1024) l else l) []

def bridgeTick (e : Engine) : Engine :=
  let e := (liveChannels e).foldl channelTick e
  { e with mix := { e.mix with asrcDue := [] } }

/-- A Foreign domain that the other audio family clocks is present while it is enabled, and runs at its nominal rate against the house: SB
follows SA at the fixed ratio (R200, R315). -/
def otherFamily (e : Engine) : Engine :=
  (List.range 16).foldl (fun e k =>
    if isF .ROUTE_FN_CFG_EN k e && getF .ROUTE_FN_CFG_SRC k e == 4 then setF .ROUTE_FN_STAT_OFFSET k 0 (setF .ROUTE_FN_STAT_PRESENT k 1 e) else e) e

/-! ### Gain points (Table 7.5) -/

/-- A zero crossing at sample `k`: G := T from there (R224). -/
def effGainZeroCrossingStep (i k : Nat) (e : Engine) : Engine :=
  let p := getGp e i
  if p.st = .zcwait ∧ p.traj.length ≤ k ∧ gpCrosses e i k then
    let p := gpTo e i k
    settleEffects (refreshPend (setGp i { p with g := p.t, st := .steady, pos := 0 } e))
  else e

def execGainZeroCrossingStep (gp k : Nat) (s : State) : Host.Outcome State Fault Refusal :=
  runLive "GAIN_ZERO_CROSSING_STEP" (Instr.gainZeroCrossingStep gp k).wf (effGainZeroCrossingStep gp k) s

/-- TO samples without a crossing: the point ramps from sample `k` (R224, R225). -/
def effGainTimeout (i k : Nat) (e : Engine) : Engine :=
  let p := getGp e i
  let p' := gpTo e i k
  if p.st = .zcwait ∧ p.traj.length ≤ k ∧ firstAt (gpTimeout e i) p'.pos (p.traj.length == k) then
    bumpF .SUM_STAT_GP_TIMEOUTS 0 1 (setGp i { p' with st := .ramp, g0 := p'.g, pos := 0 } e)
  else e

def execGainTimeout (gp k : Nat) (s : State) : Host.Outcome State Fault Refusal :=
  runLive "GAIN_TIMEOUT" (Instr.gainTimeout gp k).wf (effGainTimeout gp k) s

/-- Sample `k` is the last of a ramp: the point waits for a held target that differs, else is STEADY (R224). -/
def effRampEnd (i k : Nat) (e : Engine) : Engine :=
  let p := getGp e i
  let p' := gpTo e i (k + 1)
  if p.st = .ramp ∧ gpRamp e i ≤ p'.pos then
    let q := match p'.next with
      | some t => if t ≠ p'.t then { p' with st := .zcwait, t := t, next := none, pos := 0 } else { p' with st := .steady, next := none, pos := 0 }
      | none => { p' with st := .steady, pos := 0 }
    settleEffects (refreshPend (setGp i q e))
  else e

def execRampEnd (gp k : Nat) (s : State) : Host.Outcome State Fault Refusal :=
  runLive "RAMP_END" (Instr.rampEnd gp k).wf (effRampEnd gp k) s

end Sys2Proof.Machine
end

