-- ==== Sys2Proof/Machine/FrameTick.lean ====
section
/-! DEFINITION. The house frame tick (R49–R52) and the start of a graph after a warm takeover (R423): what the frame that ended leaves in
the registers of the scheduler, what applies at the tick in its order, and how the new frame starts. -/
namespace Sys2Proof.Machine

/-! ### The frame that ends: observability (R174, R176, R178) -/

/-- The k-th free value from here. -/
def freeAt (e : Engine) (k : Nat) : Nat := (Config.freeValue (e.free + k)).toNat

/-- A fraction of the frame time, in 1/65,536, of a busy time over `n` executors, saturating (R174); between two values the spec names no rounding, and
it gives none over no executors. -/
def busyFraction (e : Engine) (busy n k : Nat) : Nat :=
  if n = 0 then freeAt e k % 65536
  else min 0xFFFF (roundFree (65536 * busy) (n * (frameTime e).1) (freeAt e k))

/-- The busy time of a cell in the frame, in the unit of 1/`(frameTime e).2` ns; one that a debug handler holds is busy to the end. -/
def cellBusy (e : Engine) (c : Nat) : Nat :=
  let cl := getCell e c
  let f := frameTime e
  cl.busy * f.2 + if cl.item.isSome then f.1 - cl.from_ * f.2 else 0

/-- The busy time of an executor other than a cell, in the same unit. -/
def unitBusy (e : Engine) (b : Nat) : Nat := tget 0 e.sched.busy b * (frameTime e).2

def showBusy (e : Engine) : Engine :=
  (List.range 128).foldl (fun a j =>
    setF .SCHED_BUSY_ODD j (busyFraction e (cellBusy e (2 * j + 1)) 1 (2 * j + 1))
      (setF .SCHED_BUSY_EVEN j (busyFraction e (cellBusy e (2 * j)) 1 (2 * j)) a)) e

/-- Healthy cells of a region. -/
def healthyIn (e : Engine) (r : Nat) : List Nat := ((List.range 64).map (64 * r + ·)).filter fun c => !fencedCell e c

def sumOf (l : List Nat) : Nat := l.foldl (· + ·) 0

/-- The load of region `r`, shown and noted for the snapshot. -/
def showLoad (e : Engine) (r : Nat) : Engine :=
  let cs := healthyIn e r
  let v := busyFraction e (sumOf (cs.map (cellBusy e))) cs.length (256 + r)
  let e := maxF .SCHED_LOAD_PEAK r v (setF .SCHED_LOAD_LAST r v e)
  { e with sched := { e.sched with snap := { e.sched.snap with load := tput 0 e.sched.snap.load r (max v (tget 0 e.sched.snap.load r)) } } }

/-- The largest busy time of executors numbered from `b`. -/
def mostBusy (e : Engine) (b n : Nat) : Nat := maxOf ((List.range n).map fun j => unitBusy e (b + j))

/-- The utilisations: summing units, bridge channels, DMA channels, metering service. -/
def utilOf (e : Engine) (k : Nat) : Nat :=
  match k with
  | 0 => busyFraction e (mostBusy e 0 32) 1 260
  | 1 => busyFraction e (mostBusy e 32 256) 1 261
  | 2 =>
    let cs := (List.range 8).filter fun c => !fencedDma e c
    busyFraction e (sumOf (cs.map fun c => unitBusy e (288 + c))) cs.length 262
  | _ => busyFraction e (unitBusy e 296) 1 263

def utilFld (k : Nat) : Fld := [Fld.SCHED_UTIL0_SUM, .SCHED_UTIL0_BRIDGE, .SCHED_UTIL1_DMA, .SCHED_UTIL1_METER].getD k .SCHED_UTIL1_METER

def showUtil (e : Engine) (k : Nat) : Engine :=
  let v := utilOf e k
  let e := setF (utilFld k) 0 v e
  { e with sched := { e.sched with snap := { e.sched.snap with util := tput 0 e.sched.snap.util k (max v (tget 0 e.sched.snap.util k)) } } }

/-- The registers of the last complete frame. -/
def observeFrame (e : Engine) : Engine :=
  let e := [0, 1, 2, 3].foldl showUtil ([0, 1, 2, 3].foldl showLoad (showBusy e))
  { e with free := e.free + 264 }

/-- Four 16-bit values in a word, the first in [63:48]; each saturates. -/
def word4 (a b c d : Nat) : Nat := 2 ^ 48 * min a 0xFFFF + 2 ^ 32 * min b 0xFFFF + 2 ^ 16 * min c 0xFFFF + min d 0xFFFF

/-- The payload of Table 5.8. -/
def snapWords (e : Engine) : List Nat :=
  let s := e.sched.snap
  let dep := tget 0 s.depth
  let ld := tget 0 s.load
  let ut := tget 0 s.util
  [frameNo e, 2 ^ 48 * min e.sched.adm.items.length 0xFFFF + 2 ^ 32 * min e.sched.shed.length 0xFFFF + min s.late 0xFFFFFFFF,
    word4 (dep 3) (dep 2) (dep 1) (dep 0), word4 (dep 4) s.ovfl s.steals s.recalls, word4 (ld 3) (ld 2) (ld 1) (ld 0),
    word4 (ut 0) (ut 1) (ut 2) (ut 3)]

def Snap.empty : Snap := { late := 0, depth := [], ovfl := 0, steals := 0, recalls := 0, load := [], util := [] }

/-- The snapshot of a frame whose number is a multiple of N (R176); the period that it covers ends. -/
def snapshot (e : Engine) : Engine :=
  if frameNo e % max 1 (getF .SCHED_SNAP_CFG_N 0 e) ≠ 0 then e
  else
    let e := if isF .SCHED_SNAP_CFG_EN 0 e then postEvent 0x0105 (snapWords e) e else e
    { e with sched := { e.sched with snap := Snap.empty } }

/-! ### The frame that ends: what rolls over -/

/-- Signals that no item delivers are dropped: those of streams and generators are formed afresh for each frame. -/
def dropSignals (e : Engine) : Engine :=
  let live := (admIdx e).flatMap fun i => if 0 < dKind (admItem e i) ∧ dKind (admItem e i) ≠ 3 then outsOf e i else (tget none e.sched.outs i).getD []
  { e with mix := { e.mix with sig := e.mix.sig.filter fun p => live.contains p.1 } }

/-- Gain points and taps at position 0 of the frame that starts (R197, R226), and no signal concealed yet. -/
def rollPositions (e : Engine) : Engine :=
  let n := frameLen e
  { e with
    mix := { e.mix with
      gps := (e.mix.gps.map fun p => (p.1, { p.2 with traj := [] })).filter fun p => p.2 ≠ Gp.unity
      taps := (e.mix.taps.map fun p => (p.1, { p.2 with pos := p.2.pos + n })).filter fun p => decide (p.2.pos < 32) }
    sched := { e.sched with conc := (e.sched.conc.map fun p => (p.1, { p.2 with now := false })).filter fun p => p.2 ≠ Conceal.clear } }

/-- Cells at the boundary (R51): every cell waits, but one that a debug handler holds, whose frame abort is held with it (R111). -/
def emptyCells (e : Engine) : Engine :=
  let held := e.cells.filter fun p => p.2.item.isSome && p.2.handler == some 5
  let e := (e.cells.filter fun p => p.2.item.isSome && !(p.2.handler == some 5)).foldl (fun e p =>
    if fencedCell e p.1 then e else setF .SYS_CELL_STAT_STATE p.1 0 e) e
  { e with cells := held.map fun p => (p.1, { p.2 with busy := 0, from_ := 0 }) }

/-- Three frames in a row with a counter error lead to `RESET_FN` of the scheduler (Table 15.8). -/
def judgeCounters (e : Engine) : Engine :=
  let n := if e.sched.cntErr then e.sched.cntErrRun + 1 else 0
  let e := { e with sched := { e.sched with cntErr := false, cntErrRun := n % 3 } }
  if n = 3 then startChip 0x07 0 e else e

/-- The last frame is closed: what is counted over it, before the frame number rises. -/
def endFrame (e : Engine) : Engine :=
  let e := duckTick (fabMissed (takeCrcs (drainPosted e)))
  let e := meterTick (observeFrame e)
  let e := rollPositions (dropSignals (rollFrame e))
  judgeCounters (emptyCells e)

/-! ### The frame number (R49) -/

/-- The house sample index and the frame number rise; after a change of F in Quiescent neither steps (DESIGN CHOICE, log 140). -/
def nextFrame (e : Engine) : Engine :=
  let n := frameNo e + 1
  setF .SYS_FRAME_CNT_HI_FRAME 0 (n / 2 ^ 32) (setF .SYS_FRAME_CNT_LO_FRAME 0 n { e with sample := e.sample + frameLen e })

/-! ### Shedding at the tick (R22, R73, R74, R274) -/

/-- The signals of an item that has just been shed fade from their last good sample; later they are silent. -/
def shedSignals (new : Bool) (e : Engine) (i : Nat) : Engine :=
  (outsOf e i).foldl (fun e s => if new then concealSig false e s else setSig s [] e) e

/-- Items of the admitted graph, each once. -/
def distinctItems (e : Engine) (l : List Nat) : List Nat := (l.foldl (fun l i => insertNat i l) []).filter (admIdx e).contains

/-- Items leave and return: those decided during the frame, those whose arguments lie in a quarantined range, also when a graph that applies
at this tick brings them (R21), and those that the one re-admission run of this tick removes. While the supervisor restarts, the run waits
for its end (Table 1.8). -/
def shedTick (e : Engine) : Engine :=
  let back := e.sched.restoreNext
  let was := e.sched.shed.filter fun i => !back.contains i
  let told := distinctItems e e.sched.shedNext
  let hit := (distinctItems e (quarItems e)).filter fun i => !was.contains i && !told.contains i
  let e := { e with sched := { e.sched with shed := was ++ told ++ hit, shedNext := [], restoreNext := [] } }
  let rerun := e.health.readmit && supUp e
  let more := if rerun && !e.sched.adm.items.isEmpty then shedRun 1040 e else []
  let e := if rerun then showTests 1040 (shedAll e ++ more) { e with health := { e.health with readmit := false } } else e
  let e := shedEvents false 1000 (hit ++ more) e
  let now := told ++ hit ++ more
  let e := was.foldl (shedSignals false) e
  let e := now.foldl (shedSignals true) { e with sched := { e.sched with shed := e.sched.shed ++ more } }
  if now.isEmpty && back.isEmpty then e else refreshShed e

/-! ### The counters reload (R157) -/

/-- The counters of an item. -/
def loadedRun (d : Quad) (gone : Nat) : ItemRun :=
  { ItemRun.start with cnt := dDeps d - gone, fr := dFeeds d, fc := dFeeds d }

/-- A feeder whose count is 0 is parked; none is released here. -/
def parkLoaded (e : Engine) (f : Nat) : Engine :=
  let d := admItem e f
  if dKind d = 3 ∧ dFeeder d ∧ (getRun e f).cnt = 0 ∧ !e.sched.shed.contains f then
    let e := setRun f { getRun e f with st := .parked } e
    setRun (dFed d) { getRun e (dFed d) with fr := (getRun e (dFed d)).fr - 1 } e
  else e

/-- An item that is not a feeder and waits for nothing is released. -/
def releaseLoaded (e : Engine) (i : Nat) : Engine :=
  let d := admItem e i
  if dKind d = 3 ∧ dFeeder d then e else tryRelease i 0 e

/-- The scheduler starts a frame: nothing is queued or runs, and while the graph runs its counters reload. -/
def reloadCounters (e : Engine) : Engine :=
  let e := { e with sched := { e.sched with run := [], overflow := [], first := false, faults := [], orphans := [], busy := [] } }
  if !e.sched.running then refreshDepth e
  else
    let gone := (e.sched.shed.filter (admIdx e).contains).flatMap fun i => succsOf e.sched.adm (admItem e i)
    let e := (admIdx e).foldl (fun e i => setRun i (loadedRun (admItem e i) (gone.count i)) e) e
    refreshDepth ((admIdx e).foldl releaseLoaded ((admIdx e).foldl parkLoaded e))

/-! ### The domains (R48) -/

/-- `SYS_DOMAIN_STAT` changes at the boundary alone: the domains lost since the last one, and the house domain (R31). -/
def showDomains (e : Engine) : Engine :=
  let d := e.health.domLost
  let lost := (List.range 9).foldl (fun v b => if d / 2 ^ b % 2 = 1 then setBit v b true else v) (getF .SYS_DOMAIN_STAT_LOST 0 e)
  let on := (List.range 9).foldl (fun v b => if d / 2 ^ b % 2 = 1 then setBit v b false else v) (getF .SYS_DOMAIN_STAT_LOCKED 0 e)
  let e := setF .SYS_DOMAIN_STAT_LOST 0 lost (setF .SYS_DOMAIN_STAT_LOCKED 0 on { e with health := { e.health with domLost := 0 } })
  setF .SYS_DOMAIN_STAT_HOUSE_SB 0 (1 - getF .SYS_FRAME_CFG_RATE 0 e % 2) e

/-! ### The tick (R52, R227, R275) -/

/-- What applies at the tick: capacity changes, the losses of ports, directives and transactions, shedding, and the power state. -/
def applyTick (e : Engine) : Engine :=
  let e := showDomains (applyCaps (bridgeTick (otherFamily (takeRegsNext (recordTick e)))))
  let e := applyControl (judgeSinks (portFaults e))
  powerTick (shedTick e)

/-- The frame starts: activity, gain targets, generators, ports and their input commit, streams, time, the fabric, the pair, and the
scheduler. -/
def startFrame (e : Engine) : Engine :=
  let e := genTick (formTargets (sampleActivity e))
  let e := clockTick (ptpTick (netTick (portTick e)))
  let e := pairTick (fabTick e)
  let e := match e.pair.warmT with
    | some w => if e.sched.running ∧ w + 2 < frameNo e then { e with pair := { e.pair with warmT := none } } else e
    | none => e
  reloadCounters (markCycles (setF .SUM_METER_STAT_K 0 (meterK e) e))

/-- The house frame tick; one that takes the engine into Retain starts no frame. -/
def effFrameTick (e : Engine) : Engine :=
  let e := applyTick (snapshot (nextFrame (endFrame e)))
  if e.held = 0 then settleRings (settleEffects (startFrame e)) else e

def execFrameTick (s : State) : Host.Outcome State Fault Refusal := runLive "FRAME_TICK" Instr.frameTick.wf effFrameTick s

/-- Two frames after a warm takeover the new active starts its graph from the state of its active halves (R423, Table 13.7). -/
def effWarmGraphStart (e : Engine) : Engine :=
  match e.pair.warmT with
  | none => e
  | some w =>
    if pairRole e = 1 ∧ w + 2 ≤ frameNo e ∧ !e.sched.running ∧ inRun e then
      reloadCounters (freshStart { e with sched := { e.sched with running := true } })
    else e

def execWarmGraphStart (s : State) : Host.Outcome State Fault Refusal :=
  runLive "WARM_GRAPH_START" Instr.warmGraphStart.wf effWarmGraphStart s

end Sys2Proof.Machine
end

