-- ==== Sys2Proof/Machine/PtpSend.lean ====
section
/-! DEFINITION. The PTP messages that an instance sends (R343, R356, R358, R359). -/
namespace Sys2Proof.Machine

/-- A PTP timestamp of ns. -/
def ptpStamp (ns : Nat) : List Byte := beBytes (ns / 1000000000) 6 ++ beBytes (ns % 1000000000) 4

/-- A message of an instance, with a correction field. PRESUMED (log entry 23): the header of IEEE 1588-2019. -/
def ptpMsg (e : Engine) (i ty seq flags corr interval : Nat) (body : List Byte) : List Byte :=
  [BitVec.ofNat 8 ty, 2] ++ beBytes (34 + body.length) 2 ++ [BitVec.ofNat 8 (bits (getInst e i).w0 52 46), 0] ++ beBytes flags 2
    ++ beBytes corr 8 ++ beBytes 0 4 ++ beBytes (clockId e i) 8 ++ beBytes 1 2 ++ beBytes seq 2
    ++ [if ty = 0 then 0 else if ty = 1 then 1 else if ty = 8 then 2 else if ty = 9 then 3 else 5, BitVec.ofNat 8 interval] ++ body

/-- A message interval of a record, a signed number of 4 bits, as the header carries it. -/
def logInterval (v : Nat) : Nat := (signed 4 v % 2 ^ 8).toNat

/-- The timestamp of an event message at the PCS boundary, within ±4 ns, with a correction (R356). -/
def eventStamp (e : Engine) (t : Nat) (corr : Int) : Nat := (within 14 (t : Int) (clockNs e t : Int) 4 + corr).toNat

/-- Bytes of a PTP message on the wire, without the FCS: the Ethernet, VLAN, IP and UDP headers, and the two trailing bytes over IPv6 (R359). -/
def ptpBytes (e : Engine) (i : Nat) (m : List Byte) : Nat :=
  let p := getInst e i
  14 + (if bits p.w1 63 52 = 0 then 0 else 4) + (if instV6 p then 40 + 2 else 20) + 8 + m.length

/-- Puts a PTP message on a port's wire, `t` ns after the tick or at the first later moment that R343 allows. The state shows the message without
its headers: the manual gives the engine no IP address. -/
def putWire (i t : Nat) (m : List Byte) (e : Engine) : Engine := putFrame i (100 * (clockNs e t : Int)) (ptpBytes e i m) m e

/-- The moment at which an event message of `n` bytes that is due at `t` starts: nothing but the media packets scheduled ahead of it and a frame
that has started holds it (R343). -/
def eventAt (e : Engine) (i t n : Nat) : Nat :=
  let now := 100 * (clockNs e t : Int)
  t + ((firstFree e i now (wireTime e i n) - now + 99) / 100).toNat

/-- A PTP general message may start now: it has the priority of a host frame (R343). -/
def generalMay (e : Engine) (i t : Nat) (m : List Byte) : Bool := otherMay e i (100 * (clockNs e t : Int)) (wireTime e i (ptpBytes e i m))

/-- The number that an instance's next message of a type carries. -/
def ptpSeq (e : Engine) (i ty : Nat) : Nat := tget 0 (getInst e i).seqs ty

/-- An instance puts a message on its port's wire. -/
def sendPtp (i t ty flags interval : Nat) (body : List Byte) (e : Engine) : Engine :=
  let p := getInst e i
  let q := ptpSeq e i ty
  putWire i t (ptpMsg e i ty q flags 0 interval body) (setInst i { p with seqs := tput 0 p.seqs ty ((q + 1) % 2 ^ 16) } e)

/-- A two-step instance owes a follow-up message. -/
def oweFollow (i : Nat) (m : List Byte) (e : Engine) : Engine :=
  let p := getInst e i
  setInst i { p with follow := p.follow ++ [m] } e

/-- The instance acts as grandmaster: MASTER, with the DPLL locked to a slot that is not PTP (R358). -/
def actsMaster (e : Engine) (i : Nat) : Bool := ptpState e i == 6 && dpllIn e 1 && refType e (selSlot e) != 4

/-- The bytes of an event message: Sync and Delay_Req 44, the messages of the peer delay 54. -/
def eventBytes (e : Engine) (i ty : Nat) : Nat := ptpBytes e i (List.replicate (if ty < 2 then 44 else 54) 0)

/-- A Sync (R359): a one-step instance writes originTimestamp at launch; a two-step one sends it in the Follow_Up. -/
def sendSync (i t : Nat) (e : Engine) : Engine :=
  let p := getInst e i
  let t := eventAt e i t (eventBytes e i 0)
  let stamp := ptpStamp (eventStamp e t p.egress)
  let iv := logInterval (bits p.w0 45 42)
  if bit p.w0 55 then oweFollow i (ptpMsg e i 8 (ptpSeq e i 0) 0 0 iv stamp) (sendPtp i t 0 0x200 iv (ptpStamp 0) e)
  else sendPtp i t 0 0 iv stamp e

/-- The messages that an instance sends: 0 Sync, 1 Announce, 2 Delay_Req or Pdelay_Req, 3 the oldest follow-up it owes. -/
def effPtpMessageTransmit (i kind t : Nat) (e : Engine) : Engine :=
  let p := getInst e i
  let w := p.w0
  if !instEn p || !supUp e || e.pair.muted then e
  else match kind with
    | 0 => if actsMaster e i then sendSync i t e else e
    | 1 => if actsMaster e i && generalMay e i t (List.replicate 64 0) then
        let d := ownData e i
        sendPtp i t 0xB 0x8 (logInterval (bits w 41 38)) (ptpStamp (clockNs e t) ++ beBytes 37 2 ++ beBytes 0 1 ++ beBytes d.prio1 1
          ++ beBytes d.cls 1 ++ beBytes d.acc 1 ++ beBytes d.var 2 ++ beBytes d.prio2 1 ++ beBytes d.gm 8 ++ beBytes 0 2 ++ beBytes 0xA0 1) e
      else e
    | 3 => match p.follow with
      | m :: ms => if generalMay e i t m then putWire i t m (setInst i { p with follow := ms } e) else e
      | [] => e
    | _ =>
      if instP2p p then sendPtp i (eventAt e i t (eventBytes e i 2)) 2 0 0x7F (ptpStamp 0 ++ beBytes 0 10) e
      else if ptpState e i = 8 ∨ ptpState e i = 9 then sendPtp i (eventAt e i t (eventBytes e i 1)) 1 0 0x7F (ptpStamp 0) e else e

def execPtpMessageTransmit (inst kind t : Nat) (s : State) : Host.Outcome State Fault Refusal :=
  runLive "PTP_MESSAGE_TRANSMIT" (Instr.ptpMessageTransmit inst kind t).wf (effPtpMessageTransmit inst kind t) s

/-- Pdelay_Resp (R359): in one-step mode the turnaround time, which the spec does not give, stands in the correction field; in two-step mode
a follow-up carries the time of the response. -/
def sendPdelayResp (i seq id t : Nat) (e : Engine) : Engine :=
  let p := getInst e i
  let u := eventAt e i t (eventBytes e i 3)
  if bit p.w0 55 then
    oweFollow i (ptpMsg e i 0xA seq 0 0 0x7F (ptpStamp (eventStamp e u p.egress) ++ beBytes id 10))
      (putWire i u (ptpMsg e i 3 seq 0x200 0 0x7F (ptpStamp (eventStamp e t p.ingress) ++ beBytes id 10)) e)
  else
    let v := takeFree e
    putWire i u (ptpMsg e i 3 seq 0 v.1.toNat 0x7F (ptpStamp 0 ++ beBytes id 10)) v.2

/-- A further Delay_Req may be answered: at most 4096 a second, from at most 1024 slaves (Table 11.4). The second is that of the local clock, and the
slaves are those of the second (DESIGN CHOICE, log 165). -/
def mayAnswer (e : Engine) (i id t : Nat) : Bool :=
  let p := getInst e i
  p.dreqSec != clockNs e t / 1000000000 || (decide (p.dreqs < 4096) && (p.slaves.contains id || decide (p.slaves.length < 1024)))

/-- An answer counts. -/
def countAnswer (i id t : Nat) (e : Engine) : Engine :=
  let p := getInst e i
  let s := clockNs e t / 1000000000
  if p.dreqSec = s then setInst i { p with dreqs := p.dreqs + 1, slaves := insertNat id p.slaves } e
  else setInst i { p with dreqSec := s, dreqs := 1, slaves := [id] } e

/-- A delay request is answered: Delay_Resp by a master, Pdelay_Resp by any instance that measures peer to peer (R359). A Delay_Resp that may not
start yet is owed. -/
def effDelayReqReceived (i : Nat) (peer : Bool) (seq id t : Nat) (e : Engine) : Engine :=
  let p := getInst e i
  if !instEn p || !supUp e || e.pair.muted then e
  else if peer then (if instP2p p then sendPdelayResp i seq id t e else e)
  else if actsMaster e i ∧ !instP2p p ∧ mayAnswer e i id t then
    let e := countAnswer i id t e
    let m := ptpMsg e i 9 seq 0 0 (logInterval (bits p.w0 37 34)) (ptpStamp (eventStamp e t p.ingress) ++ beBytes id 10)
    if generalMay e i t m then putWire i t m e else oweFollow i m e
  else e

def execDelayReqReceived (inst : Nat) (peer : Bool) (seq id t : Nat) (s : State) : Host.Outcome State Fault Refusal :=
  runLive "DELAY_REQ_RECEIVED" (Instr.delayReqReceived inst peer seq id t).wf (effDelayReqReceived inst peer seq id t) s

end Sys2Proof.Machine
end

