-- ==== Sys2Proof/Machine/Dispatch.lean ====
section
/-! DEFINITION. What each command does: one arm for each constructor, one direct call of its meaning. -/
namespace Sys2Proof.Machine

/-- The effect of a command on everything but the queue. -/
def exec (i : Instr) (s : State) : Host.Outcome State Fault Refusal :=
  match i with
  | .frameTick => Sys2Proof.Machine.execFrameTick s
  | .firstDispatch t => Sys2Proof.Machine.execFirstDispatch t s
  | .lateCheck => Sys2Proof.Machine.execLateCheck s
  | .itemCompletion item t out => Sys2Proof.Machine.execItemCompletion item t out s
  | .dispatch t => Sys2Proof.Machine.execDispatch t s
  | .fedItemStart cell t => Sys2Proof.Machine.execFedItemStart cell t s
  | .itemStart cell t => Sys2Proof.Machine.execItemStart cell t s
  | .bundleIssue cell t => Sys2Proof.Machine.execBundleIssue cell t s
  | .resultVisible cell => Sys2Proof.Machine.execResultVisible cell s
  | .storeCommit cell => Sys2Proof.Machine.execStoreCommit cell s
  | .loopClose cell => Sys2Proof.Machine.execLoopClose cell s
  | .eccDoubleBitInterrupt cell t => Sys2Proof.Machine.execEccDoubleBitInterrupt cell t s
  | .arithmeticTrap cell t => Sys2Proof.Machine.execArithmeticTrap cell t s
  | .budgetOverrun cell t => Sys2Proof.Machine.execBudgetOverrun cell t s
  | .debugBreak cell => Sys2Proof.Machine.execDebugBreak cell s
  | .hostDebugRequest cell => Sys2Proof.Machine.execHostDebugRequest cell s
  | .handlerEnd cell t => Sys2Proof.Machine.execHandlerEnd cell t s
  | .retiBankSwitch cell t => Sys2Proof.Machine.execRetiBankSwitch cell t s
  | .handshakeTimeout cell t => Sys2Proof.Machine.execHandshakeTimeout cell t s
  | .dmaCellAccess cell off wr data len => Sys2Proof.Machine.execDmaCellAccess cell off wr data len s
  | .cellScrub cell off t => Sys2Proof.Machine.execCellScrub cell off t s
  | .errorWindowRoll hour => Sys2Proof.Machine.execErrorWindowRoll hour s
  | .rotatingSelfTest cell => Sys2Proof.Machine.execRotatingSelfTest cell s
  | .executorStallFence dma unit t => Sys2Proof.Machine.execExecutorStallFence dma unit t s
  | .executorErrorResponse item t => Sys2Proof.Machine.execExecutorErrorResponse item t s
  | .paceMonitorSample region mon val => Sys2Proof.Machine.execPaceMonitorSample region mon val s
  | .avsLoop => Sys2Proof.Machine.execAvsLoop s
  | .pmbusWriteComplete ack => Sys2Proof.Machine.execPmbusWriteComplete ack s
  | .pmbusRetry => Sys2Proof.Machine.execPmbusRetry s
  | .paceDecision => Sys2Proof.Machine.execPaceDecision s
  | .reinstatement => Sys2Proof.Machine.execReinstatement s
  | .lockstepMismatch within10s => Sys2Proof.Machine.execLockstepMismatch within10s s
  | .supervisorRestartEnd => Sys2Proof.Machine.execSupervisorRestartEnd s
  | .zeroCrossingCut sink k => Sys2Proof.Machine.execZeroCrossingCut sink k s
  | .zcTimeout sink k => Sys2Proof.Machine.execZcTimeout sink k s
  | .fadeEnd sink k => Sys2Proof.Machine.execFadeEnd sink k s
  | .fallbackReturn sink => Sys2Proof.Machine.execFallbackReturn sink s
  | .reversion sink => Sys2Proof.Machine.execReversion sink s
  | .asrcLock ch ratio => Sys2Proof.Machine.execAsrcLock ch ratio s
  | .asrcUnlock ch => Sys2Proof.Machine.execAsrcUnlock ch s
  | .asrcRange ch ratio => Sys2Proof.Machine.execAsrcRange ch ratio s
  | .gainZeroCrossingStep gp k => Sys2Proof.Machine.execGainZeroCrossingStep gp k s
  | .gainTimeout gp k => Sys2Proof.Machine.execGainTimeout gp k s
  | .rampEnd gp k => Sys2Proof.Machine.execRampEnd gp k s
  | .meterBlockWrite => Sys2Proof.Machine.execMeterBlockWrite s
  | .loudnessStep meters => Sys2Proof.Machine.execLoudnessStep meters s
  | .automixUpdate groups => Sys2Proof.Machine.execAutomixUpdate groups s
  | .duckHoldExpiry rule => Sys2Proof.Machine.execDuckHoldExpiry rule s
  | .programFetch => Sys2Proof.Machine.execProgramFetch s
  | .eventsLostPost => Sys2Proof.Machine.execEventsLostPost s
  | .nop d => Sys2Proof.Machine.execNop d s
  | .fence d => Sys2Proof.Machine.execFence d s
  | .fenceComplete ring => Sys2Proof.Machine.execFenceComplete ring s
  | .query d => Sys2Proof.Machine.execQuery d s
  | .resetFn d => Sys2Proof.Machine.execResetFn d s
  | .resetFnComplete fn idx ok => Sys2Proof.Machine.execResetFnComplete fn idx ok s
  | .txnOpen d => Sys2Proof.Machine.execTxnOpen d s
  | .staging op d => Sys2Proof.Machine.execStaging op d s
  | .txnCommit d => Sys2Proof.Machine.execTxnCommit d s
  | .txnAcknowledge ring => Sys2Proof.Machine.execTxnAcknowledge ring s
  | .txnAbort d => Sys2Proof.Machine.execTxnAbort d s
  | .transactionIdleAbandon ring => Sys2Proof.Machine.execTransactionIdleAbandon ring s
  | .loadProg d => Sys2Proof.Machine.execLoadProg d s
  | .defItem d => Sys2Proof.Machine.execDefItem d s
  | .link d => Sys2Proof.Machine.execLink d s
  | .admitGraph d => Sys2Proof.Machine.execAdmitGraph d s
  | .admissionResult ring => Sys2Proof.Machine.execAdmissionResult ring s
  | .route d => Sys2Proof.Machine.execRoute d s
  | .fallback d => Sys2Proof.Machine.execFallback d s
  | .align d => Sys2Proof.Machine.execAlign d s
  | .setGain d => Sys2Proof.Machine.execSetGain d s
  | .setGainDb d => Sys2Proof.Machine.execSetGainDb d s
  | .setSend d => Sys2Proof.Machine.execSetSend d s
  | .writeParam d => Sys2Proof.Machine.execWriteParam d s
  | .parameterMirrorEnd region => Sys2Proof.Machine.execParameterMirrorEnd region s
  | .portCfg d => Sys2Proof.Machine.execPortCfg d s
  | .groupStart d => Sys2Proof.Machine.execGroupStart d s
  | .groupStop d => Sys2Proof.Machine.execGroupStop d s
  | .refCfg d => Sys2Proof.Machine.execRefCfg d s
  | .refPrio d => Sys2Proof.Machine.execRefPrio d s
  | .streamTx d => Sys2Proof.Machine.execStreamTx d s
  | .streamRx d => Sys2Proof.Machine.execStreamRx d s
  | .ptpCfgInstance d => Sys2Proof.Machine.execPtpCfgInstance d s
  | .ptpCfgTime d => Sys2Proof.Machine.execPtpCfgTime d s
  | .ptpCfgServo d => Sys2Proof.Machine.execPtpCfgServo d s
  | .ptpCfgRemap d => Sys2Proof.Machine.execPtpCfgRemap d s
  | .ptpCfgLatency d => Sys2Proof.Machine.execPtpCfgLatency d s
  | .ptpCfgPulse d => Sys2Proof.Machine.execPtpCfgPulse d s
  | .fabCfgNode d => Sys2Proof.Machine.execFabCfgNode d s
  | .fabCfgLink d => Sys2Proof.Machine.execFabCfgLink d s
  | .fabCfgExclude d => Sys2Proof.Machine.execFabCfgExclude d s
  | .fabCfgReadmit d => Sys2Proof.Machine.execFabCfgReadmit d s
  | .fabSlot d => Sys2Proof.Machine.execFabSlot d s
  | .pairCfgPair d => Sys2Proof.Machine.execPairCfgPair d s
  | .pairCfgOutputGroup d => Sys2Proof.Machine.execPairCfgOutputGroup d s
  | .pairSyncResync d => Sys2Proof.Machine.execPairSyncResync d s
  | .pairSyncHandover d => Sys2Proof.Machine.execPairSyncHandover d s
  | .sceneStore d => Sys2Proof.Machine.execSceneStore d s
  | .sceneRecall d => Sys2Proof.Machine.execSceneRecall d s
  | .sceneDelete d => Sys2Proof.Machine.execSceneDelete d s
  | .meterCfg d => Sys2Proof.Machine.execMeterCfg d s
  | .loudCfg d => Sys2Proof.Machine.execLoudCfg d s
  | .automixCfg d => Sys2Proof.Machine.execAutomixCfg d s
  | .minusCfg d => Sys2Proof.Machine.execMinusCfg d s
  | .genCfg d => Sys2Proof.Machine.execGenCfg d s
  | .replicationLate => Sys2Proof.Machine.execReplicationLate s
  | .prepare id p src => Sys2Proof.Machine.execPrepare id p src s
  | .prepared id node status => Sys2Proof.Machine.execPrepared id node status s
  | .fabricPrepareDeadline id unreachable => Sys2Proof.Machine.execFabricPrepareDeadline id unreachable s
  | .allPrepared id => Sys2Proof.Machine.execAllPrepared id s
  | .abort id => Sys2Proof.Machine.execAbort id s
  | .inDoubtEntry id => Sys2Proof.Machine.execInDoubtEntry id s
  | .inDoubtTimeout id applied => Sys2Proof.Machine.execInDoubtTimeout id applied s
  | .lateApplyReport id node k => Sys2Proof.Machine.execLateApplyReport id node k s
  | .portWordCapture port ch word theta t => Sys2Proof.Machine.execPortWordCapture port ch word theta t s
  | .qualification port ofs => Sys2Proof.Machine.execQualification port ofs s
  | .clockStopDetect port => Sys2Proof.Machine.execClockStopDetect port s
  | .glitch port => Sys2Proof.Machine.execGlitch port s
  | .rateMismatch port ofs => Sys2Proof.Machine.execRateMismatch port ofs s
  | .elasticOverrun port ahead => Sys2Proof.Machine.execElasticOverrun port ahead s
  | .aes3Subframe n sub word parityErr v theta t => Sys2Proof.Machine.execAes3Subframe n sub word parityErr v theta t s
  | .channelStatusBlock n sub bytes crcOk => Sys2Proof.Machine.execChannelStatusBlock n sub bytes crcOk s
  | .startSyncEdge rising later => Sys2Proof.Machine.execStartSyncEdge rising later s
  | .selectionRun => Sys2Proof.Machine.execSelectionRun s
  | .lossOfSignal slot => Sys2Proof.Machine.execLossOfSignal slot s
  | .frequencyMeasurement slot ofs => Sys2Proof.Machine.execFrequencyMeasurement slot ofs s
  | .softAlarmClear slot => Sys2Proof.Machine.execSoftAlarmClear slot s
  | .wtrExpiry slot => Sys2Proof.Machine.execWtrExpiry slot s
  | .holdPhaseEnd => Sys2Proof.Machine.execHoldPhaseEnd s
  | .acqEnd phi => Sys2Proof.Machine.execAcqEnd phi s
  | .acqTimeout => Sys2Proof.Machine.execAcqTimeout s
  | .alignEnd => Sys2Proof.Machine.execAlignEnd s
  | .dwellEnd => Sys2Proof.Machine.execDwellEnd s
  | .holdoverHistoryRecord freq => Sys2Proof.Machine.execHoldoverHistoryRecord freq s
  | .ethFrameReceive port frame cor unc t => Sys2Proof.Machine.execEthFrameReceive port frame cor unc t s
  | .streamLoss stream => Sys2Proof.Machine.execStreamLoss stream s
  | .streamRecovery stream => Sys2Proof.Machine.execStreamRecovery stream s
  | .pathLoss stream path lost => Sys2Proof.Machine.execPathLoss stream path lost s
  | .mediaPacketLaunch wire => Sys2Proof.Machine.execMediaPacketLaunch wire s
  | .hostTransmitEntry port t => Sys2Proof.Machine.execHostTransmitEntry port t s
  | .syncReceived inst ofs locked => Sys2Proof.Machine.execSyncReceived inst ofs locked s
  | .timeStep t => Sys2Proof.Machine.execTimeStep t s
  | .receiveGraceEnd => Sys2Proof.Machine.execReceiveGraceEnd s
  | .announceReceived inst a => Sys2Proof.Machine.execAnnounceReceived inst a s
  | .delayReqReceived inst peer seq id t => Sys2Proof.Machine.execDelayReqReceived inst peer seq id t s
  | .ptpMessageTransmit inst kind t => Sys2Proof.Machine.execPtpMessageTransmit inst kind t s
  | .captureEdge n t => Sys2Proof.Machine.execCaptureEdge n t s
  | .pulseFire n t => Sys2Proof.Machine.execPulseFire n t s
  | .blockLock link => Sys2Proof.Machine.execBlockLock link s
  | .helloReceived link h => Sys2Proof.Machine.execHelloReceived link h s
  | .linkRetrain link => Sys2Proof.Machine.execLinkRetrain link s
  | .syncBlockSet link y => Sys2Proof.Machine.execSyncBlockSet link y s
  | .syncMissing link => Sys2Proof.Machine.execSyncMissing link s
  | .isochronousBlock link b => Sys2Proof.Machine.execIsochronousBlock link b s
  | .reliableMessage link m => Sys2Proof.Machine.execReliableMessage link m s
  | .reliableAck link origin dest seq => Sys2Proof.Machine.execReliableAck link origin dest seq s
  | .reliableRetry link origin dest seq => Sys2Proof.Machine.execReliableRetry link origin dest seq s
  | .linkFailure link cause => Sys2Proof.Machine.execLinkFailure link cause s
  | .failureNotice node link txs rxs => Sys2Proof.Machine.execFailureNotice node link txs rxs s
  | .rootElection nodes => Sys2Proof.Machine.execRootElection nodes s
  | .routeTableInstall gen routes => Sys2Proof.Machine.execRouteTableInstall gen routes s
  | .rerouteAttempt ch rx ok => Sys2Proof.Machine.execRerouteAttempt ch rx ok s
  | .nodeExclusion node => Sys2Proof.Machine.execNodeExclusion node s
  | .rootLossElection => Sys2Proof.Machine.execRootLossElection s
  | .fabricLockChange lock ofs => Sys2Proof.Machine.execFabricLockChange lock ofs s
  | .roleDecision => Sys2Proof.Machine.execRoleDecision s
  | .lineTestPulse high => Sys2Proof.Machine.execLineTestPulse high s
  | .eclipseSample high => Sys2Proof.Machine.execEclipseSample high s
  | .tideEdge => Sys2Proof.Machine.execTideEdge s
  | .tideLost => Sys2Proof.Machine.execTideLost s
  | .heartbeatBlock h => Sys2Proof.Machine.execHeartbeatBlock h s
  | .heartbeatLost => Sys2Proof.Machine.execHeartbeatLost s
  | .inSync g => Sys2Proof.Machine.execInSync g s
  | .convergenceTimeout g => Sys2Proof.Machine.execConvergenceTimeout g s
  | .deadManRelease cause => Sys2Proof.Machine.execDeadManRelease cause s
  | .releasedMute => Sys2Proof.Machine.execReleasedMute s
  | .takeover => Sys2Proof.Machine.execTakeover s
  | .handover => Sys2Proof.Machine.execHandover s
  | .autoDisarm rearm => Sys2Proof.Machine.execAutoDisarm rearm s
  | .epochComplete parts held => Sys2Proof.Machine.execEpochComplete parts held s
  | .epochAbandon => Sys2Proof.Machine.execEpochAbandon s
  | .warmGraphStart => Sys2Proof.Machine.execWarmGraphStart s
  | .xbarGrant t wants => Sys2Proof.Machine.execXbarGrant t wants s
  | .xbarResponse t => Sys2Proof.Machine.execXbarResponse t s
  | .xbarTimeout t => Sys2Proof.Machine.execXbarTimeout t s
  | .requestParityError m addr => Sys2Proof.Machine.execRequestParityError m addr s
  | .regionScrub addr => Sys2Proof.Machine.execRegionScrub addr s
  | .ddrQueueEntry => Sys2Proof.Machine.execDdrQueueEntry s
  | .ddrEntryComplete => Sys2Proof.Machine.execDdrEntryComplete s
  | .trefiTick => Sys2Proof.Machine.execTrefiTick s
  | .idleBurst => Sys2Proof.Machine.execIdleBurst s
  | .temperatureReading v => Sys2Proof.Machine.execTemperatureReading v s
  | .retrainingPause rank used => Sys2Proof.Machine.execRetrainingPause rank used s
  | .caParityError => Sys2Proof.Machine.execCaParityError s
  | .writeCrcError => Sys2Proof.Machine.execWriteCrcError s
  | .ddrScrub => Sys2Proof.Machine.execDdrScrub s
  | .selfRefreshEntry => Sys2Proof.Machine.execSelfRefreshEntry s
  | .selfRefreshExit => Sys2Proof.Machine.execSelfRefreshExit s
  | .configurationRequest off wr val => Sys2Proof.Machine.execConfigurationRequest off wr val s
  | .bar0Access off len wr val => Sys2Proof.Machine.execBar0Access off len wr val s
  | .bar2Access off wr data len => Sys2Proof.Machine.execBar2Access off wr data len s
  | .linkDown cause => Sys2Proof.Machine.execLinkDown cause s
  | .msiXMessage v => Sys2Proof.Machine.execMsiXMessage v s
  | .outboundReadError ring payload cto => Sys2Proof.Machine.execOutboundReadError ring payload cto s
  | .hostCrTailWrite ring tail placed => Sys2Proof.Machine.execHostCrTailWrite ring tail placed s
  | .hostCrSeqWrite ring seq => Sys2Proof.Machine.execHostCrSeqWrite ring seq s
  | .ringDisable ring => Sys2Proof.Machine.execRingDisable ring s
  | .hostCqHeadWrite ring head => Sys2Proof.Machine.execHostCqHeadWrite ring head s
  | .sysFrameCfgWrite val => Sys2Proof.Machine.execSysFrameCfgWrite val s
  | .loudResetWrite k val => Sys2Proof.Machine.execLoudResetWrite k val s
  | .runRequest => Sys2Proof.Machine.execRunRequest s
  | .quiescentRequest => Sys2Proof.Machine.execQuiescentRequest s
  | .retainRequest => Sys2Proof.Machine.execRetainRequest s
  | .retainWake alarm => Sys2Proof.Machine.execRetainWake alarm s
  | .warmResetRequest val => Sys2Proof.Machine.execWarmResetRequest val s
  | .powerCycleRequest val => Sys2Proof.Machine.execPowerCycleRequest val s
  | .warmReset dramLost => Sys2Proof.Machine.execWarmReset dramLost s
  | .warmResetDeadline => Sys2Proof.Machine.execWarmResetDeadline s
  | .powerCycle => Sys2Proof.Machine.execPowerCycle s
  | .coldReset low pwr sel f10 => Sys2Proof.Machine.execColdReset low pwr sel f10 s
  | .bootReady ok slot svn ddr cells units keepOk board => Sys2Proof.Machine.execBootReady ok slot svn ddr cells units keepOk board s
  | .go => Sys2Proof.Machine.execGo s
  | .commitsvn => Sys2Proof.Machine.execCommitsvn s
  | .manifestWrite hi => Sys2Proof.Machine.execManifestWrite hi s
  | .manifestVerified ok entries => Sys2Proof.Machine.execManifestVerified ok entries s
  | .qspiCommand val => Sys2Proof.Machine.execQspiCommand val s
  | .aoPtpSet t => Sys2Proof.Machine.execAoPtpSet t s
  | .oscInLoss => Sys2Proof.Machine.execOscInLoss s
  | .oscInRestore => Sys2Proof.Machine.execOscInRestore s
  | .fxLossOfLock => Sys2Proof.Machine.execFxLossOfLock s
  | .supplyMonitorTrip core => Sys2Proof.Machine.execSupplyMonitorTrip core s
  | .thermalSample t => Sys2Proof.Machine.execThermalSample t s
  | .thermalTrip => Sys2Proof.Machine.execThermalTrip s
  | .thermalTripRelease => Sys2Proof.Machine.execThermalTripRelease s
  | .rcRead blk off => Sys2Proof.Machine.execRcRead blk off s
  | .latchingRead blk off t => Sys2Proof.Machine.execLatchingRead blk off t s
  | .registerWrite blk off val => Sys2Proof.Machine.execRegisterWrite blk off val s
  | .vbatLoss => Sys2Proof.Machine.execVbatLoss s
  | .hostPushTimeout => Sys2Proof.Machine.execHostPushTimeout s
  | .announceReceiptTimeout inst => Sys2Proof.Machine.execAnnounceReceiptTimeout inst s
  | .ethLinkChange port up => Sys2Proof.Machine.execEthLinkChange port up s
  | .pcieLinkUp speed width => Sys2Proof.Machine.execPcieLinkUp speed width s
  | .domainLossOfLock dom => Sys2Proof.Machine.execDomainLossOfLock dom s
  | .executorStateError dma unit => Sys2Proof.Machine.execExecutorStateError dma unit s
  | .subQueueParityError region => Sys2Proof.Machine.execSubQueueParityError region s
  | .bridgeProtocolError block => Sys2Proof.Machine.execBridgeProtocolError block s
  | .referenceSignalReturn slot => Sys2Proof.Machine.execReferenceSignalReturn slot s
  | .cellSelfTestComplete pass => Sys2Proof.Machine.execCellSelfTestComplete pass s
  | .boundaryScanTestMode enter => Sys2Proof.Machine.execBoundaryScanTestMode enter s
  | .qspiCommandComplete data => Sys2Proof.Machine.execQspiCommandComplete data s

end Sys2Proof.Machine
end

