-- ==== Sys2Proof/Safety.lean ====
section
/-! DEFINITION. What a safe run is, in the terms that claims use: no step of it stops, and a command that is carried out leaves the
queue to the block. -/
namespace Sys2Proof.Machine

/-- `n` steps from a state answer next states only. -/
def safeFor : Nat → State → Prop
  | 0, _ => True
  | n + 1, s => ∃ t, step s = .next t ∧ safeFor n t

/-- The command is carried out: `exec` answers a next state that holds the same queue, and its engine satisfies `Q`. -/
def completes (c : Instr) (s : State) (Q : Engine → Prop) : Prop := ∃ t, exec c s = .next t ∧ t.pending = s.pending ∧ Q t.e

/-- The engine differs from `e` in nothing but the register fields of the list. -/
def onlyFields (fs : List Fld) (e e' : Engine) : Prop :=
  (∀ f i, fs.contains f = false → getF f i e' = getF f i e) ∧ e' = { e with regs := e'.regs }

/-- Commands that reach the engine even while it is held in reset: those of the reset, supply, oscillator and test pins, of the always-on
domain and of the PCIe function. -/
def reachesHeld : Instr → Bool
  | .errorWindowRoll _ | .pcieLinkUp _ _ | .configurationRequest _ _ _ | .coldReset _ _ _ _ | .oscInLoss | .oscInRestore
  | .supplyMonitorTrip _ | .thermalTrip | .thermalTripRelease | .boundaryScanTestMode _ | .vbatLoss | .retainWake _ | .warmReset _ => true
  | _ => false

/-! ### The control plane -/

/-- Ring `k` alone has a program in progress, and either it is at its end or its next directive is one of Table 8.6 that no abandoned
transaction has left behind: the supervisor has nothing more to do without a command, but to end the program. -/
def restful (k : Nat) (e : Engine) : Prop :=
  (∀ j, j ≠ k → (getRing e j).active = false) ∧ (getRing e k).active = true ∧ (getRing e k).skip = false
    ∧ ((getRing e k).words = [] ∨ ∃ f, frontOf (getRing e k).words = some f ∧ opcodes.contains f.op = true)

/-- The directive `d` of opcode `op` is the one that the supervisor takes next, and it leaves nothing more to do. -/
def directiveNext (op : Nat) (d : Dir) (e : Engine) : Prop := frontIs op d e = true ∧ restful d.ring (popDir d.ring e)

/-- The directive as taken from its ring, its real payload in place. -/
def taken (op : Nat) (d : Dir) (e : Engine) : Staged := ⟨op, d.ring, d.tag, d.flags, (parse (popDir d.ring e) op d).words, e.ctl.count + 1⟩

/-- The completions of ring `k`'s program: while it is in progress those that its ring holds, and at its end those stored for a replay. -/
def compsOf (e : Engine) (k : Nat) : List (Word64 × Word64) :=
  let r := getRing e k
  if r.active then r.comps else ((r.past.head?).map (·.2)).getD []

/-- A completion with the words `w0` and `w1` has been posted on ring `k` between the engines `e` and `e'`, and the ring waits for none. -/
def completed (k : Nat) (w0 w1 : Word64) (e e' : Engine) : Prop :=
  compsOf e' k = compsOf e k ++ [(w0, w1)] ∧ (getRing e' k).hold = none
    ∧ (cqFree e k = true → (e.ctl.owed.any fun p => p.1 == k) = false →
      getF .HOST_CQ_TAIL_TAIL k e'
        = (if getF .HOST_CQ_TAIL_TAIL k e + 1 ≥ cqSize e k then 0 else getF .HOST_CQ_TAIL_TAIL k e + 1) % 2 ^ Fld.HOST_CQ_TAIL_TAIL.width)

end Sys2Proof.Machine
end

