-- ==== Sys2Proof/Certificates/Slice0/Obligations.lean ====
section
/-! DEFINITION. The statements for the provers: what the commands of the MV640 do, family by family, and what every step keeps. A premise
`s.e.held = 0` says that the engine is not held in reset. -/
section Statements

open Sys2Proof Sys2Proof.Machine

/-! ### The block and its queue -/

/-- A step carries out the command at the front of the queue, with the rest of the queue behind it (the block takes its commands first
in, first out). -/
def Obligations.StepTakesTheFront : Prop :=
  ∀ (s : State) (c : Instr) (rest : List Instr), s.pending = c :: rest → step s = exec c { s with pending := rest }

/-- No command stops the block but one that does not exist: a command whose operands lie in their tables is carried out and leaves the
queue alone, and a command whose operands do not is refused by name. -/
def Obligations.EveryCommandCompletes : Prop :=
  (∀ (c : Instr) (s : State), c.wf = true → completes c s fun _ => True)
    ∧ ∀ (c : Instr) (s : State), c.wf = false → ∃ m, exec c s = .refused (.illFormed m)

/-- A queue of commands that exist is worked off: as many steps as it holds commands answer next states only and leave it empty, and the
block then idles (assumption 1). -/
def Obligations.QueueIsWorkedOff : Prop :=
  ∀ s : State, (s.pending.all Instr.wf) = true →
    ∃ t, Host.Core.run core s.pending.length s = .next t ∧ t.pending = [] ∧ ∀ n, Host.Core.run core n t = .next t

/-- Every step keeps the queue's form: what waits are commands that exist, and a step takes one of them. -/
def Obligations.StepKeepsTheQueue : Prop :=
  ∀ s t : State, (s.pending.all Instr.wf) = true → step s = .next t → (t.pending.all Instr.wf) = true ∧ t.pending = s.pending.tail

/-- Every step keeps memory in its one canonical form: addresses strictly rising, no byte listed that an unlisted address reads as. -/
def Obligations.StepKeepsMemoryForm : Prop :=
  ∀ s t : State, Memory.wf s.e.mem = true → step s = .next t → Memory.wf t.e.mem = true

/-- The state right after reset: the invariants of the step hold, no command waits, nothing is held, and each register field listed here holds
the value that its table gives for reset. -/
def Obligations.ResetHoldsTheTables : Prop :=
  Memory.wf State.reset.e.mem = true ∧ State.reset.pending = [] ∧ State.reset.e.held = 0
    ∧ ∀ r ∈ ([(.SYS_FRAME_CFG_FLOG, 4), (.SYS_FRAME_CFG_RATE, 1), (.SYS_HEALTH_CELLS, 256), (.SYS_HEALTH_BLOCKS, 32), (.SYS_HEALTH_REGIONS, 4),
        (.CLK_SEL_QLTHR, 14), (.CLK_SEL_SLEW, 5), (.CLK_DRIFT_SOFT, 20), (.CLK_DRIFT_HARD, 50), (.CLK_REFCFG_QLPROV, 15), (.CLK_REFCFG_PRIO, 15),
        (.PTP_INCR_HI_INCR, 4), (.FAB_NODE_NODES, 1), (.FAB_NODECFG_RPRIO, 128), (.PAIR_CFG_LINK, 3), (.PAIR_CFG_CONV, 30),
        (.HOST_PWR_STAT_STATE, 1), (.HOST_TXN_CFG_IDLE, 100), (.HOST_CR_CFG_EN, 0), (.PORT_STAT_STATE, 0), (.CLK_STAT_STATE, 0),
        (.FAB_LINK_STAT_STATE, 0), (.PAIR_STAT_ROLE, 0), (.DDRC_STAT_STATE, 0), (.XBAR_ERR_VALID, 0), (.NET_PORTCFG_EN, 0)] : List (Fld × Nat)),
      getF r.1 0 State.reset.e = r.2

/-- While the engine is held in reset every other command has no effect at all. -/
def Obligations.HeldEngineIgnoresCommands : Prop :=
  ∀ (c : Instr) (s : State), c.wf = true → s.e.held ≠ 0 → reachesHeld c = false → exec c s = .next s

/-! ### Shared operations -/

/-- Register counters stop at their maximum (R12); a write of a field reads back at the field's width and reaches no other field. -/
def Obligations.FieldsAndCounters : Prop :=
  (∀ (f : Fld) (i n : Nat) (e : Engine), getF f i (bumpF f i n e) = min (getF f i e + n) (2 ^ f.width - 1))
    ∧ (∀ (f g : Fld) (i j v : Nat) (e : Engine),
        getF g j (setF f i v e) = if f = g ∧ i = j then v % 2 ^ f.width else getF g j e)
    ∧ ∀ (f : Fld) (i v : Nat) (e : Engine), onlyFields [f] e (setF f i v e) ∧ onlyFields [f] e (bumpF f i v e)

/-- A store writes exactly its bytes, each to its own address, lowest address first; every other byte reads as before. -/
def Obligations.StoreWritesItsBytes : Prop :=
  ∀ (a : Nat) (bs : List Byte) (e : Engine),
    readBytes (store a bs e) a bs.length = bs
      ∧ (∀ b, b < a ∨ a + bs.length ≤ b → readByte (store a bs e) b = readByte e b)
      ∧ store a bs e = { e with mem := (store a bs e).mem, ecc := (store a bs e).ecc }

/-- Every word of two or more bytes is little-endian in memory: the byte at the lowest address holds bits 7 to 0, the next one bits 15 to 8,
and so on, for every size; read back it is the number, at the size's width (R505). -/
def Obligations.ValuesAreLittleEndian : Prop :=
  (∀ (a v n j : Nat) (e : Engine), j < n → (readByte (store a (leBytes v n) e) (a + j)).toNat = v / 256 ^ j % 256)
    ∧ (∀ (a v n : Nat) (e : Engine), leNat (readBytes (store a (leBytes v n) e) a n) = v % 256 ^ n)
    ∧ (∀ (a v : Nat) (e : Engine), read32 (write32 a v e) a = v % 2 ^ 32)
    ∧ ∀ (a : Nat) (v : Word64) (e : Engine), read64 (write64 a v e) a = v

/-- An event goes to the entry at the tail of the event ring: its words carry the code, the number of payload words, the sequence number,
the phase and the frame number; the tail and the sequence number advance, one entry more is in use; without a free entry the event is
discarded and counted, and memory is as it was; once space returns, code 0x0406 with the number of events lost is posted first (R254,
Table 8.2). -/
def Obligations.EventsReachTheRing : Prop :=
  (∀ (code a : Nat) (payload : List Nat) (e : Engine),
    evFree e = true → e.ctl.lost = 0 → payload.length ≤ 6 → hostAt e (evEntry e) 64 = some a →
      let e' := postEvent code payload e
      readWords e' a 8
          = BitVec.ofNat 64 (2 ^ 48 * code + 2 ^ 32 * payload.length + e.ctl.eseq % 2 ^ 31 * 2 + (if tget false e.ctl.phase 8 then 0 else 1))
            :: BitVec.ofNat 64 (frameNo e) :: (payload ++ List.replicate (6 - payload.length) 0).map (BitVec.ofNat 64)
        ∧ getF .HOST_EV_TAIL_TAIL 0 e'
            = (if getF .HOST_EV_TAIL_TAIL 0 e + 1 ≥ evSize e then 0 else getF .HOST_EV_TAIL_TAIL 0 e + 1) % 2 ^ Fld.HOST_EV_TAIL_TAIL.width
        ∧ e'.ctl.eseq = (e.ctl.eseq + 1) % 2 ^ 31
        ∧ tget 0 e'.ctl.used 8 = tget 0 e.ctl.used 8 + 1
        ∧ ∀ b, b < a ∨ a + 64 ≤ b → readByte e' b = readByte e b)
    ∧ (∀ (code : Nat) (payload : List Nat) (e : Engine), evFree e = false →
      postEvent code payload e = bumpF .HOST_EV_LOST_LOST 0 1 { e with ctl := { e.ctl with lost := e.ctl.lost + 1 } })
    ∧ ∀ (code : Nat) (payload : List Nat) (e : Engine), evFree e = true → e.ctl.lost ≠ 0 →
      postEvent code payload e = postEvent code payload (postEvent 0x0406 [e.ctl.lost] { e with ctl := { e.ctl with lost := 0 } })

/-- A containment action posts event 0x0001 with its level code, cause, identifier and the frame number, and is recorded in the registers of
Table 1.14 (R24): at once where it takes effect at a boundary, and at the next boundary where it took effect within a frame. -/
def Obligations.ContainmentIsRecorded : Prop :=
  (∀ (level cause ident fr : Nat) (e : Engine), level < 8 → cause < 16 → ident < 2 ^ 24 → fr < 2 ^ 64 →
    let e' := showContain level cause ident fr e
    getF .SYS_CONTAIN_LAST_LEVEL 0 e' = level ∧ getF .SYS_CONTAIN_LAST_CAUSE 0 e' = cause ∧ getF .SYS_CONTAIN_LAST_IDENT 0 e' = ident
      ∧ getF .SYS_CONTAIN_FRAME_LO_FRAME 0 e' = fr % 2 ^ 32 ∧ getF .SYS_CONTAIN_FRAME_HI_FRAME 0 e' = fr / 2 ^ 32)
    ∧ (∀ (level cause ident : Nat) (subsumed : Bool) (e : Engine), ∃ e', onlyFields [.SYS_CONTAIN_LAST_SUBSUMED] (showContain level cause ident (frameNo e) e) e'
      ∧ getF .SYS_CONTAIN_LAST_SUBSUMED 0 e' = max subsumed.toNat (getF .SYS_CONTAIN_LAST_SUBSUMED 0 e)
      ∧ contain level cause ident subsumed e = postEvent 0x0001 [2 ^ 29 * level + 2 ^ 28 * subsumed.toNat + 2 ^ 24 * cause + ident] e')
    ∧ (∀ (level cause ident : Nat) (e : Engine), ∃ e', e' = { e with health := e'.health }
      ∧ e'.health.recs = e.health.recs ++ [(level, cause, ident, frameNo e)]
      ∧ containNow level cause ident e = postEvent 0x0001 [2 ^ 29 * level + 2 ^ 24 * cause + ident] e')
    ∧ ∀ (level cause ident fr : Nat) (e : Engine), e.sched.caps = [] → e.health.recs = [(level, cause, ident, fr)] →
      applyCaps e = showContain level cause ident fr { e with health := { e.health with recs := [] } }

/-! ### The compute cell (chapters 3 and 4) -/

/-- BUNDLE_ISSUE (R101, R112, R122): a cell that can issue its next bundle, nothing having fallen due, issues the word its program memory
holds at its PC. The bundle count rises by one, the budget count by one and the conflict stalls, never past its limit; registers stay as
they were until results land; without loops, branches and a C operation the next index follows; and a bundle of zeros does nothing else. The
second part says it of every cell that can issue once what is due has fallen due, in a handler or not: the bank in use runs on and the other
one stands. -/
def Obligations.BundleIssueAdvancesTheCell : Prop :=
  (∀ (s : State) (c t : Nat), c < 256 → s.e.held = 0 →
    let cl := getCell s.e c
    let at_ := 0x100000 * c + 0x30000 + 16 * cl.prim.pc.toNat
    let w := bundleAt s.e c cl.prim.pc.toNat
    cl.handler = none → settle cl = cl → cl.trap = 0 → canIssue cl = true → eccAt s.e at_ = 0 →
    completes (.bundleIssue c t) s fun e =>
      (getCell e c).now = cl.now + 1 ∧ cl.count + 1 ≤ (getCell e c).count ∧ (getCell e c).count ≤ limitOf cl
        ∧ (getCell e c).prim.d = cl.prim.d ∧ (getCell e c).prim.acc = cl.prim.acc ∧ (getCell e c).prim.s = cl.prim.s
        ∧ (getCell e c).shad = cl.shad ∧ (getCell e c).item = cl.item
        ∧ (cl.prim.loops = [] → cl.prim.brs = [] → slotC w = 0 → (getCell e c).prim.pc = cl.prim.pc + 1)
        ∧ (w = 0 → (getCell e c).flights = cl.flights ∧ (getCell e c).ended = cl.ended))
  ∧ ∀ (s : State) (c t : Nat), c < 256 → s.e.held = 0 →
    let e0 := settleCell c s.e
    let cl := getCell e0 c
    let bk := if cl.handler.isSome then cl.shad else cl.prim
    let pc := bk.pc.toNat
    canIssue cl = true → eccAt e0 (0x100000 * c + 0x30000 + 16 * pc) < 2 →
    (cl.handler ≠ none → (cResults bk (slotC (bundleAt e0 c pc)) (getiOf e0 cl bk)).2 ≠ .waitw) →
    completes (.bundleIssue c t) s fun e =>
      (getCell e c).now = cl.now + 1 ∧ (getCell e c).item = cl.item ∧ (getCell e c).handler = cl.handler
        ∧ (∃ fl, (getCell e c).flights = cl.flights ++ fl)
        ∧ (cl.handler = none → (getCell e c).shad = cl.shad ∧ (getCell e c).prim.d = cl.prim.d ∧ (getCell e c).prim.acc = cl.prim.acc
          ∧ (getCell e c).hcnt = cl.hcnt ∧ cl.count + 1 ≤ (getCell e c).count ∧ (getCell e c).count ≤ limitOf cl)
        ∧ (cl.handler ≠ none → (getCell e c).prim = cl.prim ∧ (getCell e c).shad.d = cl.shad.d ∧ (getCell e c).hcnt = cl.hcnt + 1)
        ∧ (cl.handler = some 5 → (getCell e c).count = cl.count)

/-- RESULT_VISIBLE, STORE_COMMIT and LOOP_CLOSE (R101, R104, R144): a result that is due lands in its register and one that is not stays in
flight; a store that is due writes its bytes to the cell's data memory and one that is not writes nothing; a level whose count has reached
0 closes and LC shows the level outside it. Of any number of results, stores and levels: those due land, the last one of a register
standing; a byte that no due store covers stays, and all commit once `WAITW` has issued; exactly the levels at 0 close. -/
def Obligations.ResultsStoresAndLoopsFallDue : Prop :=
  (∀ (s : State) (c : Nat) (f : Flight) (idx : Nat) (v : Word), c < 256 → s.e.held = 0 →
    let cl := getCell s.e c
    cl.ended = false → cl.handler = none → cl.flights = [f] → f.shadow = false → f.dest = .d idx v →
    completes (.resultVisible c) s fun e =>
      e = { s.e with cells := e.cells }
        ∧ tget 0 (getCell e c).prim.d idx = (if f.due ≤ cl.now then v else tget 0 cl.prim.d idx)
        ∧ (∀ j, j ≠ idx → tget 0 (getCell e c).prim.d j = tget 0 cl.prim.d j)
        ∧ (getCell e c).flights = (if f.due ≤ cl.now then [] else [f]))
  ∧ (∀ (s : State) (c : Nat) (w : StoreWait), c < 256 → s.e.held = 0 →
    let cl := getCell s.e c
    cl.ended = false → cl.stores = [w] → w.done = false →
    completes (.storeCommit c) s fun e =>
      (w.due ≤ cl.now → readBytes e (0x100000 * c + w.addr) w.bytes.length = w.bytes)
        ∧ (∀ a, a < 0x100000 * c + w.addr ∨ 0x100000 * c + w.addr + w.bytes.length ≤ a → readByte e a = readByte s.e a)
        ∧ (cl.now < w.due → ∀ a, readByte e a = readByte s.e a)
        ∧ e.regs = s.e.regs ∧ (getCell e c).prim = cl.prim)
  ∧ (∀ (s : State) (c : Nat), c < 256 → s.e.held = 0 →
    let cl := getCell s.e c
    (cl.ended = false →
      completes (.resultVisible c) s (fun e =>
        (getCell e c).flights = cl.flights.filter (fun f => !decide (f.due ≤ cl.now))
          ∧ (∀ l f idx v, cl.flights = l ++ [f] → f.due ≤ cl.now → f.shadow = false → f.dest = .d idx v → tget 0 (getCell e c).prim.d idx = v)
          ∧ (∀ idx, (∀ f ∈ cl.flights, f.due ≤ cl.now → f.shadow = false → ∀ v, f.dest ≠ .d idx v) →
              tget 0 (getCell e c).prim.d idx = tget 0 cl.prim.d idx)
          ∧ (getCell e c).item = cl.item ∧ (getCell e c).stores = cl.stores ∧ e.mem = s.e.mem)
      ∧ completes (.storeCommit c) s fun e =>
        (∀ w l, cl.stores = w :: l → w.due ≤ cl.now → w.done = false →
            (∀ x ∈ l, x.addr + x.bytes.length ≤ w.addr ∨ w.addr + w.bytes.length ≤ x.addr) →
            readBytes e (0x100000 * c + w.addr) w.bytes.length = w.bytes)
          ∧ (∀ a, (∀ w ∈ cl.stores, w.due ≤ cl.now → a < 0x100000 * c + w.addr ∨ 0x100000 * c + w.addr + w.bytes.length ≤ a) →
              readByte e a = readByte s.e a)
          ∧ (getCell e c).prim = cl.prim ∧ (getCell e c).flights = cl.flights ∧ e.regs = s.e.regs)
    ∧ (cl.ended = true →
      completes (.storeCommit c) s fun e => (getCell e c).stores = [] ∧ (getCell e c).prim = cl.prim ∧ e.regs = s.e.regs
        ∧ ∀ l w, cl.stores = l ++ [w] → w.done = false → readBytes e (0x100000 * c + w.addr) w.bytes.length = w.bytes)
    ∧ completes (.loopClose c) s fun e => e = { s.e with cells := e.cells }
        ∧ (getCell e c).prim.loops = cl.prim.loops.filter (fun l => l.cnt != 0)
        ∧ (getCell e c).prim.d = cl.prim.d ∧ (getCell e c).prim.pc = cl.prim.pc ∧ (getCell e c).shad.loops = cl.shad.loops.filter (fun l => l.cnt != 0))
  ∧ (∀ (s : State) (c : Nat) (inner outer : LoopLevel), c < 256 → s.e.held = 0 →
    let cl := getCell s.e c
    cl.prim.loops = [inner, outer] → inner.cnt = 0 → outer.cnt ≠ 0 →
    completes (.loopClose c) s fun e =>
      e = { s.e with cells := e.cells } ∧ (getCell e c).prim.loops = [outer] ∧ (getCell e c).prim.lc = BitVec.ofNat 16 outer.cnt)

/-- ECC_DOUBLE_BIT_INTERRUPT, ARITHMETIC_TRAP and BUDGET_OVERRUN, on a program that declares a handler (R106–R108): the cause of lowest code
that is due is taken. The cell runs its handler from the entry that the program header names, in the shadow bank, with A0 the cause (and
the trapping lanes), A1 the primary PC; CAUSE and STATE show it; the primary bank is untouched, and so is the engine's own memory. On a program
without a handler the item ends and the cell is free. -/
def Obligations.InterruptsEnterTheHandler : Prop :=
  ∀ (s : State) (c t cause : Nat) (i : Instr), c < 256 → s.e.held = 0 →
    let cl := getCell (settleCell c s.e) c
    dueCause cl = some cause →
    (cause = 1 ∧ i = .eccDoubleBitInterrupt c t ∨ cause = 2 ∧ i = .arithmeticTrap c t ∨ cause = 3 ∧ i = .budgetOverrun c t) →
    (cl.hpres = true → completes i s fun e =>
      (getCell e c).handler = some cause ∧ (getCell e c).hcnt = 0 ∧ (getCell e c).shad.pc = cl.hentry
        ∧ sReg (getCell e c).shad 0 = BitVec.ofNat 18 (cause + if cause = 2 then cl.trap.toNat * 16 else 0)
        ∧ sReg (getCell e c).shad 1 = BitVec.ofNat 18 cl.prim.pc.toNat
        ∧ (getCell e c).prim = cl.prim ∧ (getCell e c).item = cl.item
        ∧ getF .SYS_CELL_STAT_CAUSE c e = cause ∧ getF .SYS_CELL_STAT_STATE c e = 2
        ∧ ∀ a, a < 0x2000000000 → readByte e a = readByte s.e a)
    ∧ (cl.hpres = false → (∀ k, cl.item = some k → dKind (admItem s.e k) = 0) →
      completes i s fun e => (getCell e c).item = none ∧ (getCell e c).handler = none ∧ getF .SYS_CELL_STAT_CAUSE c e = cause)

/-- DEBUG_BREAK and HOST_DEBUG_REQUEST (R106, R107, R149): a raised break, or a request on a cell with debug enabled whose running program
declares a handler, enters the handler with cause 5 when no branch delay is pending and no aborting cause is due. -/
def Obligations.DebugEntersTheHandler : Prop :=
  ∀ (s : State) (c : Nat), c < 256 → s.e.held = 0 →
    let cl := getCell (settleCell c s.e) c
    cl.hpres = true →
    (breakReady cl = true →
      completes (.debugBreak c) s fun e =>
        (getCell e c).handler = some 5 ∧ (getCell e c).brk = false ∧ getF .SYS_CELL_STAT_CAUSE c e = 5
          ∧ sReg (getCell e c).shad 1 = BitVec.ofNat 18 cl.prim.pc.toNat ∧ (getCell e c).prim = cl.prim)
    ∧ (getF .SYS_CELL_STAT_DBG_EN c s.e = 1 → cl.item ≠ none → cl.ended = false → cl.handler = none → cl.prim.brs = [] →
        dueCause cl = none →
      completes (.hostDebugRequest c) s fun e =>
        (getCell e c).handler = some 5 ∧ getF .SYS_CELL_STAT_CAUSE c e = 5 ∧ (getCell e c).prim = cl.prim)

/-- RETI_BANK_SWITCH and HANDLER_END (R109–R111): a debug handler's RETI returns the cell to bundle A1 of its primary bank; an aborting
handler's RETI, and its 16th bundle, end the item as aborted, and the cell is free. In the second part the item has no successors, and no
slot item is there to steal; the third part says it of any item. -/
def Obligations.HandlersEnd : Prop :=
  ∀ (s : State) (c t i : Nat), c < 256 → s.e.held = 0 →
    let cl := getCell s.e c
    settle cl = cl → cl.trap = 0 → cl.ecc = false → cl.item = some i →
    (cl.handler = some 5 → retiDue cl = true → cl.frameAbort = false →
      completes (.retiBankSwitch c t) s fun e =>
        (getCell e c).handler = none ∧ (getCell e c).prim = { cl.prim with pc := (sReg cl.shad 1).extractLsb' 0 12 }
          ∧ (getCell e c).item = some i ∧ getF .SYS_CELL_STAT_STATE c e = 1)
    ∧ ((getRun s.e i).st = .running → (getRun s.e i).exec = c → dKind (admItem s.e i) = 0 → succsOf s.e.sched.adm (admItem s.e i) = [] →
        inState s.e .slot = [] → cl.stores = [] → fencedCell s.e c = false →
      ∀ n : Instr, (n = .retiBankSwitch c t ∧ aborting cl = true ∧ retiDue cl = true ∨ n = .handlerEnd c t ∧ handlerOver cl = true) →
      completes n s fun e =>
        (getRun e i).st = .aborted ∧ (getCell e c).item = none ∧ (getCell e c).handler = none ∧ getF .SYS_CELL_STAT_STATE c e = 0
          ∧ e.sched.faults = s.e.sched.faults ++ [(i, getF .SYS_CELL_STAT_CAUSE c s.e)] ∧ e.mem = s.e.mem)
    ∧ (let cs := getCell (settleCell c s.e) c
      (cs.handler = some 5 → retiDue cs = true → cs.frameAbort = false →
        completes (.retiBankSwitch c t) s fun e =>
          (getCell e c).handler = none ∧ (getCell e c).prim = { cs.prim with pc := (sReg cs.shad 1).extractLsb' 0 12 }
            ∧ (getCell e c).item = cs.item ∧ getF .SYS_CELL_STAT_STATE c e = 1)
      ∧ (cs.item = some i → (getRun s.e i).st = .running → (getRun s.e i).exec = c → dKind (admItem s.e i) = 0 →
          s.e.sched.overflow.contains i = false →
        ∀ n : Instr, (n = .retiBankSwitch c t ∧ aborting cs = true ∧ retiDue cs = true ∨ n = .handlerEnd c t ∧ handlerOver cs = true) →
        completes n s fun e => (getRun e i).st = .aborted ∧ (getCell e c).item = none ∧ (getCell e c).handler = none
          ∧ e.sched.faults = s.e.sched.faults ++ [(i, getF .SYS_CELL_STAT_CAUSE c s.e)]))

/-! ### Errors of cells and executors (R19–R28, R91, R92, R116–R118) -/

/-- HANDSHAKE_TIMEOUT (R38, R117, R120): a cell in service is fenced at once with containment cause 0x6: whatever it runs stops, it leaves the
healthy count, and its block's record is kept for the boundary. -/
def Obligations.HandshakeTimeoutFences : Prop :=
  ∀ (s : State) (c t : Nat), c < 256 → s.e.held = 0 → fencedCell s.e c = false →
    completes (.handshakeTimeout c t) s fun e =>
      fencedCell e c = true ∧ getF .SYS_HEALTH_CELLS 0 e = (getF .SYS_HEALTH_CELLS 0 s.e - 1) % 2 ^ 9
        ∧ getF .SYS_CELL_STAT_STATE c e = 3 ∧ (getCell e c).item = none
        ∧ e.health.recs = s.e.health.recs ++ [(2, 6, c / 8, frameNo s.e)] ∧ e.health.readmit = true

/-- DMA_CELL_ACCESS (R86–R90): an access within the cell's data memory, aligned as the port requires and free of ECC errors, reads the
bytes that are there, and writes the bytes given; a fenced cell answers NODEST. -/
def Obligations.DmaReachesCellMemory : Prop :=
  ∀ (s : State) (c off len : Nat) (data : List Byte), c < 256 → s.e.held = 0 → off % 4 = 0 →
    (fencedCell s.e c = false → s.e.health.bist ≠ some c → off % 512 + len ≤ 512 → off + len ≤ 0x30000 → s.e.ecc = [] →
      completes (.dmaCellAccess c off false data len) s fun e =>
        (data.length ≤ 512 - off % 512 → tget (0, []) e.xmem.resp 32 = (0, readBytes s.e (0x100000 * c + off) len)) ∧ e.mem = s.e.mem)
    ∧ (fencedCell s.e c = false → s.e.health.bist ≠ some c → off % 512 + data.length ≤ 512 → off + data.length ≤ 0x30000 →
        data.length % 4 = 0 → s.e.ecc = [] → len ≤ 512 - off % 512 →
      completes (.dmaCellAccess c off true data len) s fun e =>
        tget (0, []) e.xmem.resp 32 = (0, []) ∧ readBytes e (0x100000 * c + off) data.length = data
          ∧ ∀ a, a < 0x100000 * c + off ∨ 0x100000 * c + off + data.length ≤ a → readByte e a = readByte s.e a)
    ∧ (fencedCell s.e c = false → s.e.health.bist ≠ some c → off % 512 + len ≤ 512 → off + len ≤ 0x30000 →
        let a := 0x100000 * c + off
        let met := badIn s.e (unitLo a) (unitLen a len)
      completes (.dmaCellAccess c off false [] len) s fun e =>
        ((met.all fun g => decide (g.2 < 2)) = true → tget (0, []) e.xmem.resp 32 = (0, readBytes s.e a len))
          ∧ ((met.any fun g => decide (2 ≤ g.2)) = true → (tget (0, []) e.xmem.resp 32).1 = 3) ∧ e.mem = s.e.mem)
    ∧ (fencedCell s.e c = true → off < 0x40000 → off % 512 + len ≤ 512 →
      completes (.dmaCellAccess c off false [] len) s fun e =>
        (tget (0, []) e.xmem.resp 32).1 = 1 ∧ getF .XBAR_ERR_CODE 0 e = 1 ∧ getF .XBAR_ERR_MASTER 0 e = 32)

/-- CELL_SCRUB (R91, R92): a clean word is left alone; a word with a single-bit error is rewritten and recorded, and counts as stuck when
the last pass found it so; a double-bit error in data memory is recorded and counted, and one in program memory fences the cell at once. -/
def Obligations.CellScrubCorrects : Prop :=
  ∀ (s : State) (c off t : Nat), c < 256 → off < 0x40000 → s.e.held = 0 → fencedCell s.e c = false →
    let g := gran (0x100000 * c + off)
    (eccAt s.e g = 0 → completes (.cellScrub c off t) s fun e => e.mem = s.e.mem ∧ e.ecc = s.e.ecc ∧ e.regs = s.e.regs ∧ e.cells = s.e.cells)
    ∧ (eccAt s.e g = 1 → completes (.cellScrub c off t) s fun e =>
        eccAt e g = 0 ∧ e.mem = s.e.mem ∧ getF .SYS_CELL_LASTERR_VALID c e = 1 ∧ getF .SYS_CELL_LASTERR_DED c e = 0
          ∧ tget 0 e.health.corr c = min (tget 0 s.e.health.corr c + 1) 255
          ∧ (s.e.health.suspect.contains g = false → e.health.suspect = s.e.health.suspect ++ [g])
          ∧ (s.e.health.suspect.contains g = true → s.e.health.stuck.contains g = false →
              getF .SYS_CELL_ERR_STUCK c e = min (getF .SYS_CELL_ERR_STUCK c s.e + 1) (2 ^ Fld.SYS_CELL_ERR_STUCK.width - 1)))
    ∧ (2 ≤ eccAt s.e g → g % 0x100000 < 0x30000 → completes (.cellScrub c off t) s fun e =>
        getF .SYS_CELL_ERR_DED_1H c e = min (getF .SYS_CELL_ERR_DED_1H c s.e + 1) (2 ^ Fld.SYS_CELL_ERR_DED_1H.width - 1)
          ∧ getF .SYS_CELL_LASTERR_DED c e = 1 ∧ e.mem = s.e.mem ∧ fencedCell e c = false)
    ∧ (2 ≤ eccAt s.e g → 0x30000 ≤ g % 0x100000 → completes (.cellScrub c off t) s fun e =>
        fencedCell e c = true ∧ getF .SYS_CELL_ERR_PROG_DED c e = 1 ∧ e.health.recs = s.e.health.recs ++ [(2, 1, c / 8, frameNo s.e)])

/-- ERROR_WINDOW_ROLL (R117, R450, R474): at the end of a second the corrected errors of each cell are shown and counting starts again; at
the end of an hour the double-bit counts and the state errors of the executors are cleared. -/
def Obligations.ErrorWindowsRoll : Prop :=
  (∀ (s : State) (c : Nat), c < 256 → s.e.held = 0 →
    completes (.errorWindowRoll false) s fun e =>
      getF .SYS_CELL_ERR_CORR_1S c e = tget 0 s.e.health.corr c % 2 ^ Fld.SYS_CELL_ERR_CORR_1S.width ∧ e.health.corr = []
        ∧ e.xmem.ceSec = 0 ∧ getF .DDRC_CE_CERATE 0 e = min s.e.xmem.ceSec 65535)
  ∧ ∀ (s : State) (c : Nat), c < 256 → s.e.held = 0 →
    completes (.errorWindowRoll true) s fun e => getF .SYS_CELL_ERR_DED_1H c e = 0 ∧ e.health.unitErr = [] ∧ e.mem = s.e.mem

/-- ROTATING_SELF_TEST and CELL_SELF_TEST_COMPLETE (R116, R117): a free, healthy cell in no partition goes under test; when the test ends
LAST_CELL names it and it is in service again, and a failure fences it at the next boundary with cause 0x5. -/
def Obligations.SelfTestTakesACell : Prop :=
  (∀ (s : State) (c : Nat), c < 256 → s.e.held = 0 → inRun s.e = true → getF .SYS_SUP_STAT_STATE 0 s.e = 1 →
    getF .SYS_CELL_BIST_INTERVAL 0 s.e ≠ 0 → s.e.health.bist = none → unpartitioned s.e c = true → fencedCell s.e c = false →
    (getCell s.e c).item = none →
    completes (.rotatingSelfTest c) s fun e => e.health.bist = some c ∧ e.regs = s.e.regs ∧ e.cells = s.e.cells
      ∧ ∀ a, a < 0x100000 * c ∨ 0x100000 * c + 0x40000 ≤ a → readByte e a = readByte s.e a)
  ∧ ∀ (s : State) (c : Nat) (pass : Bool), c < 256 → s.e.held = 0 → s.e.health.bist = some c → s.e.sched.caps.contains (.cell c 5) = false →
    completes (.cellSelfTestComplete pass) s fun e => e.health.bist = none ∧ getF .SYS_CELL_BIST_LAST_CELL 0 e = c
      ∧ e.sched.caps = (if pass then s.e.sched.caps else s.e.sched.caps ++ [.cell c 5]) ∧ e.mem = s.e.mem

/-- EXECUTOR_STATE_ERROR, BRIDGE_PROTOCOL_ERROR, EXECUTOR_STALL_FENCE and EXECUTOR_ERROR_RESPONSE (R20, R23, R27, R171): the fourth state
error of a summing unit in the hour fences it at the next boundary with cause 0x4; a bridge protocol error isolates the block there with
cause 0x8; a stalled summing unit is fenced at once with cause 0xD and its item aborted with cause 7; an error response aborts the item
with cause 6. The items of the first four parts have no successors and no outputs; the last part says the same of either kind of executor and of
any item. -/
def Obligations.ExecutorFaultsAreContained : Prop :=
  (∀ (s : State) (u : Nat), u < 32 → s.e.held = 0 → s.e.sched.caps = [] →
    completes (.executorStateError false u) s fun e =>
      tget 0 e.health.unitErr u = tget 0 s.e.health.unitErr u + 1
        ∧ e.sched.caps = (if tget 0 s.e.health.unitErr u = 3 then [.sum u 4] else []) ∧ e.regs = s.e.regs ∧ e.mem = s.e.mem)
  ∧ (∀ (s : State) (b : Nat), b < 32 → s.e.held = 0 → isolatedBlock s.e b = false → s.e.sched.caps = [] →
    completes (.bridgeProtocolError b) s fun e => e = { s.e with sched := { s.e.sched with caps := [.block b 8] } })
  ∧ (∀ (s : State) (u i t : Nat), u < 32 → s.e.held = 0 → fencedSum s.e u = false → runningOn s.e 1 u = some i →
      dKind (admItem s.e i) = 1 → succsOf s.e.sched.adm (admItem s.e i) = [] → outsOf s.e i = [] →
    completes (.executorStallFence false u t) s fun e =>
      fencedSum e u = true ∧ (getRun e i).st = .aborted ∧ e.sched.faults = s.e.sched.faults ++ [(i, 7)]
        ∧ e.health.recs = s.e.health.recs ++ [(4, 0xD, 0x90000 + u, frameNo s.e)])
  ∧ (∀ (s : State) (i t : Nat), i < 16384 → s.e.held = 0 → (getRun s.e i).st = .running → dKind (admItem s.e i) = 1 →
      succsOf s.e.sched.adm (admItem s.e i) = [] → outsOf s.e i = [] →
    completes (.executorErrorResponse i t) s fun e =>
      (getRun e i).st = .aborted ∧ e.sched.faults = s.e.sched.faults ++ [(i, 6)] ∧ e.mem = s.e.mem ∧ e.mix = s.e.mix)
  ∧ (∀ (s : State) (dma : Bool) (u : Nat), u < (if dma then 8 else 32) → s.e.held = 0 →
      let k := if dma then 32 + u else u
    completes (.executorStateError dma u) s fun e =>
      tget 0 e.health.unitErr k = tget 0 s.e.health.unitErr k + 1 ∧ e.regs = s.e.regs ∧ e.mem = s.e.mem
        ∧ (tget 0 s.e.health.unitErr k = 3 → e.sched.caps.contains (if dma then .dma u 4 else .sum u 4) = true)
        ∧ (tget 0 s.e.health.unitErr k ≠ 3 → e.sched = s.e.sched))
  ∧ (∀ (s : State) (b : Nat), b < 32 → s.e.held = 0 →
    (isolatedBlock s.e b = true → completes (.bridgeProtocolError b) s fun e => e = s.e)
    ∧ (isolatedBlock s.e b = false → completes (.bridgeProtocolError b) s fun e =>
        e.sched.caps.contains (.block b 8) = true ∧ e = { s.e with sched := { s.e.sched with caps := e.sched.caps } }))
  ∧ (∀ (s : State) (dma : Bool) (u i t : Nat), u < (if dma then 8 else 32) → s.e.held = 0 → runningOn s.e (if dma then 3 else 1) u = some i →
      (if dma then fencedDma s.e u else fencedSum s.e u) = false → s.e.sched.overflow.contains i = false →
    completes (.executorStallFence dma u t) s fun e =>
      (if dma then fencedDma e u else fencedSum e u) = true ∧ (getRun e i).st = .aborted ∧ e.sched.faults = s.e.sched.faults ++ [(i, 7)]
        ∧ e.health.recs = s.e.health.recs ++ [(4, 0xD, execIdent dma u, frameNo s.e)])
  ∧ ∀ (s : State) (i t : Nat), i < 16384 → s.e.held = 0 → (getRun s.e i).st = .running → dKind (admItem s.e i) ≠ 0 →
      (dKind (admItem s.e i) = 3 → (getRun s.e i).err = true) → s.e.sched.overflow.contains i = false →
    completes (.executorErrorResponse i t) s fun e =>
      (getRun e i).st = .aborted ∧ e.sched.faults = s.e.sched.faults ++ [(i, 6)] ∧ e.mem = s.e.mem ∧ e.cells = s.e.cells

/-! ### The frame and the scheduler (chapters 2 and 5) -/

/-- FRAME_TICK (R49): the frame number rises by one. The tick is none that takes the engine into Retain, which starts no frame: Retain is not
asked for and no posted register write waits that could ask for it; and no write of the frame number itself waits, which no software can make. -/
def Obligations.FrameTickCounts : Prop :=
  ∀ s : State, s.e.held = 0 → s.e.host.pwrReq ≠ some 2 → s.e.xmem.posted = [] →
    (∀ p ∈ s.e.regsNext, p.1 % 1024 ≠ Fld.ctorIdx .SYS_FRAME_CNT_LO_FRAME ∧ p.1 % 1024 ≠ Fld.ctorIdx .SYS_FRAME_CNT_HI_FRAME) →
    completes .frameTick s fun e => frameNo e = (frameNo s.e + 1) % 2 ^ 64

/-- FIRST_DISPATCH and DISPATCH (R157, R163): the first dispatch opens the frame to dispatching; the one cell item that waits goes to the
lowest-numbered idle cell of its partition, which is held for it. Of any number of waiting items, the first in key order that an idle executor
can take goes to the lowest-numbered such executor: a cell is held for it, another executor runs it. -/
def Obligations.DispatchPairsItems : Prop :=
  (∀ (s : State) (t : Nat), s.e.held = 0 → s.e.sched.running = true → s.e.sched.first = false → inState s.e .queued = [] →
      s.e.sched.overflow = [] →
    completes (.firstDispatch t) s fun e => e.sched.first = true ∧ e.sched.run = s.e.sched.run ∧ e.cells = s.e.cells ∧ e.mem = s.e.mem)
  ∧ (∀ (s : State) (t i x : Nat), s.e.held = 0 → firstPair s.e (sortKey s.e (inState s.e .queued)) = some (i, x) →
      s.e.sched.overflow.contains i = false → (s.e.ecc.all fun g => decide (g.2 < 2)) = true →
      ∀ n : Instr, (n = .dispatch t ∧ s.e.sched.first = true ∨ n = .firstDispatch t ∧ s.e.sched.running = true ∧ s.e.sched.first = false) →
    completes n s fun e => e.sched.first = true ∧ (getRun e i).exec = x
      ∧ (getRun e i).st = if dKind (admItem s.e i) = 0 then .held else .running)
  ∧ ∀ (s : State) (t i c : Nat), s.e.held = 0 → s.e.sched.first = true → inState s.e .queued = [i] → s.e.sched.overflow = [] →
      dKind (admItem s.e i) = 0 → dFeeds (admItem s.e i) = 0 → blockedItem s.e i = false →
      (partOf s.e (admItem s.e i)).find? (idleCell s.e) = some c →
    completes (.dispatch t) s fun e => (getRun e i).st = .held ∧ (getRun e i).exec = c ∧ (getCell e c).from_ = t
      ∧ (∀ j, j ≠ i → getRun e j = getRun s.e j) ∧ e.mem = s.e.mem

/-- ITEM_START and FED_ITEM_START (R83, R112, R125, R159): the cell that is held for an item whose feeders are complete resets both banks,
puts ARG into A0 and starts at the descriptor's entry, with its budget, and the ITEM and STATE fields show it. -/
def Obligations.ItemsStartOnTheirCells : Prop :=
  ∀ (s : State) (c t i : Nat) (n : Instr), c < 256 → s.e.held = 0 →
    let d := admItem s.e i
    nextItem s.e c = some i → (getRun s.e i).fc = 0 → fencedCell s.e c = false → blockedItem s.e i = false →
    eccAt s.e (0x100000 * c + 0x30000 + 16 * (dEntry d % 4096 - 1)) < 2 →
    (n = .itemStart c t ∧ dFeeds d = 0 ∨ n = .fedItemStart c t ∧ dFeeds d ≠ 0) →
    completes n s fun e =>
      (getRun e i).st = .running ∧ (getRun e i).exec = c ∧ (getCell e c).item = some i ∧ (getCell e c).count = 0
        ∧ (getCell e c).budget = dBudget d ∧ (getCell e c).prim = Bank.start (BitVec.ofNat 18 (dArg d)) (BitVec.ofNat 12 (dEntry d % 4096))
        ∧ (∀ r, tget 0 (getCell e c).prim.d r = 0) ∧ sReg (getCell e c).prim 0 = BitVec.ofNat 18 (dArg d)
        ∧ getF .SYS_CELL_STAT_STATE c e = 1 ∧ getF .SYS_CELL_STAT_ITEM c e = i % 2 ^ Fld.SYS_CELL_STAT_ITEM.width ∧ e.mem = s.e.mem

/-- ITEM_COMPLETION (R158): the cell item that has issued WAITW is done, its signal carries what it delivered, its cell is free and the
successor that waits for it alone is released; it misses no deadline there, and no slot item is there to steal. The second part says of every
item that has ended normally, whatever waits for it, that it is done, that the cell of a cell item is free, and that the last signal it
delivers stands. -/
def Obligations.CompletionReleasesSuccessors : Prop :=
  (∀ (s : State) (i j c t sig : Nat) (ys : List Int), i < 16384 → i ≠ j → s.e.held = 0 →
    (getRun s.e i).st = .running → (getRun s.e i).exec = c → dKind (admItem s.e i) = 0 → (getCell s.e c).item = some i →
    (getCell s.e c).ended = true → (getCell s.e c).handler = none → (getCell s.e c).stores = [] → (getConc s.e sig).run = 0 →
    fencedCell s.e c = false → inState s.e .slot = [] →
    ¬ (dDeadline (admItem s.e i) * frameNs s.e < 65536 * t) →
    succsOf s.e.sched.adm (admItem s.e i) = [j] → dKind (admItem s.e j) = 1 →
    (getRun s.e j).st = .waiting → (getRun s.e j).cnt = 1 → (getRun s.e j).fr = 0 → s.e.sched.shed.contains j = false →
    (inState s.e .queued).length < 4096 →
    completes (.itemCompletion i t [(sig, ys)]) s fun e =>
      (getRun e i).st = .done ∧ getSig e sig = ys ∧ (getCell e c).item = none ∧ getF .SYS_CELL_STAT_STATE c e = 0
        ∧ (getRun e j).cnt = 0 ∧ (getRun e j).st = .queued ∧ (getRun e j).relAt = t)
  ∧ ∀ (s : State) (i t : Nat) (out : List (Nat × List Int)), (Instr.itemCompletion i t out).wf = true → s.e.held = 0 →
    itemEnded s.e i = true → s.e.sched.overflow.contains i = false →
    completes (.itemCompletion i t out) s fun e =>
      (getRun e i).st = .done
        ∧ (dKind (admItem s.e i) = 0 → (getCell e (getRun s.e i).exec).item = none
          ∧ ∀ l sg ys, out = l ++ [(sg, ys)] → (getConc s.e sg).run = 0 → getSig e sg = ys)

/-- LATE_CHECK (R75, R79): the item that was released and has not completed is late, and the frame counts as one with late items; with
none late the count stays. The last part says it of any number of items and sinks. -/
def Obligations.LateItemsAreFound : Prop :=
  (∀ (s : State) (i : Nat) (r : ItemRun), s.e.held = 0 → s.e.sched.running = true → s.e.mix.sinks = [] → s.e.mix.gps = [] →
    dKind (admItem s.e i) = 1 → s.e.sched.run = [(i, r)] →
    ((r.st = .queued →
      completes .lateCheck s fun e => (getRun e i).st = .late ∧ e.sched.faults = []
        ∧ getF .SYS_LATE_FRAMES_LATE 0 e = min (getF .SYS_LATE_FRAMES_LATE 0 s.e + 1) (2 ^ Fld.SYS_LATE_FRAMES_LATE.width - 1))
    ∧ (r.st = .done →
      completes .lateCheck s fun e => (getRun e i).st = .done ∧ getF .SYS_LATE_FRAMES_LATE 0 e = getF .SYS_LATE_FRAMES_LATE 0 s.e)))
  ∧ ∀ s : State, s.e.held = 0 →
    completes .lateCheck s fun e => e.sched.faults = []
      ∧ (s.e.sched.running = true → ∀ i ∈ lateItems s.e, (getRun e i).st = .late)
      ∧ getF .SYS_LATE_FRAMES_LATE 0 e
        = (if s.e.sched.running = true ∧ lateItems s.e ≠ [] then min (getF .SYS_LATE_FRAMES_LATE 0 s.e + 1) (2 ^ Fld.SYS_LATE_FRAMES_LATE.width - 1)
           else getF .SYS_LATE_FRAMES_LATE 0 s.e)

/-! ### Pace, voltage and the supervisor (chapters 1 and 2) -/

/-- PACE_MONITOR_SAMPLE (R69): the monitor's value is held and the region's NOW shows the least of its usable monitors, the
first to report or not; a value below 500 or above 2,000 excludes the monitor and posts event 0x0102, and the second exclusion of a region floors it. -/
def Obligations.PaceMonitorsReport : Prop :=
  (∀ (s : State) (r m v : Nat), r < 4 → m < 4 → s.e.held = 0 → 500 ≤ v → v ≤ 2000 → s.e.health.excl = [] → s.e.health.mon = [] →
    completes (.paceMonitorSample r m v) s fun e =>
      tget 0 e.health.mon (4 * r + m) = v ∧ getF .SYS_PACE_RGN_NOW r e = v ∧ e.health.excl = [] ∧ e.mem = s.e.mem
        ∧ getF .SYS_PACE_RGN_LOWEST r e = min v (getF .SYS_PACE_RGN_LOWEST r s.e))
  ∧ (∀ (s : State) (r m v : Nat), r < 4 → m < 4 → s.e.held = 0 → 500 ≤ v → v ≤ 2000 → s.e.health.excl.contains (4 * r + m) = false →
    completes (.paceMonitorSample r m v) s fun e =>
      tget 0 e.health.mon (4 * r + m) = v ∧ e.health.excl = s.e.health.excl ∧ e.mem = s.e.mem
        ∧ getF .SYS_PACE_RGN_NOW r e ≤ v
        ∧ (∀ j, j < 4 → j ≠ m → s.e.health.excl.contains (4 * r + j) = false → tget 0 s.e.health.mon (4 * r + j) ≠ 0 →
            getF .SYS_PACE_RGN_NOW r e ≤ tget 0 s.e.health.mon (4 * r + j))
        ∧ (getF .SYS_PACE_RGN_NOW r e = v
          ∨ ∃ j, j < 4 ∧ s.e.health.excl.contains (4 * r + j) = false ∧ getF .SYS_PACE_RGN_NOW r e = tget 0 s.e.health.mon (4 * r + j))
        ∧ getF .SYS_PACE_RGN_LOWEST r e = min (getF .SYS_PACE_RGN_NOW r e) (getF .SYS_PACE_RGN_LOWEST r s.e))
  ∧ ∀ (s : State) (r m v : Nat), r < 4 → m < 4 → s.e.held = 0 → (v < 500 ∨ 2000 < v) → v < 65536 →
      s.e.health.excl.contains (4 * r + m) = false →
    completes (.paceMonitorSample r m v) s fun e =>
      e.health.excl = s.e.health.excl ++ [4 * r + m]
        ∧ (((s.e.health.excl ++ [4 * r + m]).filter fun x => x / 4 == r).length = 2 → e.health.floorOnly = s.e.health.floorOnly ++ [r])

/-- AVS_LOOP, PMBUS_WRITE_COMPLETE and PMBUS_RETRY (R70, R71): below 1,080 the voltage rises by 5 mV and above 1,120 it falls by 5 mV, inside
its limits, over one PMBus write at a time; an acknowledged write becomes VCMD; the third in a row that is not sets FAULT and halts the
loop, which then writes its value again. -/
def Obligations.VoltageLoopWrites : Prop :=
  (∀ (s : State) (pace : Nat), s.e.held = 0 → getF .SYS_AVS_CTL_EN 0 s.e = 1 → getF .SYS_SUP_STAT_STATE 0 s.e = 1 →
      s.e.health.avsHalt = false → s.e.health.pmbusBusy = false → paceNow s.e = some pace →
    let v := getF .SYS_AVS_STAT_VCMD 0 s.e
    let lo := max 700 (getF .SYS_AVS_CTL_VMIN 0 s.e)
    completes .avsLoop s fun e =>
      (pace < 1080 → lo ≤ v + 5 → v + 5 ≤ 850 → e.health.pmbus = some (v + 5) ∧ e.health.pmbusBusy = true)
        ∧ (1120 < pace → lo ≤ v - 5 → v ≤ 850 → 5 ≤ v → e.health.pmbus = some (v - 5) ∧ e.health.pmbusBusy = true)
        ∧ (1080 ≤ pace → pace ≤ 1120 → lo ≤ v → v ≤ 850 → e = s.e) ∧ e.regs = s.e.regs)
  ∧ (∀ (s : State) (v : Nat), s.e.held = 0 → s.e.health.pmbus = some v → s.e.health.pmbusBusy = true → v < 2 ^ Fld.SYS_AVS_STAT_VCMD.width →
    completes (.pmbusWriteComplete true) s fun e =>
        getF .SYS_AVS_STAT_VCMD 0 e = v ∧ e.health.pmbus = none ∧ e.health.pmbusBusy = false ∧ e.health.nackRun = 0
          ∧ (getF .SYS_AVS_STAT_AT_MAX 0 e = 1 ↔ v = 850))
  ∧ (∀ (s : State) (v : Nat), s.e.held = 0 → s.e.health.pmbus = some v → s.e.health.pmbusBusy = true →
    completes (.pmbusWriteComplete false) s fun e =>
        e.health.pmbus = some v ∧ e.health.pmbusBusy = false ∧ e.health.nackRun = s.e.health.nackRun + 1
          ∧ getF .SYS_AVS_STAT_VCMD 0 e = getF .SYS_AVS_STAT_VCMD 0 s.e
          ∧ (s.e.health.nackRun = 2 → getF .SYS_AVS_STAT_FAULT 0 e = 1 ∧ e.health.avsHalt = true))
  ∧ ∀ s : State, s.e.held = 0 → s.e.health.avsHalt = true → s.e.health.pmbus ≠ none → getF .SYS_SUP_STAT_STATE 0 s.e = 1 →
    completes .pmbusRetry s fun e => e = { s.e with health := { s.e.health with pmbusBusy := true } }

/-- PACE_DECISION and REINSTATEMENT (R72–R74): each decision sets the state of Table 2.6: below 1,040 SHED; else ALARM under an AVS fault, a
floored region or two slow decisions at 850 mV; else LOW below 1,080 with the voltage still below 850 mV; else NORMAL. A class returns at the next
boundary when the pace and the voltage allow it and the graph with it passes the tests at the floor, and otherwise not. -/
def Obligations.PaceIsJudged : Prop :=
  (∀ (s : State) (pace : Nat), s.e.held = 0 → paceNow s.e = some pace → s.e.health.avsHalt = false → s.e.health.floorOnly = [] →
    1080 ≤ pace → completes .paceDecision s fun e => getF .SYS_PACE_STAT_STATE 0 e = 0 ∧ e.health.lastPace = pace)
  ∧ (∀ (s : State) (pace : Nat), s.e.held = 0 → paceNow s.e = some pace → pace < 1040 → getF .SYS_PACE_CFG_SHED_EN 0 s.e = 0 →
    completes .paceDecision s fun e => getF .SYS_PACE_STAT_STATE 0 e = 3 ∧ e.health.lastPace = pace ∧ e.sched = s.e.sched)
  ∧ (∀ (s : State) (pace : Nat), s.e.held = 0 → paceNow s.e = some pace →
    let v := getF .SYS_AVS_STAT_VCMD 0 s.e
    let slow := pace < 1080 ∧ v = 850 ∧ s.e.health.lastPace < 1080 ∧ s.e.health.lastV = 850
    let bad := slow ∨ s.e.health.avsHalt = true ∨ s.e.health.floorOnly ≠ []
    completes .paceDecision s fun e => e.health.lastPace = pace
      ∧ (pace < 1040 → getF .SYS_PACE_STAT_STATE 0 e = 3)
      ∧ (1040 ≤ pace → bad → getF .SYS_PACE_STAT_STATE 0 e = 2)
      ∧ (1040 ≤ pace → ¬ bad → pace < 1080 → v < 850 → getF .SYS_PACE_STAT_STATE 0 e = 1
        ∧ getF .SYS_PACE_STAT_LOWCNT 0 e = min (getF .SYS_PACE_STAT_LOWCNT 0 s.e + 1) (2 ^ Fld.SYS_PACE_STAT_LOWCNT.width - 1))
      ∧ (1040 ≤ pace → ¬ bad → (1080 ≤ pace ∨ 850 ≤ v) → getF .SYS_PACE_STAT_STATE 0 e = 0))
  ∧ (∀ (s : State) (pace k : Nat), s.e.held = 0 → getF .SYS_PACE_CFG_REINSTATE 0 s.e = 1 → getF .SYS_SUP_STAT_STATE 0 s.e = 1 →
      paceNow s.e = some pace → 1100 ≤ pace → getF .SYS_AVS_STAT_VCMD 0 s.e < 850 → topClass s.e = some k →
      let tests := capTests s.e s.e.sched.adm 1040 ((shedAll s.e).filter fun i => !(classItems s.e k).contains i)
    completes .reinstatement s fun e =>
      e.sched.restoreNext = (if tests.1 = 0 then s.e.sched.restoreNext ++ classItems s.e k else s.e.sched.restoreNext)
        ∧ e.sched.shed = s.e.sched.shed ∧ e.cells = s.e.cells)
  ∧ ∀ (s : State) (pace : Nat), s.e.held = 0 → paceNow s.e = some pace → pace < 1100 → completes .reinstatement s fun e => e = s.e

/-- LOCKSTEP_MISMATCH and SUPERVISOR_RESTART_END (R42–R44, Table 1.8): a mismatch halts the supervisor for a restart, which is counted; a
second one within 10 s leaves it halted and asks for a warm reset of cause 0x01; at the end of the restart it runs again. -/
def Obligations.SupervisorRestarts : Prop :=
  (∀ s : State, s.e.held = 0 → getF .SYS_SUP_STAT_STATE 0 s.e ≠ 3 →
    completes (.lockstepMismatch false) s fun e =>
      getF .SYS_SUP_STAT_LSTEP_ERR 0 e = 1 ∧ getF .SYS_SUP_STAT_STATE 0 e = 2
        ∧ getF .SYS_SUP_STAT_RESTARTS 0 e = min (getF .SYS_SUP_STAT_RESTARTS 0 s.e + 1) (2 ^ Fld.SYS_SUP_STAT_RESTARTS.width - 1)
        ∧ e.host = { s.e.host with uartOut := e.host.uartOut } ∧ e.mem = s.e.mem ∧ e.sched = s.e.sched)
  ∧ (∀ s : State, s.e.held = 0 → getF .SYS_SUP_STAT_STATE 0 s.e ≠ 3 → getF .SYS_SUP_STAT_RESTARTS 0 s.e ≠ 0 → s.e.host.warmReq = none →
    completes (.lockstepMismatch true) s fun e => getF .SYS_SUP_STAT_STATE 0 e = 3 ∧ e.host.warmReq = some 0x01)
  ∧ ∀ s : State, s.e.held = 0 → getF .SYS_SUP_STAT_STATE 0 s.e = 2 →
    completes .supervisorRestartEnd s fun e => getF .SYS_SUP_STAT_STATE 0 e = 1

/-! ### Routing, bridges and gains (chapters 6 and 7) -/

/-- ZERO_CROSSING_CUT, ZC_TIMEOUT, FADE_END, FALLBACK_RETURN and REVERSION (R186–R188, R192–R194): a waiting cut takes the new source from
the crossing's sample on; without a crossing in time it fades over 32 samples; at its end a fade leaves the sink steady on the new source; a
fallback free of its loss for the hold time fades in from the silence that stood for it, and with REVERT set the recovered source is faded back;
event 0x0201 says which. A request that waits starts at the end of the fade, and a move ends in the state that it leads to. -/
def Obligations.RouteRequestsEnd : Prop :=
  (∀ (s : State) (t k : Nat) (r : Req), t < 0x3400 → s.e.held = 0 →
    let q := getSink s.e t
    (q.st = .zcwait → q.pend = some r → q.y.length ≤ k → k < sinkLen s.e t → sourceCrosses s.e t k = true →
      completes (.zeroCrossingCut t k) s fun e =>
        (getSink e t).st = .steady ∧ (getSink e t).cur = r.src ∧ (getSink e t).pend = none ∧ (getSink e t).y.length = k
          ∧ (∀ u, u ≠ t → getSink e u = getSink s.e u))
    ∧ (q.st = .zcwait → q.pend = some r → q.y.length ≤ k → k < sinkLen s.e t → firstAt (zcTimeoutOf s.e t) (sinkTo s.e t k q).pos (q.y.length == k) = true →
      completes (.zcTimeout t k) s fun e =>
        (getSink e t).st = .fade ∧ (getSink e t).out = q.cur ∧ (getSink e t).cur = r.src ∧ (getSink e t).act = some r
          ∧ fadeLen (getSink e t).len = 32 ∧ (getSink e t).pos = 0 ∧ e.mem = s.e.mem
          ∧ getF .ROUTE_STAT_ZC_TIMEOUTS 0 e = min (getF .ROUTE_STAT_ZC_TIMEOUTS 0 s.e + 1) (2 ^ Fld.ROUTE_STAT_ZC_TIMEOUTS.width - 1)
          ∧ (∀ u, u ≠ t → getSink e u = getSink s.e u))
    ∧ (q.st = .fade → q.act = some r → q.pend = none → k < sinkLen s.e t → q.y.length ≤ k + 1 →
        fadeLen q.len ≤ q.pos + (k + 1 - q.y.length) →
      completes (.fadeEnd t k) s fun e =>
        (getSink e t).st = .steady ∧ (getSink e t).cur = q.cur ∧ (getSink e t).out = 0x3FFF ∧ (getSink e t).act = none
          ∧ (∀ u, u ≠ t → getSink e u = getSink s.e u))
    ∧ (∀ p, q.st = .fade → q.pend = some p → k < sinkLen s.e t → q.y.length ≤ k + 1 → fadeLen q.len ≤ q.pos + (k + 1 - q.y.length) →
      completes (.fadeEnd t k) s fun e =>
        (p.src = q.cur → (getSink e t).st = .steady ∧ (getSink e t).cur = q.cur ∧ (getSink e t).pend = none)
          ∧ (p.src ≠ q.cur → p.mode = 0 → (getSink e t).st = .zcwait ∧ (getSink e t).cur = q.cur ∧ (getSink e t).pend = some p)
          ∧ (p.src ≠ q.cur → p.mode ≠ 0 → (getSink e t).st = .fade ∧ (getSink e t).out = q.cur ∧ (getSink e t).cur = p.src
            ∧ (getSink e t).act = some p ∧ (getSink e t).pos = 0)
          ∧ (∀ u, u ≠ t → getSink e u = getSink s.e u))
    ∧ (q.st = .fbfade → q.pend = none → q.newFb = false → k < sinkLen s.e t → q.y.length ≤ k + 1 → 32 ≤ q.pos + (k + 1 - q.y.length) →
        (q.after = .fbact → feedSrc q.toF = 0x3FFF ∨ isLost s.e (feedSrc q.toF) = false) →
      completes (.fadeEnd t k) s fun e =>
        (getSink e t).st = q.after ∧ (getSink e t).carry = feedSrc q.toF ∧ (getSink e t).cur = q.cur ∧ (getSink e t).pos = 0
          ∧ (∀ u, u ≠ t → getSink e u = getSink s.e u)))
  ∧ (∀ (s : State) (t : Nat), t < 0x3400 → s.e.held = 0 →
    let q := getSink s.e t
    q.st = .fbact →
    (q.carry = 0x3FFF → q.fb ≠ 0x3FFF → isLost s.e q.fb = false → holdOver s.e q.fbClean = true →
      completes (.fallbackReturn t) s fun e =>
        (getSink e t).st = .fbfade ∧ (getSink e t).fromF = .const 0 ∧ (getSink e t).toF = .src q.fb ∧ (getSink e t).after = .fbact
          ∧ (getSink e t).cur = q.cur ∧ ∃ e1 : Engine, e = postEvent 0x0201 [2 ^ 48 * t + 2 ^ 40 * 4] e1 ∧ e1.regs = s.e.regs)
    ∧ (q.revert = true → isLost s.e q.cur = false → holdOver s.e q.curClean = true →
      completes (.reversion t) s fun e =>
        (getSink e t).st = .fbfade ∧ (getSink e t).fromF = .src q.carry ∧ (getSink e t).toF = .src q.cur ∧ (getSink e t).after = .steady
          ∧ (getSink e t).curLost = false ∧ (getSink e t).cur = q.cur))

/-- ASRC_LOCK, ASRC_UNLOCK and ASRC_RANGE (R205): the change of a channel in ASRC mode waits for the frame boundary. There a channel whose ratio
is steady and in range is LOCKED and its output free of loss; a locked one that loses its clock goes back to acquiring with UNLK set, and one
whose ratio leaves the range stops; the output of either is lost. -/
def Obligations.AsrcChannelsLock : Prop :=
  (∀ (s : State) (ch r : Nat), ch < 256 → s.e.held = 0 → isAsrc s.e ch = true →
    (getF .ROUTE_BRSTAT_STATE ch s.e ≠ 2 → ratioOk r = true →
      completes (.asrcLock ch r) s fun e => tget (0, 0) e.mix.asrcDue ch = (3, r) ∧ e = { s.e with mix := { s.e.mix with asrcDue := e.mix.asrcDue } })
    ∧ (getF .ROUTE_BRSTAT_STATE ch s.e = 2 →
      completes (.asrcUnlock ch) s fun e => tget (0, 0) e.mix.asrcDue ch = (2, 0) ∧ e = { s.e with mix := { s.e.mix with asrcDue := e.mix.asrcDue } })
    ∧ (ratioOk r = false →
      completes (.asrcRange ch r) s fun e => tget (0, 0) e.mix.asrcDue ch = (4, r) ∧ e = { s.e with mix := { s.e.mix with asrcDue := e.mix.asrcDue } }))
  ∧ ∀ (e : Engine) (ch r : Nat), ch < 256 → isAsrc e ch = true →
    (getF .ROUTE_BRSTAT_STATE ch e ≠ 2 → tget (0, 0) e.mix.asrcDue ch = (3, r) →
      getF .ROUTE_BRSTAT_STATE ch (channelTick e ch) = 2 ∧ isLost (channelTick e ch) (0x3100 + ch) = false ∧ (channelTick e ch).mem = e.mem)
    ∧ (getF .ROUTE_BRSTAT_STATE ch e = 2 → tget (0, 0) e.mix.asrcDue ch = (2, r) →
      getF .ROUTE_BRSTAT_STATE ch (channelTick e ch) = 1 ∧ getF .ROUTE_BRSTAT_UNLK ch (channelTick e ch) = 1
        ∧ isLost (channelTick e ch) (0x3100 + ch) = true ∧ (channelTick e ch).mix.sinks = e.mix.sinks)
    ∧ (tget (0, 0) e.mix.asrcDue ch = (4, r) → getF .ROUTE_BRSTAT_STATE ch (channelTick e ch) = 3
        ∧ (getF .ROUTE_BRSTAT_STATE ch e = 2 → isLost (channelTick e ch) (0x3100 + ch) = true))

/-- GAIN_ZERO_CROSSING_STEP, GAIN_TIMEOUT and RAMP_END (R224, R225): a waiting point takes its target at the crossing; without one in time
it ramps from the gain it has; at the end of a ramp it waits for a held target that differs, else it is STEADY. -/
def Obligations.GainPointsStep : Prop :=
  ∀ (s : State) (i k : Nat), i < 0x110000 → s.e.held = 0 →
    let p := getGp s.e i
    (p.st = .zcwait → p.traj.length ≤ k → gpCrosses s.e i k = true →
      completes (.gainZeroCrossingStep i k) s fun e =>
        (getGp e i).st = .steady ∧ (getGp e i).g = p.t ∧ (getGp e i).t = p.t ∧ (∀ j, j ≠ i → getGp e j = getGp s.e j))
    ∧ (p.st = .zcwait → p.traj.length ≤ k → firstAt (gpTimeout s.e i) (gpTo s.e i k).pos (p.traj.length == k) = true →
      completes (.gainTimeout i k) s fun e =>
        (getGp e i).st = .ramp ∧ (getGp e i).g0 = p.g ∧ (getGp e i).t = p.t ∧ (getGp e i).pos = 0 ∧ e.mem = s.e.mem
          ∧ (∀ j, j ≠ i → getGp e j = getGp s.e j))
    ∧ (p.st = .ramp → gpRamp s.e i ≤ (gpTo s.e i (k + 1)).pos → p.traj.length ≤ k + 1 →
      completes (.rampEnd i k) s fun e =>
        (p.next = none → (getGp e i).st = .steady ∧ (getGp e i).t = p.t)
          ∧ (∀ n, p.next = some n → n ≠ p.t → (getGp e i).st = .zcwait ∧ (getGp e i).t = n ∧ (getGp e i).next = none)
          ∧ (∀ j, j ≠ i → getGp e j = getGp s.e j))

/-! ### Metering and services (chapter 7) -/

/-- METER_BLOCK_WRITE, LOUDNESS_STEP and LOUD_RESET_WRITE (R229, R232, R235): the block that ended is written once, to the buffer that is
next, and the sequence number rises; a step of the supervisor enters the newest 100 ms mean square
of each meter whose step ends and leaves the other meters; a bit written 1 marks its meter for a reset, which the
next step carries out. -/
def Obligations.MetersAdvance : Prop :=
  (∀ (s : State) (b : List Byte), s.e.held = 0 → s.e.mix.meterDue = some b →
    completes .meterBlockWrite s fun e =>
      e.mix.meterDue = none ∧ e.mix.meterToB = !s.e.mix.meterToB
        ∧ getF .SUM_METER_SEQ_SEQ 0 e = (getF .SUM_METER_SEQ_SEQ 0 s.e + 1) % 2 ^ 32
        ∧ (s.e.mix.meterEv = false → s.e.host.linkOff = false →
            ∀ a, hostAt s.e (if s.e.mix.meterToB then s.e.mix.meterB else s.e.mix.meterA) b.length = some a →
              readBytes e a b.length = b ∧ ∀ x, x < a ∨ a + b.length ≤ x → readByte e x = readByte s.e x))
  ∧ (∀ (s : State) (ms : List Nat) (m : Nat) (l : Loud), (∀ x ∈ ms, x < 64) → s.e.held = 0 → getF .SYS_SUP_STAT_STATE 0 s.e = 1 →
      tget none s.e.mix.louds m = some l →
    (m ∉ ms → completes (.loudnessStep ms) s fun e =>
      e = { s.e with mix := { s.e.mix with louds := e.mix.louds } } ∧ tget none e.mix.louds m = some l)
    ∧ (m ∈ ms → completes (.loudnessStep ms) s fun e =>
      e = { s.e with mix := { s.e.mix with louds := e.mix.louds } }
        ∧ ∃ l', tget none e.mix.louds m = some l' ∧ l'.steps = (l.stepPower :: l.steps).take 30 ∧ l'.reset = false
          ∧ (l.reset = true → l'.wasReset = true ∧ l'.tpMax = 0)
          ∧ (l.reset = false → l'.tpMax = l.tpMax)
          ∧ (bitF .SUM_LOUD_RUN_RUN (m / 32) (m % 32) s.e = false → l.reset = false → l'.hist = l.hist ∧ l'.secs = l.secs)))
  ∧ ∀ (s : State) (k val m : Nat) (l : Loud), k < 2 → val < 2 ^ 32 → m < 64 → s.e.held = 0 → tget none s.e.mix.louds m = some l →
    completes (.loudResetWrite k val) s fun e =>
      e.regs = s.e.regs ∧ e.mem = s.e.mem
        ∧ tget none e.mix.louds m = some (if m / 32 = k ∧ val / 2 ^ (m % 32) % 2 = 1 then { l with reset := true } else l)

/-- AUTOMIX_UPDATE and DUCK_HOLD_EXPIRY (R237, R241): the only member of a group that is loud enough has factor 1 once the group's turn falls
due; while all members of a
group are quiet its factors and its hold bit stand, and else each member takes its share; a group whose turn it is not keeps
both. A duck rule whose hold has run out is inactive: from the
tick that ends the frame on, or at once where that tick has passed. -/
def Obligations.AutomixAndDucking : Prop :=
  (∀ (s : State) (gs : List Nat) (g i : Nat) (c : AmGroup) (m : AmMember), (∀ x ∈ gs, x < 32) → g ∈ gs → i < 1024 → s.e.held = 0 → getF .SYS_SUP_STAT_STATE 0 s.e = 1 →
      s.e.mix.groups = [(g, some c)] → s.e.mix.members = [(i, some m)] → m.group = g →
    completes (.automixUpdate gs) s fun e =>
      ∃ m', tget none e.mix.members i = some m' ∧ m'.e = m.e
        ∧ (powerOf (-(c.thr : Int)) ≤ m.e → m'.a = gainOne ∧ bitF .SUM_AMIX_HOLD_HOLD 0 g e = false)
        ∧ (m.e < powerOf (-(c.thr : Int)) → m'.a = m.a ∧ bitF .SUM_AMIX_HOLD_HOLD 0 g e = true))
  ∧ (∀ (s : State) (gs : List Nat) (g : Nat) (c : AmGroup), (∀ x ∈ gs, x < 32) → g < 32 → s.e.held = 0 → getF .SYS_SUP_STAT_STATE 0 s.e = 1 →
      twf none s.e.mix.groups = true → twf none s.e.mix.members = true → tget none s.e.mix.groups g = some c →
      let quiet := (membersOf s.e g).all fun p => decide (p.2.e < powerOf (-(c.thr : Int)))
      let sum := (membersOf s.e g).foldl (fun n p => n + weighted p.2) 0
    completes (.automixUpdate gs) s fun e =>
      bitF .SUM_AMIX_HOLD_HOLD 0 g e = (if g ∈ gs then quiet else bitF .SUM_AMIX_HOLD_HOLD 0 g s.e)
        ∧ ∀ i m, tget none s.e.mix.members i = some m → m.group = g →
          ∃ m', tget none e.mix.members i = some m' ∧ m'.e = m.e ∧ m'.a = if g ∉ gs ∨ quiet = true then m.a else amixFactor c m sum)
  ∧ (∀ (s : State) (k : Nat) (r : Duck), k < 32 → s.e.held = 0 → getF .SYS_SUP_STAT_STATE 0 s.e = 1 → tget none s.e.mix.ducks k = some r →
      r.active = true →
    (r.until_ ≤ frameNo s.e →
      completes (.duckHoldExpiry k) s fun e =>
        tget none e.mix.ducks k = some { r with active := false, ending := false } ∧ bitF .SUM_DUCK_ACT_ACT 0 k e = false ∧ e.mem = s.e.mem)
    ∧ (r.until_ = frameNo s.e + 1 →
      completes (.duckHoldExpiry k) s fun e =>
        tget none e.mix.ducks k = some { r with ending := true } ∧ e = { s.e with mix := { s.e.mix with ducks := e.mix.ducks } }))
  ∧ ∀ (e : Engine) (k : Nat) (r : Duck), k < 32 → loudTrigger e r = false → r.active = true → r.ending = true → r.until_ ≤ frameNo e + 1 →
    bitF .SUM_DUCK_ACT_ACT 0 k (duckRuleTick e k r) = false ∧ tget none (duckRuleTick e k r).mix.ducks k = some { r with active := false, ending := false }

/-! ### Command rings, directives and transactions (chapter 8) -/

/-- HOST_CR_TAIL_WRITE, PROGRAM_FETCH, HOST_CR_SEQ_WRITE, RING_DISABLE, HOST_CQ_HEAD_WRITE, EVENTS_LOST_POST and TRANSACTION_IDLE_ABANDON
(R249, R250, R253, R254, R276): a word that the host places lies at the ring's old tail, and the tail is as written; a published program with the
expected sequence number starts and raises it, one whose number is ahead of it halts the ring and completes with 0x0104; writing the
expected number clears HALT; a ring that is disabled, or whose transaction stays idle, loses its open transaction, whose slot is free; a
completion head returns the entries that it passes; and the events lost are reported by event 0x0406 once an entry is free. Beside these: the words
placed of any program, a replay of one executed before, and the same ends whatever else the rings hold. -/
def Obligations.RingsRun : Prop :=
  (∀ (s : State) (k tail a : Nat) (w : Word64), k < 8 → tail < 2 ^ 32 → s.e.held = 0 →
    hostAt s.e (2 ^ 32 * getF .HOST_CR_BASE_HI_BASE k s.e + getF .HOST_CR_BASE_LO_BASE k s.e + 8 * (getF .HOST_CR_TAIL_TAIL k s.e % crSize s.e k)) 8
      = some a →
    completes (.hostCrTailWrite k tail [w]) s fun e =>
      getF .HOST_CR_TAIL_TAIL k e = tail % 2 ^ Fld.HOST_CR_TAIL_TAIL.width ∧ read64 e a = w
        ∧ (∀ b, b < a ∨ a + 8 ≤ b → readByte e b = readByte s.e b) ∧ e.ctl = s.e.ctl)
  ∧ (∀ (s : State) (k tail : Nat) (ws : List Word64), (Instr.hostCrTailWrite k tail ws).wf = true → s.e.held = 0 → ws.length ≤ crSize s.e k →
    completes (.hostCrTailWrite k tail ws) s fun e =>
      getF .HOST_CR_TAIL_TAIL k e = tail % 2 ^ Fld.HOST_CR_TAIL_TAIL.width ∧ e.ctl = s.e.ctl
        ∧ ∀ (j : Nat) (w : Word64), ws[j]? = some w →
          (ringEntry s.e k (getF .HOST_CR_TAIL_TAIL k s.e + j)).isSome = true → ringEntry e k (getF .HOST_CR_TAIL_TAIL k s.e + j) = some w)
  ∧ (∀ (s : State) (k : Nat) (w : Word64), s.e.held = 0 → turnOf s.e = some k → (∀ j, (getRing s.e j).active = false) → (getRing s.e k).skip = false →
    nextProgram s.e k = some w →
    let n := bits w 31 0
    (bits w 63 32 = getF .HOST_CR_SEQ_SEQ k s.e →
      let ws := programWords s.e k (getF .HOST_CR_HEAD_HEAD k s.e + 1) n
      (∃ f, frontOf ws = some f ∧ opcodes.contains f.op = true) →
      completes .programFetch s fun e =>
        getF .HOST_CR_SEQ_SEQ k e = (getF .HOST_CR_SEQ_SEQ k s.e + 1) % 2 ^ 32 ∧ (getRing e k).active = true ∧ (getRing e k).words = ws
          ∧ (∀ f i, f ≠ .HOST_CR_SEQ_SEQ → getF f i e = getF f i s.e) ∧ e.mem = s.e.mem)
    ∧ (getF .HOST_CR_SEQ_SEQ k s.e < bits w 63 32 → bits w 63 32 - getF .HOST_CR_SEQ_SEQ k s.e < 2 ^ 31 → openTxn s.e k = none →
      completes .programFetch s fun e =>
        getF .HOST_CR_STAT_HALT k e = 1 ∧ getF .HOST_CR_SEQ_SEQ k e = getF .HOST_CR_SEQ_SEQ k s.e
          ∧ getF .HOST_CR_HEAD_HEAD k e = getF .HOST_CR_HEAD_HEAD k s.e ∧ (getRing e k).active = false
          ∧ getF .HOST_CQ_TAIL_TAIL k e
            = (if getF .HOST_CQ_TAIL_TAIL k s.e + 1 ≥ cqSize s.e k then 0 else getF .HOST_CQ_TAIL_TAIL k s.e + 1) % 2 ^ Fld.HOST_CQ_TAIL_TAIL.width))
  ∧ (∀ (s : State) (k : Nat) (w : Word64), s.e.held = 0 → turnOf s.e = some k → (getRing s.e k).active = false → nextProgram s.e k = some w →
    let n := bits w 31 0
    let exp := getF .HOST_CR_SEQ_SEQ k s.e
    let back := (exp + 2 ^ 32 - bits w 63 32) % 2 ^ 32
    let ws := programWords s.e k (getF .HOST_CR_HEAD_HEAD k s.e + 1) n
    completes .programFetch s fun e =>
      (back = 0 → getF .HOST_CR_SEQ_SEQ k e = (exp + 1) % 2 ^ 32
          ∧ ((getRing s.e k).skip = false → (∃ f, frontOf ws = some f ∧ opcodes.contains f.op = true) →
            (getRing e k).active = true ∧ (getRing e k).words = ws))
        ∧ (1 ≤ back → back ≤ 64 → getF .HOST_CR_SEQ_SEQ k e = exp ∧ (getRing e k).active = false
          ∧ getF .HOST_CR_HEAD_HEAD k e = (getF .HOST_CR_HEAD_HEAD k s.e + (n + 1)) % crSize s.e k % 2 ^ Fld.HOST_CR_HEAD_HEAD.width)
        ∧ (64 < back → getF .HOST_CR_STAT_HALT k e = 1 ∧ getF .HOST_CR_SEQ_SEQ k e = exp ∧ (getRing e k).active = false
          ∧ getF .HOST_CR_HEAD_HEAD k e = getF .HOST_CR_HEAD_HEAD k s.e))
  ∧ (∀ (s : State) (k seq : Nat), k < 8 → seq < 2 ^ 32 → s.e.held = 0 → (∀ j, (getRing s.e j).active = false) →
    completes (.hostCrSeqWrite k seq) s fun e =>
      getF .HOST_CR_SEQ_SEQ k e = seq ∧ getF .HOST_CR_STAT_HALT k e = 0 ∧ onlyFields [.HOST_CR_SEQ_SEQ, .HOST_CR_STAT_HALT] s.e e)
  ∧ (∀ (s : State) (k seq : Nat), k < 8 → seq < 2 ^ 32 → s.e.held = 0 →
    completes (.hostCrSeqWrite k seq) s fun e => getF .HOST_CR_SEQ_SEQ k e = seq ∧ getF .HOST_CR_STAT_HALT k e = 0)
  ∧ (∀ (s : State) (k : Nat) (t : Txn), k < 8 → s.e.held = 0 → openTxn s.e k = some t ∨ openTxn s.e k = none ∧ commitTxn s.e k = some t →
    completes (.ringDisable k) s (fun e => getF .HOST_CR_CFG_EN k e = 0 ∧ e.ctl.txns = s.e.ctl.txns.filter (fun x => x.slot != t.slot)
        ∧ (getRing e k).skip = true ∧ e.mix = s.e.mix ∧ e.sched = s.e.sched)
      ∧ (supUp s.e = true → completes (.transactionIdleAbandon k) s fun e => (e.ctl.txns.all fun x => x.slot != t.slot) = true
        ∧ getF .HOST_CR_CFG_EN k e = getF .HOST_CR_CFG_EN k s.e ∧ e.mix = s.e.mix ∧ e.sched = s.e.sched))
  ∧ (∀ (s : State) (k : Nat), k < 8 → s.e.held = 0 →
    (openTxn s.e k = none → completes (.ringDisable k) s fun e => getF .HOST_CR_CFG_EN k e = 0 ∧ onlyFields [.HOST_CR_CFG_EN] s.e e)
    ∧ ∀ t, s.e.ctl.txns = [t] → t.ring = k → t.st = .open_ →
      (completes (.ringDisable k) s fun e => getF .HOST_CR_CFG_EN k e = 0 ∧ e.ctl.txns = [] ∧ getF .HOST_TXN_STAT_USED 0 e = 0 ∧ getF .HOST_CR_STAT_TXN k e = 0
        ∧ (getRing e k).skip = true)
      ∧ (supUp s.e = true → (∀ j, (getRing s.e j).active = false) →
        completes (.transactionIdleAbandon k) s fun e => e.ctl.txns = [] ∧ getF .HOST_TXN_STAT_USED 0 e = 0 ∧ getF .HOST_CR_STAT_TXN k e = 0
          ∧ getF .HOST_CR_CFG_EN k e = getF .HOST_CR_CFG_EN k s.e ∧ (getRing e k).skip = true))
  ∧ (∀ (s : State) (k head : Nat), k < 8 → head < 2 ^ 32 → s.e.held = 0 → (∀ j, (getRing s.e j).active = false) → s.e.ctl.owed = [] →
    completes (.hostCqHeadWrite k head) s fun e =>
      getF .HOST_CQ_HEAD_HEAD k e = head % 2 ^ Fld.HOST_CQ_HEAD_HEAD.width
        ∧ tget 0 e.ctl.used k = tget 0 s.e.ctl.used k - freed (cqSize s.e k) (getF .HOST_CQ_HEAD_HEAD k s.e) head
        ∧ onlyFields [.HOST_CQ_HEAD_HEAD] { s.e with ctl := e.ctl } e)
  ∧ (∀ (s : State) (k head : Nat), k < 8 → head < 2 ^ 32 → s.e.held = 0 →
    completes (.hostCqHeadWrite k head) s fun e => getF .HOST_CQ_HEAD_HEAD k e = head % 2 ^ Fld.HOST_CQ_HEAD_HEAD.width
      ∧ ((∀ j, (getRing s.e j).active = false) → (s.e.ctl.owed.any fun p => p.1 == k) = true → isF .HOST_CQ_CFG_EN k s.e = true →
          s.e.host.linkOff = false → tget 0 s.e.ctl.used k - freed (cqSize s.e k) (getF .HOST_CQ_HEAD_HEAD k s.e) head < cqSize s.e k →
          e.ctl.owed.length < s.e.ctl.owed.length))
  ∧ ∀ (s : State), s.e.held = 0 →
    (s.e.ctl.lost = 0 ∨ evFree s.e = false → completes .eventsLostPost s fun e => e = s.e)
    ∧ (s.e.ctl.lost ≠ 0 → evFree s.e = true →
      completes .eventsLostPost s fun e => e = postEvent 0x0406 [s.e.ctl.lost] { s.e with ctl := { s.e.ctl with lost := 0 } } ∧ e.ctl.lost = 0
        ∧ tget 0 e.ctl.used 8 = tget 0 s.e.ctl.used 8 + 1)

/-- The directives that apply at the next tick (R257, Table 8.6): LOAD_PROG, DEF_ITEM, LINK, ROUTE, FALLBACK, ALIGN, SET_GAIN, SET_GAIN_DB,
SET_SEND, PORT_CFG, GROUP_START, GROUP_STOP, REF_CFG, REF_PRIO, STREAM_TX, STREAM_RX, PTP_CFG, FAB_CFG and PAIR_CFG of every kind, FAB_SLOT,
SCENE_DELETE, METER_CFG, LOUD_CFG, AUTOMIX_CFG, MINUS_CFG and GEN_CFG. Taken from its ring outside a transaction and free of faults, the directive waits
for the tick and completes at once with status 0, unless SILENT hides the completion; where Table 8.6 gives the apply frame as RESULT, it
is the next frame. With a fault it completes with the first one's status and nothing waits. Either way nothing else changes yet. -/
def Obligations.DirectivesWaitForTheirTick : Prop :=
  ∀ p ∈ ([(0x20, none, Instr.loadProg), (0x21, none, .defItem), (0x22, none, .link), (0x30, none, .route), (0x31, none, .fallback),
      (0x32, none, .align), (0x40, none, .setGain), (0x41, none, .setGainDb), (0x42, none, .setSend), (0x60, none, .portCfg),
      (0x61, none, .groupStart), (0x62, none, .groupStop), (0x70, none, .refCfg), (0x71, none, .refPrio), (0x80, none, .streamTx),
      (0x81, none, .streamRx), (0x82, some 0, .ptpCfgInstance), (0x82, some 1, .ptpCfgTime), (0x82, some 2, .ptpCfgServo),
      (0x82, some 3, .ptpCfgRemap), (0x82, some 4, .ptpCfgLatency), (0x82, some 5, .ptpCfgPulse), (0x90, some 0, .fabCfgNode),
      (0x90, some 1, .fabCfgLink), (0x90, some 2, .fabCfgExclude), (0x90, some 3, .fabCfgReadmit), (0x91, none, .fabSlot),
      (0xA0, some 0, .pairCfgPair), (0xA0, some 1, .pairCfgOutputGroup), (0xB2, none, .sceneDelete), (0xC0, none, .meterCfg),
      (0xC1, none, .loudCfg), (0xC2, none, .automixCfg), (0xC3, none, .minusCfg), (0xC4, none, .genCfg)]
      : List (Nat × Option Nat × (Dir → Instr))),
  ∀ (s : State) (d : Dir), d.wf = true → s.e.held = 0 → directiveNext p.1 d s.e → (∀ k, p.2.1 = some k → firstKind s.e p.1 d = k) →
    openTxn s.e d.ring = none → pairActive s.e = false →
    let e0 := popDir d.ring s.e
    let x := taken p.1 d s.e
    let q := parse e0 p.1 d
    let bad := firstStatus (ringStatus e0 d.ring p.1 ++ (checkRecs x (frameNo s.e + 1) q.recs (viewNext e0)).statuses)
    q.status = 0 →
    completes (p.2.2 d) s fun e =>
      e = { s.e with ctl := e.ctl, regs := e.regs, mem := e.mem, ecc := e.ecc, free := e.free }
        ∧ e.ctl.deferred = s.e.ctl.deferred ++ (if bad = 0 then [x] else [])
        ∧ (getRing e d.ring).words = (getRing e0 d.ring).words
        ∧ (bad = 0 → d.flags / 64 % 2 = 0 → ∃ r : Word64, completed d.ring (compWord d.tag 0 p.1 false) r s.e e
            ∧ (p.1 ∈ [0x30, 0x31, 0x40, 0x41, 0x60, 0x70, 0x71, 0x91, 0xC0, 0xC1, 0xC2, 0xC3, 0xC4] → r = BitVec.ofNat 64 (frameNo s.e + 1))
            ∧ (p.1 ∈ [0x21, 0x22, 0x32] → r = 0))
        ∧ (bad = 0 → d.flags / 64 % 2 = 1 → compsOf e d.ring = compsOf s.e d.ring ∧ e.mem = s.e.mem
            ∧ ((getRing e0 d.ring).words ≠ [] → e.regs = s.e.regs))
        ∧ (bad ≠ 0 → ∃ r : Word64, completed d.ring (compWord d.tag bad p.1 false) r s.e e)

/-- NOP, QUERY, FENCE, TXN_OPEN, TXN_ABORT and STAGING (R259, R260, R270, R276): a NOP completes and changes nothing; a QUERY writes
its records to the host buffer and completes with their bytes as RESULT; a FENCE holds its ring, and completes with the frame once what was
executed before it has ended; TXN_OPEN takes the lowest free slot, which is its RESULT; a directive on a ring with an open transaction is
staged, and its completion has status 0 and RESULT 0; TXN_ABORT frees the slot and answers the writes discarded. The parts without a bound on the
transactions in progress, or on the records of a QUERY, say the same of any number. -/
def Obligations.TransactionsStageAndAbort : Prop :=
  (∀ (s : State) (d : Dir), d.wf = true → s.e.held = 0 → directiveNext 0x00 d s.e →
      openTxn s.e d.ring = none → (parse (popDir d.ring s.e) 0 d).status = 0 → d.flags = 0 →
    completes (.nop d) s fun e => completed d.ring (compWord d.tag 0 0x00 false) 0 s.e e
      ∧ e = { s.e with ctl := e.ctl, regs := e.regs, mem := e.mem, ecc := e.ecc } ∧ e.ctl.deferred = s.e.ctl.deferred)
  ∧ (∀ (s : State) (d : Dir) (w a : Nat), d.wf = true → s.e.held = 0 → directiveNext 0x02 d s.e → openTxn s.e d.ring = none → d.flags = 0 →
      let e0 := popDir d.ring s.e
      let q := parse e0 0x02 d
      q.status = 0 → s.e.ctl.deferred = [] → s.e.ctl.later = [] → pairMode s.e = 0 →
      bits (rec1 q.words) 63 56 = 4 → bits (rec1 q.words) 55 32 = 0 → bits (rec1 q.words) 31 0 = w → w < 0x3400 → (q.words.getD 2 0).toNat = 1 →
      hostAt s.e (q.words.getD 3 0).toNat 4 = some a →
      let comp := hostAt s.e (2 ^ 32 * getF .HOST_CQ_BASE_HI_BASE d.ring s.e + getF .HOST_CQ_BASE_LO_BASE d.ring s.e
        + 16 * getF .HOST_CQ_TAIL_TAIL d.ring s.e) 16
      (∀ b, comp = some b → b + 16 ≤ a ∨ a + 4 ≤ b) →
    completes (.query d) s fun e => completed d.ring (compWord d.tag 0 0x02 false) 4 s.e e
      ∧ read32 e a = (getSink s.e w).count % 2 ^ 32
      ∧ ∀ b, b < a ∨ a + 4 ≤ b → (∀ c, comp = some c → b < c ∨ c + 16 ≤ b) → readByte e b = readByte s.e b)
  ∧ (∀ (s : State) (d : Dir), d.wf = true → s.e.held = 0 → directiveNext 0x02 d s.e → openTxn s.e d.ring = none → d.flags / 32 % 4 = 0 →
      let e0 := popDir d.ring s.e
      let q := parse e0 0x02 d
      let v := viewNext e0
      let ty := bits (rec1 q.words) 63 56
      let i := bits (rec1 q.words) 31 0
      let n := (q.words.getD 2 0).toNat
      let bs := if ty = 5 then wordBytes ((detailEntries v i).take n) else (List.range n).flatMap fun j => queryRecord v ty (i + j)
      q.status = 0 → firstStatus (ringStatus e0 d.ring 0x02 ++ (checkRecs (taken 0x02 d s.e) 0 q.recs v).statuses) = 0 →
    completes (.query d) s fun e => completed d.ring (compWord d.tag 0 0x02 false) (BitVec.ofNat 64 bs.length) s.e e
      ∧ e.mix = s.e.mix ∧ e.sched = s.e.sched
      ∧ ∀ a, hostAt s.e (q.words.getD 3 0).toNat bs.length = some a →
        (∀ b, hostAt s.e (2 ^ 32 * getF .HOST_CQ_BASE_HI_BASE d.ring s.e + getF .HOST_CQ_BASE_LO_BASE d.ring s.e
          + 16 * getF .HOST_CQ_TAIL_TAIL d.ring s.e) 16 = some b → b + 16 ≤ a ∨ a + bs.length ≤ b) →
        readBytes e a bs.length = bs)
  ∧ (∀ (s : State) (d : Dir), d.wf = true → s.e.held = 0 → directiveNext 0x01 d s.e → openTxn s.e d.ring = none →
      let e0 := popDir d.ring s.e
      let q := parse e0 0x01 d
      q.status = 0 → bits (rec1 q.words) 63 1 = 0 →
    completes (.fence d) s fun e =>
      (∃ h, (getRing e d.ring).hold = some h ∧ h.op = 0x01 ∧ h.tag = d.tag ∧ h.all = bit (rec1 q.words) 0)
        ∧ (getRing e d.ring).comps = (getRing s.e d.ring).comps ∧ e.regs = s.e.regs ∧ e.mem = s.e.mem)
  ∧ (∀ (s : State) (k : Nat) (h : Hold), k < 8 → s.e.held = 0 → supUp s.e = true → (getRing s.e k).hold = some h → h.op = 0x01 → restful k s.e →
    (fenceMet k h.n h.all s.e = false → completes (.fenceComplete k) s fun e => e = s.e)
    ∧ (fenceMet k h.n h.all s.e = true → h.flags = 0 →
      completes (.fenceComplete k) s fun e => completed k (compWord h.tag 0 0x01 false) (BitVec.ofNat 64 (frameNo s.e)) s.e e))
  ∧ (∀ (s : State) (d : Dir), d.wf = true → s.e.held = 0 → directiveNext 0x10 d s.e → openTxn s.e d.ring = none → d.flags = 0 →
      (parse (popDir d.ring s.e) 0x10 d).status = 0 → peerRefuses s.e 0x10 = false → s.e.ctl.txns = [] →
    completes (.txnOpen d) s fun e => completed d.ring (compWord d.tag 0 0x10 false) 0 s.e e
      ∧ (∃ t, e.ctl.txns = [t] ∧ t.slot = 0 ∧ t.ring = d.ring ∧ t.tag = d.tag ∧ t.st = .open_ ∧ t.staged = [])
      ∧ getF .HOST_TXN_STAT_USED 0 e = 1 ∧ getF .HOST_CR_STAT_TXN d.ring e = 1)
  ∧ (∀ (s : State) (d : Dir) (slot : Nat), d.wf = true → s.e.held = 0 → directiveNext 0x10 d s.e → openTxn s.e d.ring = none → d.flags / 32 % 4 = 0 →
      (parse (popDir d.ring s.e) 0x10 d).status = 0 → peerRefuses s.e 0x10 = false → freeSlot s.e = some slot →
    completes (.txnOpen d) s fun e => completed d.ring (compWord d.tag 0 0x10 false) (BitVec.ofNat 64 slot) s.e e
      ∧ e.ctl.txns = s.e.ctl.txns ++ [newTxn slot (taken 0x10 d s.e)] ∧ e.mix = s.e.mix ∧ e.sched = s.e.sched)
  ∧ (∀ (s : State) (d : Dir) (t : Txn), d.wf = true → s.e.held = 0 → directiveNext 0x12 d s.e → openTxn s.e d.ring = some t → d.flags / 32 % 4 = 0 →
      (parse (popDir d.ring s.e) 0x12 d).status = 0 → peerRefuses s.e 0x12 = false →
    completes (.txnAbort d) s fun e => completed d.ring (compWord d.tag 0 0x12 false) (BitVec.ofNat 64 t.writes) s.e e
      ∧ e.ctl.txns = s.e.ctl.txns.filter (fun x => x.slot != t.slot) ∧ e.mix = s.e.mix ∧ e.sched = s.e.sched)
  ∧ (∀ (s : State) (op : Nat) (d : Dir) (t : Txn), op < 256 → d.wf = true → s.e.held = 0 → directiveNext op d s.e → openTxn s.e d.ring = some t →
      opcodes.contains op = true → closes op = false → op ≠ 0x10 → noTxnOp op = false → d.flags / 64 % 2 = 0 →
      let e0 := popDir d.ring s.e
      let x := taken op d s.e
      let q := parse e0 op d
      q.status = 0 → firstStatus (ringStatus e0 d.ring op ++ txnLimits t x ++ (checkRecs x 0 q.recs (viewTxn e0 t)).statuses) = 0 →
    completes (.staging op d) s fun e => completed d.ring (compWord d.tag 0 op false) 0 s.e e
      ∧ (∃ u ∈ e.ctl.txns, u.slot = t.slot ∧ u.st = .open_ ∧ u.failed = t.failed ∧ u.staged = t.staged ++ [x] ∧ u.writes = t.writes + stagedWrites x)
      ∧ e.ctl.deferred = s.e.ctl.deferred ∧ e.mix = s.e.mix ∧ e.sched = s.e.sched ∧ e.ports = s.e.ports)
  ∧ (∀ (s : State) (d : Dir) (t : Txn), d.wf = true → s.e.held = 0 → directiveNext 0x12 d s.e → openTxn s.e d.ring = some t → d.flags = 0 →
      (parse (popDir d.ring s.e) 0x12 d).status = 0 → peerRefuses s.e 0x12 = false → s.e.ctl.txns = [t] →
    completes (.txnAbort d) s fun e => completed d.ring (compWord d.tag 0 0x12 false) (BitVec.ofNat 64 t.writes) s.e e
      ∧ e.ctl.txns = [] ∧ getF .HOST_TXN_STAT_USED 0 e = 0 ∧ getF .HOST_CR_STAT_TXN d.ring e = 0 ∧ e.mix = s.e.mix ∧ e.sched = s.e.sched)
  ∧ ∀ (s : State) (op : Nat) (d : Dir) (t : Txn), op < 256 → d.wf = true → s.e.held = 0 → directiveNext op d s.e → openTxn s.e d.ring = some t →
      opcodes.contains op = true → closes op = false → op ≠ 0x10 → noTxnOp op = false → s.e.ctl.txns = [t] → d.flags = 0 →
      let e0 := popDir d.ring s.e
      let x := taken op d s.e
      let q := parse e0 op d
      q.status = 0 → firstStatus (ringStatus e0 d.ring op ++ txnLimits t x ++ (checkRecs x 0 q.recs (viewTxn e0 t)).statuses) = 0 →
    completes (.staging op d) s fun e => completed d.ring (compWord d.tag 0 op false) 0 s.e e
      ∧ (∃ u, e.ctl.txns = [u] ∧ u.slot = t.slot ∧ u.st = .open_ ∧ u.failed = t.failed ∧ u.staged = t.staged ++ [x] ∧ u.writes = t.writes + stagedWrites x)
      ∧ e.ctl.deferred = s.e.ctl.deferred ∧ e.mix = s.e.mix ∧ e.sched = s.e.sched ∧ e.ports = s.e.ports
/-- FENCE, ADMIT, WRITE_PARAM, TXN_COMMIT, SCENE_RECALL, RESET_FN and dry ADMIT keep their ring waiting (R252, R259, R261, R268, R271, R276, R278): an
ADMIT or a WRITE_PARAM outside a transaction becomes the only directive of one under validation in the lowest free slot; TXN_COMMIT puts
the ring's open transaction under validation; SCENE_RECALL does so with a copy of the scene; SCENE_STORE stores the ring's open transaction
and frees its slot. The later parts say it beside any other transactions, and of RESET_FN of any function. -/
def Obligations.CommitsAreValidated : Prop :=
  (∀ p ∈ ([(0x23, .admitGraph), (0x50, .writeParam)] : List (Nat × (Dir → Instr))), ∀ (s : State) (d : Dir), d.wf = true → s.e.held = 0 →
      directiveNext p.1 d s.e → openTxn s.e d.ring = none → s.e.ctl.txns = [] →
      let e0 := popDir d.ring s.e
      let x := taken p.1 d s.e
      let q := parse e0 p.1 d
      q.status = 0 → (p.1 = 0x23 → bit (x.words.getD 2 0) 32 = false) →
      firstStatus (ringStatus e0 d.ring p.1 ++ txnLimits (newTxn 0 x) x ++ (checkRecs x 0 q.recs (viewAcked e0)).statuses) = 0 →
    completes (p.2 d) s fun e =>
      (∃ t, e.ctl.txns = [t] ∧ t.slot = 0 ∧ t.ring = d.ring ∧ t.staged = [x] ∧ t.st = .validating ∧ t.writes = stagedWrites x)
        ∧ (∃ h, (getRing e d.ring).hold = some h ∧ h.op = p.1 ∧ h.tag = d.tag)
        ∧ (getRing e d.ring).comps = (getRing s.e d.ring).comps ∧ getF .HOST_TXN_STAT_USED 0 e = 1
        ∧ e.mem = s.e.mem ∧ e.mix = s.e.mix ∧ e.sched = s.e.sched)
  ∧ (∀ (s : State) (d : Dir) (t : Txn), d.wf = true → s.e.held = 0 → directiveNext 0x11 d s.e → openTxn s.e d.ring = some t → s.e.ctl.txns = [t] →
      t.failed = none →
      let e0 := popDir d.ring s.e
      let x := taken 0x11 d s.e
      let q := parse e0 0x11 d
      q.status = 0 → firstStatus (ringStatus e0 d.ring 0x11 ++ (checkRecs x 0 q.recs e0).statuses) = 0 →
    completes (.txnCommit d) s fun e =>
      (∃ u, e.ctl.txns = [u] ∧ u.slot = t.slot ∧ u.st = .validating ∧ u.staged = t.staged ∧ u.commit = some (commitOf x (x.words.drop 1)))
        ∧ (∃ h, (getRing e d.ring).hold = some h ∧ h.op = 0x11 ∧ h.tag = d.tag)
        ∧ getF .HOST_CR_STAT_TXN d.ring e = 1 ∧ e.mem = s.e.mem ∧ e.mix = s.e.mix ∧ e.sched = s.e.sched)
  ∧ (∀ (s : State) (d : Dir) (t : Txn), d.wf = true → s.e.held = 0 → directiveNext 0xB0 d s.e → openTxn s.e d.ring = some t → s.e.ctl.txns = [t] →
      t.failed = none → pairActive s.e = false → d.flags = 0 →
      let e0 := popDir d.ring s.e
      let x := taken 0xB0 d s.e
      let q := parse e0 0xB0 d
      let k := bits (rec1 q.words) 11 0
      q.status = 0 → firstStatus (ringStatus e0 d.ring 0xB0 ++ (checkRecs x 0 q.recs e0).statuses) = 0 →
      getF .HOST_SCENE_SIZE_SIZE 0 s.e ≠ 0 → sceneBytes (viewNext e0) k + t.bytes ≤ 1048576 * getF .HOST_SCENE_SIZE_SIZE 0 s.e →
    completes (.sceneStore d) s fun e =>
      (∃ c, tget none e.ctl.scenes k = some c ∧ c.staged = t.staged ∧ c.writes = t.writes ∧ c.frame = frameNo s.e)
        ∧ (∀ j, j ≠ k → tget none e.ctl.scenes j = tget none s.e.ctl.scenes j)
        ∧ e.ctl.txns = [] ∧ completed d.ring (compWord d.tag 0 0xB0 false) (BitVec.ofNat 64 k) s.e e ∧ e.mix = s.e.mix ∧ e.sched = s.e.sched)
  ∧ (∀ p ∈ ([(0x23, .admitGraph), (0x50, .writeParam)] : List (Nat × (Dir → Instr))), ∀ (s : State) (d : Dir) (slot : Nat), d.wf = true → s.e.held = 0 →
      directiveNext p.1 d s.e → openTxn s.e d.ring = none → freeSlot s.e = some slot →
      let e0 := popDir d.ring s.e
      let x := taken p.1 d s.e
      let q := parse e0 p.1 d
      q.status = 0 → (p.1 = 0x23 → bit (x.words.getD 2 0) 32 = false) →
      firstStatus (ringStatus e0 d.ring p.1 ++ txnLimits (newTxn slot x) x ++ (checkRecs x 0 q.recs (viewAcked e0)).statuses) = 0 →
    completes (p.2 d) s fun e =>
      (∃ t, e.ctl.txns = s.e.ctl.txns ++ [t] ∧ t.slot = slot ∧ t.ring = d.ring ∧ t.staged = [x] ∧ t.st = .validating)
        ∧ (∃ h, (getRing e d.ring).hold = some h ∧ h.op = p.1 ∧ h.tag = d.tag) ∧ e.mem = s.e.mem ∧ e.mix = s.e.mix ∧ e.sched = s.e.sched)
  ∧ (∀ (s : State) (d : Dir) (t : Txn), d.wf = true → s.e.held = 0 → directiveNext 0x11 d s.e → openTxn s.e d.ring = some t → t.failed = none →
      let e0 := popDir d.ring s.e
      let x := taken 0x11 d s.e
      let q := parse e0 0x11 d
      q.status = 0 → firstStatus (ringStatus e0 d.ring 0x11 ++ (checkRecs x 0 q.recs e0).statuses) = 0 →
    completes (.txnCommit d) s fun e =>
      (∃ u ∈ e.ctl.txns, u.slot = t.slot ∧ u.st = .validating ∧ u.staged = t.staged ∧ u.commit = some (commitOf x (x.words.drop 1)))
        ∧ (∃ h, (getRing e d.ring).hold = some h ∧ h.op = 0x11 ∧ h.tag = d.tag) ∧ e.mem = s.e.mem ∧ e.mix = s.e.mix ∧ e.sched = s.e.sched)
  ∧ (∀ (s : State) (d : Dir) (t : Txn), d.wf = true → s.e.held = 0 → directiveNext 0xB0 d s.e → openTxn s.e d.ring = some t → t.failed = none →
      d.flags / 32 % 4 = 0 →
      let e0 := popDir d.ring s.e
      let x := taken 0xB0 d s.e
      let q := parse e0 0xB0 d
      let k := bits (rec1 q.words) 11 0
      q.status = 0 → firstStatus (ringStatus e0 d.ring 0xB0 ++ (checkRecs x 0 q.recs e0).statuses) = 0 →
      getF .HOST_SCENE_SIZE_SIZE 0 s.e ≠ 0 → sceneBytes (viewNext e0) k + t.bytes ≤ 1048576 * getF .HOST_SCENE_SIZE_SIZE 0 s.e →
    completes (.sceneStore d) s fun e =>
      (∃ c, tget none e.ctl.scenes k = some c ∧ c.staged = t.staged ∧ c.writes = t.writes ∧ c.frame = frameNo s.e)
        ∧ (∀ j, j ≠ k → tget none e.ctl.scenes j = tget none s.e.ctl.scenes j)
        ∧ e.ctl.txns = s.e.ctl.txns.filter (fun x => x.slot != t.slot)
        ∧ completed d.ring (compWord d.tag 0 0xB0 false) (BitVec.ofNat 64 k) s.e e ∧ e.mix = s.e.mix ∧ e.sched = s.e.sched)
  ∧ (∀ (s : State) (d : Dir) (c : Scene), d.wf = true → s.e.held = 0 → directiveNext 0xB1 d s.e → openTxn s.e d.ring = none → s.e.ctl.txns = [] →
      s.e.ctl.deferred = [] → s.e.ctl.later = [] →
      let e0 := popDir d.ring s.e
      let x := taken 0xB1 d s.e
      let q := parse e0 0xB1 d
      q.status = 0 → firstStatus (ringStatus e0 d.ring 0xB1 ++ (checkRecs x 0 q.recs e0).statuses) = 0 →
      tget none s.e.ctl.scenes (bits (rec1 q.words) 11 0) = some c →
    completes (.sceneRecall d) s fun e =>
      (∃ t, e.ctl.txns = [t] ∧ t.slot = 0 ∧ t.ring = d.ring ∧ t.st = .validating ∧ t.writes = c.writes
          ∧ t.staged.map (fun y => (y.op, y.words)) = c.staged.map (fun y => (y.op, y.words)))
        ∧ (∃ h, (getRing e d.ring).hold = some h ∧ h.op = 0xB1 ∧ h.tag = d.tag) ∧ e.mix = s.e.mix ∧ e.sched = s.e.sched)
  ∧ (∀ (s : State) (d : Dir) (c : Scene) (slot : Nat), d.wf = true → s.e.held = 0 → directiveNext 0xB1 d s.e → openTxn s.e d.ring = none →
      freeSlot s.e = some slot →
      let e0 := popDir d.ring s.e
      let x := taken 0xB1 d s.e
      let q := parse e0 0xB1 d
      q.status = 0 → firstStatus (ringStatus e0 d.ring 0xB1 ++ (checkRecs x 0 q.recs (viewNext e0)).statuses) = 0 →
      sceneAt (viewNext e0) (bits (rec1 q.words) 11 0) = some c →
    completes (.sceneRecall d) s fun e =>
      (∃ t, e.ctl.txns = s.e.ctl.txns ++ [t] ∧ t.slot = slot ∧ t.ring = d.ring ∧ t.st = .validating ∧ t.writes = c.writes
          ∧ t.staged.map (fun y => (y.op, y.words)) = c.staged.map (fun y => (y.op, y.words)))
        ∧ (∃ h, (getRing e d.ring).hold = some h ∧ h.op = 0xB1 ∧ h.tag = d.tag) ∧ e.mix = s.e.mix ∧ e.sched = s.e.sched)
  ∧ (∀ (s : State) (d : Dir), d.wf = true → s.e.held = 0 → directiveNext 0x03 d s.e → openTxn s.e d.ring = none →
      let e0 := popDir d.ring s.e
      let q := parse e0 0x03 d
      q.status = 0 → firstStatus (ringStatus e0 d.ring 0x03 ++ (checkRecs (taken 0x03 d s.e) 0 q.recs e0).statuses) = 0 →
    completes (.resetFn d) s fun e =>
      (bits (rec1 q.words) 63 56, bits (rec1 q.words) 15 0, d.tag, d.ring) ∈ e.ctl.resetFn
        ∧ (∃ h, (getRing e d.ring).hold = some h ∧ h.op = 0x03 ∧ h.tag = d.tag))
  ∧ ∀ (s : State) (d : Dir), d.wf = true → s.e.held = 0 → directiveNext 0x03 d s.e → openTxn s.e d.ring = none → peerRefuses s.e 0x03 = false →
      let q := parse (popDir d.ring s.e) 0x03 d
      let fn := bits (rec1 q.words) 63 56
      let i := bits (rec1 q.words) 15 0
      q.status = 0 → bits (rec1 q.words) 55 16 = 0 → (fn = 1 ∧ i < 60 ∨ fn = 2 ∧ i < 512) → s.e.ctl.resetFn = [] →
    completes (.resetFn d) s fun e =>
      e.ctl.resetFn = [(fn, i, d.tag, d.ring)] ∧ (∃ h, (getRing e d.ring).hold = some h ∧ h.op = 0x03 ∧ h.tag = d.tag)
        ∧ 2 ≤ getF .HOST_RST_STAT_LEVEL 0 e ∧ (fn = 1 → (getPort e i).reset = true)
        ∧ ∃ cause, cause < 16 ∧ e.health.recs = s.e.health.recs ++ [(4, cause, 2 ^ 16 * fn + i, frameNo s.e)]

/-- ADMISSION_RESULT, TXN_ACKNOWLEDGE, RESET_FN_COMPLETE and PARAMETER_MIRROR_END end a wait (R261, R263, R271, R273, R267, R268, R475–R477): an admission run sets the registers of Table 2.11
and the transaction's answer; a transaction of no directives for an EARLIEST commit is acknowledged for two frames ahead, or for the frame
requested if that is later, and the commit completes with the frame; a re-initialised function resumes, its directive completes with the
frame and event 0x0B02 is posted; a mirror's data are stored in the half of the region's area that is not active, and MIRROR is clear. Without its
condition each does nothing. Beside these: an admission run on any view, one of a transaction, a transaction of any directives that validates or
is refused, a reset of any function, and a mirror of any data. -/
def Obligations.WaitsEnd : Prop :=
  (∀ (s : State) (k : Nat) (h : Hold), k < 8 → s.e.held = 0 → supUp s.e = true → s.e.ctl.txns = [] → restful k s.e →
      (getRing s.e k).hold = some h → h.op = 0x23 → h.flags = 0 → s.e.ctl.deferred = [] → s.e.ctl.later = [] → (h.words.getD 2 0) = 2 ^ 32 →
      let r := (admitRun s.e (h.graph.getD s.e.sched.edit) (h.words.getD 3 0).toNat).1
    completes (.admissionResult k) s fun e =>
      getF .SCHED_ADM_BOUND_BOUND 0 e = r.b % 2 ^ 32 ∧ completed k (compWord h.tag r.status 0x23 false) (BitVec.ofNat 64 (admResult r)) s.e e
        ∧ e.sched = s.e.sched ∧ e.mix = s.e.mix)
  ∧ (∀ (s : State) (k : Nat) (h : Hold), k < 8 → s.e.held = 0 → supUp s.e = true → txnOfRing s.e k .validating = none → restful k s.e →
      (getRing s.e k).hold = some h → h.op = 0x23 → h.flags / 32 % 4 = 0 →
      let v := viewNext s.e
      let r := (admitRun v (h.graph.getD v.sched.edit) (h.words.getD 3 0).toNat).1
    completes (.admissionResult k) s fun e =>
      getF .SCHED_ADM_BOUND_BOUND 0 e = r.b % 2 ^ 32 ∧ completed k (compWord h.tag r.status 0x23 false) (BitVec.ofNat 64 (admResult r)) s.e e
        ∧ e.sched = s.e.sched ∧ e.mix = s.e.mix)
  ∧ (∀ (s : State) (k : Nat) (t : Txn), k < 8 → s.e.held = 0 → supUp s.e = true → txnOfRing s.e k .validating = some t → hasAdmit t = true →
      t.admitted = none →
    completes (.admissionResult k) s fun e => (∃ u ∈ e.ctl.txns, u.slot = t.slot ∧ u.st = .validating ∧ u.staged = t.staged ∧ u.admitted ≠ none)
        ∧ e.sched = s.e.sched ∧ e.mix = s.e.mix)
  ∧ (∀ (s : State) (k : Nat) (t : Txn) (c : Commit) (h : Hold), k < 8 → s.e.held = 0 → supUp s.e = true → restful k s.e →
      txnOfRing s.e k .validating = some t → t.commit = some c → isFabric c = false → (hasAdmit t = true → t.admitted ≠ none) →
      (getRing s.e k).hold = some h → h.flags / 64 % 2 = 0 →
      let r := validateTxn t c s.e
    completes (.txnAcknowledge k) s fun e => e.sched = s.e.sched ∧ e.mix = s.e.mix
      ∧ (r.1 = 0 → (∃ u ∈ e.ctl.txns, u.slot = t.slot ∧ u.st = .acked ∧ u.apply = r.2.1 ∧ u.staged = t.staged)
        ∧ completed k (compWord h.tag 0 h.op false) (BitVec.ofNat 64 (ackResult t c r.2.1)) s.e e)
      ∧ (r.1 ≠ 0 → (e.ctl.txns.all fun x => x.slot != t.slot) = true ∧ ∃ v : Word64, completed k (compWord h.tag r.1 h.op false) v s.e e))
  ∧ (∀ (s : State) (fn i : Nat) (ok : Bool), (Instr.resetFnComplete fn i ok).wf = true → s.e.held = 0 → resetBusy s.e fn i = true →
    completes (.resetFnComplete fn i ok) s fun e => resetBusy e fn i = false ∧ (ok = true → resetting e fn i = false)
      ∧ (ok = false → resetting e fn i = true))
  ∧ (∀ (s : State) (r : Nat), r < 4 → s.e.held = 0 → bitF .HOST_PARAM_ACT_MIRROR 0 r s.e = true →
    completes (.parameterMirrorEnd r) s fun e => bitF .HOST_PARAM_ACT_MIRROR 0 r e = false
      ∧ e.ctl.mirror = s.e.ctl.mirror.filter (fun m => m.1 != r)
      ∧ (∀ l off bs, s.e.ctl.mirror = l ++ [(r, off, bs)] →
          readBytes e (paramBase s.e r + (1 - paramHalf s.e r) * paramSize s.e r + off) bs.length = bs)
      ∧ onlyFields [.HOST_PARAM_ACT_MIRROR] { s.e with mem := e.mem, ecc := e.ecc, ctl := e.ctl } e)
  ∧ (∀ (s : State) (k : Nat), k < 8 → s.e.held = 0 → supUp s.e = true → s.e.ctl.txns = [] → (getRing s.e k).hold = none →
    completes (.admissionResult k) s (fun e => e = s.e) ∧ completes (.txnAcknowledge k) s fun e => e = s.e)
  ∧ (∀ (s : State) (k n : Nat) (t : Txn) (c : Commit) (h : Hold), k < 8 → s.e.held = 0 → supUp s.e = true → restful k s.e →
      s.e.ctl.txns = [t] → t.ring = k → t.st = .validating → t.staged = [] → t.writes = 0 → t.admitted = none → t.commit = some c → c.op = 0x11 →
      c.w1 = BitVec.ofNat 64 (2 ^ 62) → c.w2 = BitVec.ofNat 64 n → n < 2 ^ 64 → (getRing s.e k).hold = some h → h.op = 0x11 → h.flags = 0 →
      pairActive s.e = false →
    completes (.txnAcknowledge k) s fun e =>
      e.ctl.txns = [{ t with st := .acked, apply := max n (frameNo s.e + 2) }] ∧ getF .HOST_TXN_STAT_ACKED 0 e = 2 ^ t.slot % 2 ^ 8
        ∧ completed k (compWord h.tag 0 0x11 false) (BitVec.ofNat 64 (max n (frameNo s.e + 2))) s.e e ∧ e.mix = s.e.mix ∧ e.sched = s.e.sched)
  ∧ (∀ (s : State) (fn i k : Nat) (h : Hold), k < 8 → s.e.held = 0 → fn = 2 ∨ fn = 3 → restful k s.e → (getRing s.e k).hold = some h →
      h.op = 0x03 → h.flags = 0 →
    (s.e.ctl.resetFn = [] → ∀ ok, completes (.resetFnComplete fn i ok) s fun e => e = s.e)
    ∧ (s.e.ctl.resetFn = [(fn, i, h.tag, k)] →
      completes (.resetFnComplete fn i true) s fun e =>
        e.ctl.resetFn = [] ∧ completed k (compWord h.tag 0 0x03 false) (BitVec.ofNat 64 (frameNo s.e)) s.e e
          ∧ (s.e.ctl.lost = 0 → evFree s.e = true → tget 0 e.ctl.used 8 = tget 0 s.e.ctl.used 8 + 1)))
  ∧ ∀ (s : State) (r : Nat), r < 4 → s.e.held = 0 →
    (bitF .HOST_PARAM_ACT_MIRROR 0 r s.e = false → completes (.parameterMirrorEnd r) s fun e => e = s.e)
    ∧ ∀ (off : Nat) (bs : List Byte), bitF .HOST_PARAM_ACT_MIRROR 0 r s.e = true → s.e.ctl.mirror = [(r, off, bs)] →
      let a := paramBase s.e r + (1 - paramHalf s.e r) * paramSize s.e r + off
      completes (.parameterMirrorEnd r) s fun e =>
        readBytes e a bs.length = bs ∧ (∀ b, b < a ∨ a + bs.length ≤ b → readByte e b = readByte s.e b) ∧ e.ctl.mirror = []
          ∧ bitF .HOST_PARAM_ACT_MIRROR 0 r e = false ∧ onlyFields [.HOST_PARAM_ACT_MIRROR] { s.e with mem := e.mem, ecc := e.ecc, ctl := e.ctl } e

/-- What a record of a directive does when it applies (R257, R261, R262, R264–R269, R275, R508): DEF_ITEM, LINK and ALIGN change the edit graph
and leave the admitted one; LOAD_PROG stores its bundles in a healthy cell; ROUTE starts the change on a steady sink, and FALLBACK sets its
fallback; SET_GAIN and SET_GAIN_DB set the host target; SET_SEND appends to the edit list; METER_CFG, LOUD_CFG, AUTOMIX_CFG, MINUS_CFG and
GEN_CFG set their entries; SCENE_DELETE removes the scene unless it was stored after it. -/
def Obligations.DirectivesApply : Prop :=
  (∀ (x : Staged) (w : Nat) (r : List Word64) (e : Engine),
    (x.op = 0x21 ∨ x.op = 0x22 ∨ x.op = 0x32 → (applyRec x w r e).sched.adm = e.sched.adm ∧ (applyRec x w r e).mix = e.mix ∧ (applyRec x w r e).mem = e.mem)
    ∧ (x.op = 0x21 → bits (rec0 r) 63 62 = 0 → dValid (quadOf r) = true →
        tget Quad.zero (applyRec x w r e).sched.edit.items (bits (rec0 r) 13 0) = quadOf r)
    ∧ (x.op = 0x21 → bits (rec0 r) 63 62 ≠ 0 → tget none (applyRec x w r e).sched.edit.xfers (bits (rec0 r) 12 0) = some (quadOf r))
    ∧ (x.op = 0x22 → tget none (applyRec x w r e).sched.edit.succs (bits (rec0 r) 11 0)
        = some ⟨linkIdx r, if bit (rec0 r) 22 then some (bits (rec0 r) 43 32) else none⟩)
    ∧ (x.op = 0x32 → tget 0 (applyRec x w r e).sched.edit.align (bits (rec0 r) 55 48) = bits (rec0 r) 47 46)
    ∧ (x.op = 0xB2 → tget none (applyRec x w r e).ctl.scenes (bits (rec1 r) 11 0)
        = match tget none e.ctl.scenes (bits (rec1 r) 11 0) with | some c => if c.n < x.n then none else some c | none => none)
    ∧ (x.op = 0xC0 → (applyRec x w r e).mix.ranges = (r.drop 4).map fun v => (bits v 63 48, bits v 47 32)))
  ∧ (∀ (x : Staged) (w c : Nat) (r : List Word64) (e : Engine), x.op = 0x20 → healthyCells e (bits (rec1 r) 31 0) = [c] →
      let bs := wordBytes (r.drop 3)
      let a := 0x100000 * c + 0x30000 + 16 * bits (r.getD 2 0) 27 16
      readBytes (applyRec x w r e) a bs.length = bs ∧ ∀ b, b < a ∨ a + bs.length ≤ b → readByte (applyRec x w r e) b = readByte e b)
  ∧ (∀ (x : Staged) (w : Nat) (r : List Word64) (e : Engine), x.op = 0x30 → isStrip (bits (rec0 r) 63 48) = false →
      let t := bits (rec0 r) 63 48
      let k := getSink e t
      let q := bits (rec0 r) 47 32
      k.st = .steady → q ≠ k.cur →
      (bits (rec0 r) 31 29 = 0 → (getSink (applyRec x w r e) t).st = .zcwait ∧ (getSink (applyRec x w r e) t).cur = k.cur)
        ∧ (bits (rec0 r) 31 29 ≠ 0 → (getSink (applyRec x w r e) t).st = .fade ∧ (getSink (applyRec x w r e) t).out = k.cur
          ∧ (getSink (applyRec x w r e) t).cur = q)
        ∧ ∀ u, u ≠ t → getSink (applyRec x w r e) u = getSink e u)
  ∧ (∀ (x : Staged) (w : Nat) (r : List Word64) (e : Engine), x.op = 0x31 → (getSink e (bits (rec0 r) 63 48)).st = .steady →
      let t := bits (rec0 r) 63 48
      (getSink (applyRec x w r e) t).fb = bits (rec0 r) 47 32 ∧ (getSink (applyRec x w r e) t).revert = bit (rec0 r) 31
        ∧ (getSink (applyRec x w r e) t).concN = bits (rec0 r) 30 27 ∧ (getSink (applyRec x w r e) t).cur = (getSink e t).cur)
  ∧ (∀ (x : Staged) (w : Nat) (r : List Word64) (e : Engine),
      (x.op = 0x40 → isSendGp (gpOf r) = false →
        let p := getGp (applyRec x w r e) (gpOf r)
        p.h = bits (rec0 r) 31 0 ∧ p.timeout = bits (rec1 r) 47 40 ∧ p.ramp = bits (rec1 r) 39 29 ∧ p.g = (getGp e (gpOf r)).g)
      ∧ (x.op = 0x41 → bits (rec0 r) 15 0 = 0 → (getGp (applyRec x w r e) (gpOf r)).h = 0x10000000)
      ∧ (x.op = 0x41 → bits (rec0 r) 15 0 = 0x8000 → (getGp (applyRec x w r e) (gpOf r)).h = 0)
      ∧ (x.op = 0x42 → bits (rec0 r) 34 33 = 1 →
          tget [] (applyRec x w r e).sched.edit.sends (bits (rec0 r) 63 56) = tget [] e.sched.edit.sends (bits (rec0 r) 63 56) ++ [rec1 r]
            ∧ (applyRec x w r e).sched.adm = e.sched.adm))
  ∧ ∀ (x : Staged) (w : Nat) (r : List Word64) (e : Engine),
      (x.op = 0xC1 → bit (rec0 r) 57 = false → tget none (applyRec x w r e).mix.louds (bits (rec0 r) 63 58) = none)
      ∧ (x.op = 0xC2 → bits (rec0 r) 63 62 = 1 → bit (rec0 r) 56 = true → tget none (applyRec x w r e).mix.groups (bits (rec0 r) 61 57)
          = some ⟨bits (rec0 r) 55 48, bits (rec0 r) 47 40, bits (rec0 r) 39 32⟩)
      ∧ (x.op = 0xC3 → bits (rec0 r) 63 62 = 1 → bit (rec0 r) 31 = true →
          ∃ f, tget none (applyRec x w r e).mix.feeds (bits (rec0 r) 61 54) = some f ∧ f.bus = bits (rec0 r) 53 46 ∧ f.excl = bits (rec0 r) 45 32
            ∧ f.gp = bits (rec0 r) 20 0)
      ∧ (x.op = 0xC4 → bits (rec0 r) 58 56 ≠ 0 →
          ∃ g, tget none (applyRec x w r e).mix.gens (bits (rec0 r) 63 59) = some g ∧ g.on = true ∧ g.mode = bits (rec0 r) 58 56
            ∧ g.level = bits (rec0 r) 55 40 ∧ g.inc = bits (rec0 r) 31 0)

/-- The commands of a change across the fabric (R279–R282): PREPARE, PREPARED, FABRIC_PREPARE_DEADLINE, ALL_PREPARED, ABORT, IN_DOUBT_ENTRY,
IN_DOUBT_TIMEOUT and LATE_APPLY_REPORT. A participant without such a part refuses, and one whose part validates at frame p is prepared for it and says
so; a refusal, or a node unreached at the tick of p − 2, makes the coordinator drop the change and answer 0x0702 or 0x0701 with the node; a
prepared part is acknowledged by ALL_PREPARED in time, two frames ahead when that comes late, and in doubt from the tick of p − 1 on; in doubt it
is discarded with event 0x0405 when no participant applied, and else applies; an aborted part with event 0x0402; a late apply is reported to the
coordinator's host by event 0x0404. -/
def Obligations.FabricChangesAgree : Prop :=
  (∀ (s : State) (id p src : Nat), src < 64 → s.e.held = 0 → supUp s.e = true →
    (fabricTxn s.e id = none →
      completes (.prepare id p src) s fun e =>
        (∃ st, st ≠ 0 ∧ ∃ m, e.fab.out = s.e.fab.out ++ [m] ∧ m.dest = src ∧ m.body = .prepared id st) ∧ e.ctl = s.e.ctl ∧ e.regs = s.e.regs)
    ∧ ∀ (t : Txn) (c : Commit), fabricTxn s.e id = some (t, c) → t.st = .validating → hasAdmit t = false →
      let n := ((p : Int) - frameOfs s.e).toNat
      let r := validateAt t (some n) n false s.e
      completes (.prepare id p src) s fun e => (∃ m, e.fab.out = s.e.fab.out ++ [m] ∧ m.dest = src ∧ m.body = .prepared id r.1)
        ∧ (r.1 = 0 → ∃ u ∈ e.ctl.txns, u.slot = t.slot ∧ u.st = .prepared ∧ u.apply = n ∧ u.staged = t.staged)
        ∧ (r.1 ≠ 0 → (e.ctl.txns.all fun x => x.slot != t.slot) = true))
  ∧ (∀ (s : State) (id node st : Nat) (c : Coord), node < 64 → s.e.held = 0 → supUp s.e = true → tget none s.e.ctl.coords id = some c → c.done = false →
      c.mask / 2 ^ node % 2 = 1 →
    (st ≠ 0 → completes (.prepared id node st) s fun e => tget none e.ctl.coords id = none)
    ∧ (st = 0 → (∃ a, a < 64 ∧ a ≠ node ∧ c.mask / 2 ^ a % 2 = 1 ∧ c.prepared / 2 ^ a % 2 = 0) →
      completes (.prepared id node st) s fun e => ∃ d, tget none e.ctl.coords id = some d ∧ d.prepared = setBit c.prepared node true ∧ d.done = false
        ∧ e.fab = s.e.fab)
    ∧ (c.prepared / 2 ^ node % 2 = 0 → ¬ fabFrame s.e < (c.p : Int) - 2 →
      completes (.fabricPrepareDeadline id node) s fun e => tget none e.ctl.coords id = none)
    ∧ (fabFrame s.e < (c.p : Int) - 2 → completes (.fabricPrepareDeadline id node) s fun e => e = s.e))
  ∧ (∀ (s : State) (id : Nat) (t : Txn) (c : Commit), s.e.held = 0 → supUp s.e = true → fabricTxn s.e id = some (t, c) → s.e.ctl.txns = [t] →
      pairActive s.e = false →
    (t.st = .prepared → t.staged = [] → frameNo s.e + 1 < t.apply →
      completes (.allPrepared id) s fun e => e.ctl.txns = [{ t with st := .acked }] ∧ getF .HOST_TXN_STAT_ACKED 0 e = 2 ^ t.slot % 2 ^ 8)
    ∧ (t.st = .prepared → isCoord c = false →
      completes (.inDoubtEntry id) s fun e => e.ctl.txns = [if t.apply ≤ frameNo s.e + 1 then { t with st := .doubt } else t])
    ∧ (t.st = .doubt →
      completes (.inDoubtTimeout id false) s fun e => e.ctl.txns = [] ∧ getF .HOST_TXN_STAT_USED 0 e = 0 ∧ e.mix = s.e.mix ∧ e.sched = s.e.sched)
    ∧ (isCoord c = false → t.st = .prepared ∨ t.st = .doubt →
      completes (.abort id) s fun e => e.ctl.txns = [] ∧ getF .HOST_TXN_STAT_USED 0 e = 0 ∧ e.mix = s.e.mix ∧ e.sched = s.e.sched))
  ∧ (∀ (s : State) (id : Nat) (t : Txn) (c : Commit), s.e.held = 0 → supUp s.e = true → fabricTxn s.e id = some (t, c) →
    (t.st = .prepared → frameNo s.e + 1 < t.apply →
      completes (.allPrepared id) s fun e => (∃ u ∈ e.ctl.txns, u.slot = t.slot ∧ u.st = .acked ∧ u.apply = t.apply ∧ u.staged = t.staged)
        ∧ e.mix = s.e.mix ∧ e.sched = s.e.sched)
    ∧ (t.st = .doubt ∨ t.st = .prepared ∧ t.apply ≤ frameNo s.e + 1 →
      completes (.allPrepared id) s fun e =>
        ∃ u ∈ e.ctl.txns, u.slot = t.slot ∧ u.st = .acked ∧ u.apply = frameNo s.e + 2 ∧ u.late = some (frameNo s.e + 2 - t.apply))
    ∧ (t.st = .prepared → isCoord c = false → t.apply ≤ frameNo s.e + 1 →
      completes (.inDoubtEntry id) s fun e => ∃ u ∈ e.ctl.txns, u.slot = t.slot ∧ u.st = .doubt ∧ u.staged = t.staged)
    ∧ (t.st = .doubt →
      completes (.inDoubtTimeout id false) s (fun e => e.ctl.txns = s.e.ctl.txns.filter (fun x => x.slot != t.slot) ∧ e.mix = s.e.mix
        ∧ e.sched = s.e.sched)
      ∧ completes (.inDoubtTimeout id true) s fun e => ∃ u ∈ e.ctl.txns, u.slot = t.slot ∧ u.st = .acked ∧ u.apply = frameNo s.e + 2)
    ∧ (isCoord c = false →
      completes (.abort id) s fun e => (e.ctl.txns.all fun x => x.slot != t.slot) = true ∧ e.mix = s.e.mix ∧ e.sched = s.e.sched))
  ∧ ∀ (s : State) (id node k : Nat), node < 64 → s.e.held = 0 → supUp s.e = true →
    (tget none s.e.ctl.coords id = none → completes (.lateApplyReport id node k) s fun e => e = s.e)
    ∧ ((tget none s.e.ctl.coords id).isSome = true →
      completes (.lateApplyReport id node k) s fun e => e = postEvent 0x0404 [2 ^ 32 * (id % 2 ^ 32) + k % 256 * 256 + node] s.e)
/-! ### Audio ports and references (chapters 9 and 10) -/

/-- PORT_WORD_CAPTURE, AES3_SUBFRAME, CHANNEL_STATUS_BLOCK, QUALIFICATION, CLOCK_STOP_DETECT, GLITCH, RATE_MISMATCH, ELASTIC_OVERRUN and START_SYNC_EDGE
(R286, R293, R294, R297, R300, R301, R305–R308): a captured word waits MSB-justified for its commit; a subframe with a parity error repeats the
last word and counts; a block whose CRCC fails counts and changes no status; a clock qualifies its port, and one that stops, glitches or leaves the range disqualifies
it; a port in RUN records what the next tick takes up; an edge turns the triggers that wait for it into the frame two ahead, or three
when it came late in the frame. -/
def Obligations.PortsCapture : Prop :=
  (∀ (s : State) (p ch w t : Nat) (th : Int), p < 60 → ch < 64 → (w < 2 ^ 32 ∨ 32 ≤ p ∧ p < 40 ∧ w < 2 ^ 128) → s.e.held = 0 →
    (portRuns s.e p = false ∨ portChans s.e p ≤ ch → completes (.portWordCapture p ch w th t) s fun e => e = s.e)
    ∧ (portRuns s.e p = true → ch < portChans s.e p →
      let i := portBase p + ch
      let x := if portKind p = 1 then (pdmSample p ch w s.e).1 else if portKind p = 3 ∧ w.testBit 24 = true then 0
        else BitVec.ofNat 32 (w % 2 ^ portBits s.e p * 2 ^ (32 - portBits s.e p))
      let late := (domOfPort s.e p).1 == 2 && lastTwo s.e t
      let lost := (getPort s.e p).overran
      completes (.portWordCapture p ch w th t) s fun e =>
        tget [] e.mix.fifo i = tget [] s.e.mix.fifo i ++ (if lost || late then [] else [x])
          ∧ tget [] e.mix.fifoNext i = tget [] s.e.mix.fifoNext i ++ (if !lost && late then [x] else [])
          ∧ (∀ j, j ≠ i → tget [] e.mix.fifo j = tget [] s.e.mix.fifo j ∧ tget [] e.mix.fifoNext j = tget [] s.e.mix.fifoNext j)
          ∧ onlyFields [.PORT_STAT_THETA] { s.e with mix := e.mix, ports := e.ports } e)
    ∧ (p < 16 → ch < 2 → portEn s.e (0x28 + p) = true →
      ∀ (perr v : Bool), completes (.aes3Subframe p ch w perr v th t) s fun e =>
        let i := portBase (0x28 + p) + ch
        (portRuns s.e (0x28 + p) = true → (domOfPort s.e (0x28 + p)).1 ≠ 2 → (getPort s.e (0x28 + p)).overran = false →
          tget [] e.mix.fifo i = tget [] s.e.mix.fifo i ++ [if perr then tget 0 s.e.ports.capLast i else BitVec.ofNat 32 (w % 2 ^ 24 * 2 ^ 8)])
          ∧ (portRuns s.e (0x28 + p) = false → e.mix = s.e.mix)
          ∧ getF (if ch = 0 then .PORT_AESSTAT_VA else .PORT_AESSTAT_VB) p e = v.toNat
          ∧ getF .PORT_AESSTAT_PARERR p e
            = min (getF .PORT_AESSTAT_PARERR p s.e + perr.toNat) (2 ^ Fld.PORT_AESSTAT_PARERR.width - 1) ∧ e.mem = s.e.mem))
  ∧ (∀ (s : State) (n sub : Nat) (bs : List Byte), n < 16 → sub < 2 → bs.length = 24 → s.e.held = 0 → portEn s.e (0x28 + n) = true →
    completes (.channelStatusBlock n sub bs false) s (fun e =>
      getF .PORT_AESSTAT_CRCERR n e = min (getF .PORT_AESSTAT_CRCERR n s.e + 1) (2 ^ Fld.PORT_AESSTAT_CRCERR.width - 1)
        ∧ (∀ i, getF .PORT_AESCS_CS i e = getF .PORT_AESCS_CS i s.e) ∧ e.ports = s.e.ports ∧ e.mix = s.e.mix)
    ∧ completes (.channelStatusBlock n 1 bs true) s (fun e => tget [] e.ports.csB n = bs ∧ (∀ i, getF .PORT_AESCS_CS i e = getF .PORT_AESCS_CS i s.e))
    ∧ completes (.channelStatusBlock n 0 bs true) s fun e => (∀ w, w < 6 → getF .PORT_AESCS_CS (8 * n + w) e = leNat ((bs.drop (4 * w)).take 4))
      ∧ getF .PORT_AESSTAT_CRCERR n e = getF .PORT_AESSTAT_CRCERR n s.e)
  ∧ (∀ (s : State) (p : Nat) (ofs : Int), p < 60 → s.e.held = 0 →
    (measured s.e p = false →
      completes (.qualification p ofs) s (fun e => e = s.e) ∧ completes (.clockStopDetect p) s (fun e => e = s.e)
        ∧ completes (.glitch p) s (fun e => e = s.e) ∧ completes (.rateMismatch p ofs) s fun e => e = s.e)
    ∧ (measured s.e p = true →
      ((domOfPort s.e p).1 = 2 ∨ ofs.natAbs ≤ 10000 → completes (.qualification p ofs) s fun e =>
        getF .PORT_STAT_QUALD p e = 1 ∧ getF .PORT_STAT_RATEOFS p e = satField 16 ofs % 2 ^ 16 ∧ e.mem = s.e.mem ∧ e.ports = s.e.ports)
      ∧ ((domOfPort s.e p).1 ≠ 2 → 10000 < ofs.natAbs → completes (.qualification p ofs) s fun e => e = s.e)
      ∧ completes (.clockStopDetect p) s (fun e => getF .PORT_STAT_QUALD p e = 0
          ∧ (portRuns s.e p = true → (getPort s.e p).stop = false → (getPort e p).stop = true ∧ ∀ i ∈ portSrcs s.e p, isLost e i = true)
          ∧ (portRuns s.e p = false → e.ports = s.e.ports ∧ e.mix = s.e.mix))
      ∧ completes (.glitch p) s (fun e => getF .PORT_STAT_QUALD p e = 0 ∧ onlyFields [.PORT_STAT_QUALD] { s.e with ports := e.ports } e
          ∧ if portRuns s.e p then (getPort e p).glitch = true else e.ports = s.e.ports)
      ∧ completes (.rateMismatch p ofs) s fun e => getF .PORT_STAT_RATEOFS p e = satField 16 ofs % 2 ^ 16
          ∧ ((domOfPort s.e p).1 ≠ 2 → 10000 < ofs.natAbs → if portRuns s.e p then (getPort e p).mism = some ofs else getF .PORT_STAT_QUALD p e = 0)))
  ∧ (∀ (s : State) (p : Nat), p < 60 → s.e.held = 0 →
    (portRuns s.e p = true → hasTheta s.e p = true →
      completes (.elasticOverrun p true) s (fun e => (getPort e p).overran = true ∧ e.regs = s.e.regs ∧ e.mix = s.e.mix)
        ∧ completes (.elasticOverrun p false) s fun e => (getPort e p).under = true ∧ e.regs = s.e.regs ∧ e.mix = s.e.mix)
    ∧ (portRuns s.e p = false ∨ hasTheta s.e p = false → ∀ b, completes (.elasticOverrun p b) s fun e => e = s.e))
  ∧ ∀ (s : State) (rising later : Bool) (i : Nat), i < 8 → s.e.held = 0 →
    completes (.startSyncEdge rising later) s fun e =>
      ((getGroup s.e i).start = some (.sync rising) → (getGroup e i).start = some (.frame (frameNo s.e + if later then 3 else 2)))
        ∧ ((getGroup s.e i).start = none → (getGroup e i).start = none)
        ∧ (∀ n, (getGroup s.e i).stop = some (.frame n) → (getGroup e i).stop = some (.frame n))
        ∧ (let n := frameNo s.e + if later then 3 else 2
          getGroup e i = { getGroup s.e i with start := syncTrig rising n (getGroup s.e i).start, stop := syncTrig rising n (getGroup s.e i).stop }) ∧ e.regs = s.e.regs ∧ e.mem = s.e.mem

/-- LOSS_OF_SIGNAL, REFERENCE_SIGNAL_RETURN, FREQUENCY_MEASUREMENT, SOFT_ALARM_CLEAR and WTR_EXPIRY (R320–R323): an enabled reference that goes is neither present, qualified
nor eligible, and LOSS records it; one that comes back is present; each gate shows its offset, and beyond SOFT and HARD
raises the alarms, beyond HARD also disqualifying the slot; a PTP slot is not lost by the gap of a supervisor restart; the soft alarm clears within its limits; and the wait-to-restore ends. -/
def Obligations.ReferencesAreMonitored : Prop :=
  ∀ (s : State) (n : Nat) (ofs : Int), n < 8 → s.e.held = 0 →
    (refEn s.e n = true → isF .CLK_REFSTAT_PRESENT n s.e = true →
      (refType s.e n ≠ 4 ∨ supUp s.e = true → completes (.lossOfSignal n) s (fun e => getF .CLK_REFSTAT_PRESENT n e = 0 ∧ getF .CLK_REFSTAT_LOSS n e = 1 ∧ getF .CLK_REFSTAT_QUAL n e = 0
        ∧ getF .CLK_REFSTAT_ELIG n e = 0 ∧ (∀ m, m ≠ n → getF .CLK_REFSTAT_QUAL m e = getF .CLK_REFSTAT_QUAL m s.e) ∧ (getF .CLK_STAT_STATE 0 s.e = 1 → getF .CLK_STAT_SEL 0 s.e = n → getF .CLK_STAT_STATE 0 e = if s.e.clk.hist = [] then 0 else 2)))
      ∧ (refType s.e n = 4 → supUp s.e = false → completes (.lossOfSignal n) s fun e => e = s.e)
      ∧ (ofs.natAbs < 2 ^ 31 →
        completes (.frequencyMeasurement n ofs) s fun e => getF .CLK_REFOFS_OFS n e = (ofs % 2 ^ 32).toNat
          ∧ (1000 * getF .CLK_DRIFT_SOFT 0 s.e < ofs.natAbs → getF .CLK_REFSTAT_SOFT n e = 1)
          ∧ (1000 * getF .CLK_DRIFT_HARD 0 s.e < ofs.natAbs → getF .CLK_REFSTAT_HARDS n e = 1 ∧ getF .CLK_REFSTAT_QUAL n e = 0)))
    ∧ (refEn s.e n = false ∨ isF .CLK_REFSTAT_PRESENT n s.e = false →
      completes (.lossOfSignal n) s (fun e => e = s.e) ∧ completes (.frequencyMeasurement n ofs) s fun e => e = s.e)
    ∧ (refEn s.e n = true → isF .CLK_REFSTAT_PRESENT n s.e = false → receiverOff s.e n = false →
      completes (.referenceSignalReturn n) s fun e => getF .CLK_REFSTAT_PRESENT n e = 1 ∧ getF .CLK_STAT_STATE 0 e = getF .CLK_STAT_STATE 0 s.e)
    ∧ ((signed 32 (getF .CLK_REFOFS_OFS n s.e)).natAbs ≤ 1000 * (getF .CLK_DRIFT_SOFT 0 s.e - 2) →
        driftOver (getSlot s.e n).ofs (getF .CLK_DRIFT_RATE 0 s.e) = false → isF .CLK_REFSTAT_SOFT n s.e = true →
      completes (.softAlarmClear n) s fun e => getF .CLK_REFSTAT_SOFT n e = 0 ∧ getF .CLK_STAT_STATE 0 e = getF .CLK_STAT_STATE 0 s.e)
    ∧ (isF .CLK_REFSTAT_SOFT n s.e = false → completes (.softAlarmClear n) s fun e => e = s.e)
    ∧ ((getSlot s.e n).waiting = false → completes (.wtrExpiry n) s fun e => e = s.e)
    ∧ ((getSlot s.e n).waiting = true → refQual s.e n = true →
      completes (.wtrExpiry n) s fun e => (getSlot e n).waiting = false ∧ getF .CLK_REFSTAT_WTRREM n e = 0)

/-- SELECTION_RUN, HOLD_PHASE_END, ACQ_END, ACQ_TIMEOUT, ALIGN_END, DWELL_END and HOLDOVER_HISTORY_RECORD (R324–R331): a forced free run or holdover is entered at the
next selection run; a transition passes from HOLD over ACQ and ALIGN to DWELL and ends LOCKED on its target; build-out stores the offset
that ACQ ends with and slew runs it off; an acquisition that times out ends the transition; and each second of LOCKED joins the
holdover history, within ±100 ppm; without a forced state the best candidate becomes the target, or PENDING while a transition runs. No
change of state steps the frequency: it moves to its goal. Outside its phase each of them does nothing. -/
def Obligations.TransitionsEndLocked : Prop :=
  (∀ s : State, s.e.held = 0 →
    (supUp s.e = false → completes .selectionRun s fun e => e = s.e)
    ∧ (supUp s.e = true → getF .CLK_SEL_MODE 0 s.e = 3 → getF .CLK_STAT_STATE 0 s.e ≠ 0 →
      completes .selectionRun s fun e => getF .CLK_STAT_STATE 0 e = 0 ∧ getF .CLK_STAT_SELV 0 e = 0 ∧ getF .CLK_STAT_PENDV 0 e = 0
        ∧ e.clk.goal = some (clampFreq (signed 24 (getF .CLK_OSC_TRIM 0 s.e))) ∧ getF .CLK_FREQ_FREQ 0 e = getF .CLK_FREQ_FREQ 0 s.e)
    ∧ (supUp s.e = true → getF .CLK_SEL_MODE 0 s.e = 3 ∧ getF .CLK_STAT_STATE 0 s.e = 0 ∨ getF .CLK_SEL_MODE 0 s.e = 2 ∧ getF .CLK_STAT_STATE 0 s.e = 2 →
      completes .selectionRun s fun e => getF .CLK_STAT_STATE 0 e = (if getF .CLK_SEL_MODE 0 s.e = 3 then 0 else if s.e.clk.hist = [] then 0 else 2))
    ∧ (supUp s.e = true → getF .CLK_SEL_MODE 0 s.e = 2 → s.e.clk.hist = [] →
      completes .selectionRun s fun e => getF .CLK_STAT_STATE 0 e = 0 ∧ getF .CLK_STAT_SELV 0 e = 0)
    ∧ (supUp s.e = true → getF .CLK_SEL_MODE 0 s.e < 2 →
      let e0 := allSlots.foldl evalSlot s.e
      let hold := if s.e.clk.hist = [] then 0 else 2
      let stays := getF .CLK_STAT_STATE 0 s.e = 3 ∧ refQual e0 (selSlot s.e) = true
      (stays → completes .selectionRun s fun e => getF .CLK_STAT_STATE 0 e = 3 ∧ getF .CLK_STAT_PHASE 0 e = getF .CLK_STAT_PHASE 0 s.e
        ∧ selSlot e = selSlot s.e ∧ (bestSlot e0 = none ∨ bestSlot e0 = some (selSlot s.e) → getF .CLK_STAT_PENDV 0 e = 0)
        ∧ ∀ m, m < 8 → m ≠ selSlot s.e → bestSlot e0 = some m → getF .CLK_STAT_PENDV 0 e = 1 ∧ getF .CLK_STAT_PENDING 0 e = m)
      ∧ (¬stays → bestSlot e0 = none → completes .selectionRun s fun e =>
        getF .CLK_STAT_STATE 0 e = (if getF .CLK_STAT_STATE 0 s.e = 1 ∨ getF .CLK_STAT_STATE 0 s.e = 3 then hold else getF .CLK_STAT_STATE 0 s.e))
      ∧ ∀ m, m < 8 → ¬stays → bestSlot e0 = some m →
        (getF .CLK_STAT_STATE 0 s.e = 1 → selSlot s.e = m → completes .selectionRun s fun e => getF .CLK_STAT_STATE 0 e = 1
          ∧ selSlot e = m ∧ getF .CLK_STAT_PENDV 0 e = 0)
        ∧ (getF .CLK_STAT_STATE 0 s.e ≠ 1 ∨ selSlot s.e ≠ m → completes .selectionRun s fun e => getF .CLK_STAT_STATE 0 e = 3
          ∧ getF .CLK_STAT_PHASE 0 e = 0 ∧ selSlot e = m ∧ getF .CLK_STAT_SELV 0 e = 1 ∧ e.clk.plan = planFor s.e m))
    ∧ (supUp s.e = true → getF .CLK_SEL_MODE 0 s.e = 2 → s.e.clk.hist ≠ [] → getF .CLK_STAT_STATE 0 s.e ≠ 2 →
      completes .selectionRun s fun e => getF .CLK_STAT_STATE 0 e = 2 ∧ getF .CLK_STAT_SELV 0 e = 0
        ∧ getF .CLK_HOFREQ_HOFREQ 0 e = satField 32 (holdFreq s.e.clk.hist) % 2 ^ 32))
  ∧ (∀ (s : State) (phi : Int), s.e.held = 0 → getF .CLK_STAT_STATE 0 s.e = 3 →
    (getF .CLK_STAT_PHASE 0 s.e = 0 →
      completes .holdPhaseEnd s fun e => getF .CLK_STAT_PHASE 0 e = 1 ∧ onlyFields [.CLK_STAT_PHASE] { s.e with free := e.free, clk := e.clk } e
        ∧ ∃ g, e.clk.goal = some g ∧ -100000000 ≤ g ∧ g ≤ 100000000)
    ∧ (getF .CLK_STAT_PHASE 0 s.e = 1 →
      completes (.acqEnd phi) s (fun e => getF .CLK_STAT_PHASE 0 e = 2 ∧ getF .CLK_STAT_STATE 0 e = 3
        ∧ (let q := s.e.clk.plan
          let φ := alignPhase s.e phi
          let far := q.ty = 4 ∧ 1000000000 < φ.natAbs
          (q.build = true ∨ far → getF .CLK_BUILDOUT_BUILDOUT 0 e = satField 32 φ % 2 ^ 32 ∧ getF .CLK_PHERR_PHERR 0 e = 0
            ∧ getFreq e = clampFreq e.clk.target)
          ∧ (far → e.ptp.rewrite = some (roundDiv (2 ^ 32 * φ) 1000))
          ∧ (q.build = false → ¬far → getF .CLK_BUILDOUT_BUILDOUT 0 e = 0 ∧ getF .CLK_PHERR_PHERR 0 e = satField 32 φ % 2 ^ 32
            ∧ getFreq e = clampFreq (e.clk.target + 1000000 * (if φ = 0 then 0 else if 0 < φ then (q.slew : Int) else -(q.slew : Int))))))
      ∧ completes .acqTimeout s fun e => getF .CLK_STAT_STATE 0 e = (if s.e.clk.hist = [] then 0 else 2) ∧ getF .CLK_STAT_SELV 0 e = 0)
    ∧ (getF .CLK_STAT_PHASE 0 s.e = 2 →
      completes .alignEnd s fun e => getF .CLK_STAT_PHASE 0 e = 3 ∧ onlyFields [.CLK_STAT_PHASE, .CLK_FREQ_FREQ, .CLK_PHERR_PHERR] { s.e with free := e.free, clk := e.clk } e
        ∧ getFreq e = clampFreq s.e.clk.target ∧ (signed 32 (getF .CLK_PHERR_PHERR 0 e)).natAbs ≤ lockWindow s.e.clk.plan.ty)
    ∧ (getF .CLK_STAT_PHASE 0 s.e = 3 →
      completes .dwellEnd s fun e => getF .CLK_STAT_STATE 0 e = 1 ∧ getF .CLK_STAT_SELV 0 e = 1 ∧ getF .CLK_STAT_SEL 0 e = getF .CLK_STAT_SEL 0 s.e))
  ∧ (∀ (s : State) (phi : Int), s.e.held = 0 →
    (phaseIn s.e 0 = false → completes .holdPhaseEnd s fun e => e = s.e)
    ∧ (phaseIn s.e 1 = false → completes (.acqEnd phi) s (fun e => e = s.e) ∧ completes .acqTimeout s fun e => e = s.e)
    ∧ (phaseIn s.e 2 = false → completes .alignEnd s fun e => e = s.e)
    ∧ (phaseIn s.e 3 = false → completes .dwellEnd s fun e => e = s.e))
  ∧ ∀ (s : State) (f : Int), s.e.held = 0 →
    (getF .CLK_STAT_STATE 0 s.e ≠ 1 → completes (.holdoverHistoryRecord f) s fun e => e = s.e)
    ∧ (getF .CLK_STAT_STATE 0 s.e = 1 →
      let g := if refType s.e (selSlot s.e) = 4 ∧ supUp s.e = false then getFreq s.e else clampFreq f
      completes (.holdoverHistoryRecord f) s fun e =>
        e.clk.hist = (g :: s.e.clk.hist).take 61 ∧ getF .CLK_STAT_HOSEC 0 e = min 60 (s.e.clk.hist.length + 1)
          ∧ getF .CLK_STAT_HOVALID 0 e = (if 59 ≤ s.e.clk.hist.length then 1 else 0) ∧ getF .CLK_FREQ_FREQ 0 e = satField 32 (clampFreq g) % 2 ^ 32
          ∧ onlyFields [.CLK_FREQ_FREQ, .CLK_STAT_HOVALID, .CLK_STAT_HOSEC] { s.e with clk := e.clk } e)
/-! ### Network media and time (chapter 11) -/

/-- STREAM_LOSS, STREAM_RECOVERY, PATH_LOSS, MEDIA_PACKET_LAUNCH, ETH_LINK_CHANGE, ETH_FRAME_RECEIVE and HOST_TRANSMIT_ENTRY (R346–R353, R369): a stream without
packets is lost, all its sources with it, and its recovery waits for the tick; the loss of one of two paths shows in PATHS; the packet
that leaves on a port is the first of its schedule, at its scheduled start, framed as Table 11.5 says, its sequence number one further, and
stays off the wire of a muted member; a link that drops is recorded; a received frame goes to its stream, to the host or to the counter of
drops; and a host frame starts when R343 and its share let it, late, held or timed out by its launch time. -/
def Obligations.StreamsAreWatched : Prop :=
  (∀ (s : State) (n : Nat) (x : RxS), n < 512 → s.e.held = 0 → getRx s.e n = some x →
    (getF .NET_RXSTAT_STATE n s.e ≠ 3 →
      completes (.streamLoss n) s (fun e => getF .NET_RXSTAT_STATE n e = 3 ∧ getF .NET_RXSTAT_PATHS n e = 0
        ∧ (∀ c ∈ recSignals x.rec_, isLost e c = true) ∧ (∀ m, m ≠ n → getRx e m = getRx s.e m))
      ∧ completes (.streamRecovery n) s fun e => e = s.e)
    ∧ (getF .NET_RXSTAT_STATE n s.e = 3 →
      completes (.streamLoss n) s (fun e => e = s.e)
      ∧ completes (.streamRecovery n) s fun e => getRx e n = some { x with recover := true } ∧ e.regs = s.e.regs ∧ e.mem = s.e.mem
        ∧ ∀ m, m ≠ n → getRx e m = getRx s.e m)
    ∧ ∀ (q : Nat) (lost : Bool), q < 2 → recPath x.rec_ 0 = true → recPath x.rec_ 1 = true →
      (bitF .NET_RXSTAT_PATHS n q s.e = lost → completes (.pathLoss n q lost) s fun e => bitF .NET_RXSTAT_PATHS n q e = !lost ∧ e.net = s.e.net)
      ∧ (bitF .NET_RXSTAT_PATHS n q s.e = !lost → completes (.pathLoss n q lost) s fun e => e = s.e))
  ∧ (∀ (s : State) (n q : Nat), n < 512 → q < 2 → s.e.held = 0 →
    (getTx s.e n = none → completes (.mediaPacketLaunch ⟨n, q⟩) s fun e => e = s.e)
    ∧ ∀ x, getTx s.e n = some x →
      (mediaSchedule s.e q = [] → completes (.mediaPacketLaunch ⟨n, q⟩) s fun e => e = s.e)
      ∧ ∀ st m ms, mediaSchedule s.e q = (st, m) :: ms →
        (m.s ≠ n → completes (.mediaPacketLaunch ⟨n, q⟩) s fun e => e = s.e)
        ∧ (m.s = n → completes (.mediaPacketLaunch ⟨n, q⟩) s fun e =>
          let b := (buildPacket x s.e).1
          getTx e n = some (b.leave q) ∧ (∀ k, k ≠ n → getTx e k = getTx s.e k)
            ∧ (b.sent ||| 2 ^ q = recW x.rec_ 0 53 52 →
              getTx e n = some { x with sent := 0, built := [], j := x.j + 1, q := x.q.map (·.drop (recP x.rec_)), at_ := x.at_ + (recP x.rec_ : Int) })
            ∧ if s.e.pair.muted = true ∨ resetting s.e 2 n = true ∨ getF .NET_PORTCFG_EN q s.e = 0 then e.net.pkt = s.e.net.pkt ∧ e.regs = s.e.regs
              else tget [] e.net.pkt (2 * n + q) = mediaFrame s.e x.rec_ q x.j b.built ∧ tget 0 e.net.starts (2 * n + q) = st
                ∧ (getXmit e q).busy = st + m.w ∧ (x.sent = 0 → (tget [] e.net.pkt (2 * n + q)).length = frameBytes x.rec_)
                ∧ getF .NET_TXSTAT_SEQ n e = (recW x.rec_ 2 47 32 + x.j) % 2 ^ 16 ∧ onlyFields [.NET_TXSTAT_SEQ] { s.e with net := e.net, free := e.free } e))
  ∧ (∀ (s : State) (q : Nat), q < 3 → s.e.held = 0 →
    completes (.ethLinkChange q true) s (fun e => getF .NET_PORTSTAT_LINK q e = (if getF .NET_PORTCFG_EN q s.e = 1 then 1 else 0)
      ∧ onlyFields [.NET_PORTSTAT_LINK] s.e e)
    ∧ completes (.ethLinkChange q false) s fun e => getF .NET_PORTSTAT_LINK q e = 0 ∧ (getF .NET_PORTSTAT_LINK q s.e = 1 → getF .NET_PORTSTAT_DOWNS q e = 1)
      ∧ onlyFields [.NET_PORTSTAT_LINK, .NET_PORTSTAT_DOWNS] s.e e)
  ∧ (∀ (s : State) (q c u t : Nat) (f : List Byte), q < 3 → s.e.held = 0 →
    let e1 := if fecOn s.e q then bumpF .NET_PORTSTAT_FECCOR q c (bumpF .NET_PORTSTAT_FECUNC q u s.e) else s.e
    let k := parseFrame f
    (getF .NET_PORTCFG_EN q s.e = 0 → completes (.ethFrameReceive q f c u t) s fun e => e = e1)
    ∧ (getF .NET_PORTCFG_EN q s.e = 1 →
      (1518 < f.length → completes (.ethFrameReceive q f c u t) s fun e => e = bumpF .NET_STAT_DROP 0 1 e1)
      ∧ (f.length ≤ 1518 →
        (q = 2 → completes (.ethFrameReceive q f c u t) s fun e => e = hostReceive q t f e1)
        ∧ (q < 2 → k.udp = none → completes (.ethFrameReceive q f c u t) s fun e =>
          e = if forHost s.e q f then hostReceive q t f e1 else bumpF .NET_STAT_DROP 0 1 e1)
        ∧ ∀ src dst sp dp b, q < 2 → k.udp = some (src, dst, sp, dp, b) →
          let ptp := (dp = 319 ∨ dp = 320) ∧ instEn (getInst s.e q) = true ∧ ptpAddr (getInst s.e q) dst = true
          (ptp → completes (.ethFrameReceive q f c u t) s fun e => e = e1)
          ∧ (¬ptp → ∀ n, streamOf s.e q src dst dp = some n → completes (.ethFrameReceive q f c u t) s fun e =>
            e = receiveMedia n q t b e1 ∧ (∀ m, m ≠ n → getRx e m = getRx s.e m) ∧ e.mem = s.e.mem ∧ e.host = s.e.host ∧ e.mix = s.e.mix)
          ∧ (¬ptp → streamOf s.e q src dst dp = none → completes (.ethFrameReceive q f c u t) s fun e =>
            e = if forHost s.e q f then hostReceive q t f e1 else bumpF .NET_STAT_DROP 0 1 e1)))
    ∧ ((s.e.host.linkOff = true ∨ getF .NET_HRX_CFG_EN 0 s.e = 0 ∨ getF .NET_HRX_HEAD_HEAD 0 s.e = getF .NET_HRX_TAIL_TAIL 0 s.e) →
      getF .NET_PORTCFG_EN 2 s.e = 1 → f.length ≤ 1518 →
      completes (.ethFrameReceive 2 f c u t) s fun e => getF .NET_HRX_HEAD_HEAD 0 e = getF .NET_HRX_HEAD_HEAD 0 s.e
        ∧ getF .NET_STAT_HRXDROP 0 e = min (getF .NET_STAT_HRXDROP 0 s.e + 1) (2 ^ Fld.NET_STAT_HRXDROP.width - 1)))
  ∧ ∀ (s : State) (q t : Nat), q < 3 → s.e.held = 0 →
    let next := (htxWaiting s.e).find? fun k => bits (hostRead64 s.e (htxEntry s.e k + 8)) 47 46 == q
    (next = none ∨ getF .NET_PORTCFG_EN q s.e = 0 → completes (.hostTransmitEntry q t) s fun e => e = s.e)
    ∧ ∀ k, next = some k → getF .NET_PORTCFG_EN q s.e = 1 →
      let now := clockNs s.e t
      let may := htxMay s.e q k (100 * (now : Int))
      let lt := htxTime s.e k
      let held := (getXmit s.e q).held = some k
      let starts := htxTimed s.e k = false ∨ lt ≤ now
      let late := htxTimed s.e k = true ∧ ¬held ∧ lt < now
      (may = true → starts →
        completes (.hostTransmitEntry q t) s fun e => e = htxSend k (if late then 0x0604 else 0) (100 * now) s.e
          ∧ (∀ p, p ≠ q → tget [] e.net.wire p = tget [] s.e.net.wire p)
          ∧ (60 ≤ htxLen s.e k → htxLen s.e k ≤ 1518 → s.e.pair.muted = false ∨ q = 2 → (tget [] e.net.wire q).length = htxLen s.e k)
          ∧ getF .NET_STAT_LATE 0 e = min (getF .NET_STAT_LATE 0 s.e + if late then 1 else 0) (2 ^ Fld.NET_STAT_LATE.width - 1))
      ∧ (may = false → htxTimed s.e k = false ∨ held ∨ lt < now → completes (.hostTransmitEntry q t) s fun e => e = s.e)
      ∧ (htxTimed s.e k = true → held → now < lt → completes (.hostTransmitEntry q t) s fun e => e = s.e)
      ∧ (htxTimed s.e k = true → ¬held →
        (now + 1000000000 < lt → completes (.hostTransmitEntry q t) s fun e => e = htxDone k 0x0603 s.e)
        ∧ (lt = now ∧ may = false ∨ now < lt ∧ lt ≤ now + 1000000000 → completes (.hostTransmitEntry q t) s fun e =>
          e = setXmit q { getXmit s.e q with held := some k } s.e))

/-- ANNOUNCE_RECEIVED, ANNOUNCE_RECEIPT_TIMEOUT, SYNC_RECEIVED, DELAY_REQ_RECEIVED, PTP_MESSAGE_TRANSMIT, TIME_STEP, RECEIVE_GRACE_END, CAPTURE_EDGE and PULSE_FIRE (R355–R365): an
instance takes a first master and leaves it when its announcements end; a Sync shows its offset, and the second in a row beyond 1 ms asks
for a step, which moves the clock by the offset; a slave sends no Sync or Announce, and a grandmaster answers as many delay requests as Table
11.4 lets it; after the grace only the new mapping stands; a capture
shows the clock within 4 ns; and a due single pulse is done. -/
def Obligations.TimeIsKept : Prop :=
  (∀ (s : State) (i : Nat) (a : Announce), i < 2 → s.e.held = 0 →
    (instEn (getInst s.e i) = false →
      completes (.announceReceived i a) s (fun e => e = s.e) ∧ completes (.announceReceiptTimeout i) s (fun e => e = s.e)
        ∧ ∀ o l, completes (.syncReceived i o l) s fun e => e = s.e)
    ∧ (supUp s.e = false → completes (.announceReceived i a) s (fun e => e = s.e) ∧ completes (.announceReceiptTimeout i) s fun e => e = s.e)
    ∧ (instEn (getInst s.e i) = true → supUp s.e = true →
      let p := getInst s.e i
      let better := ∀ m, p.master = some m → m.gm = a.gm ∨ lexLt (dataList a) (dataList m) = true
      let own := instMaster p = true ∧ lexLt (dataList (ownData s.e i)) (dataList a) = true
      (¬better → completes (.announceReceived i a) s fun e => e = s.e)
      ∧ (better → completes (.announceReceived i a) s fun e => (getInst e i).master = some a ∧ (getInst e i).w0 = p.w0
        ∧ ptpState e i = if own then 6 else if ptpState s.e i = 9 ∧ ∃ m, p.master = some m ∧ m.gm = a.gm then 9 else 8)
      ∧ (p.master = none → completes (.announceReceiptTimeout i) s fun e => e = s.e)
      ∧ (p.master ≠ none → completes (.announceReceiptTimeout i) s fun e => (getInst e i).master = none
        ∧ ptpState e i = if instMaster p = true then 6 else 4))
    ∧ (instEn (getInst s.e i) = true → supUp s.e = true → instMaster (getInst s.e i) = false →
      ((getInst s.e i).master = none → ptpState s.e i = 4 →
        completes (.announceReceived i a) s fun e => (getInst e i).master = some a ∧ (getInst e i).w0 = (getInst s.e i).w0 ∧ ptpState e i = 8)
      ∧ ((getInst s.e i).master ≠ none → completes (.announceReceiptTimeout i) s fun e => (getInst e i).master = none ∧ ptpState e i = 4)))
  ∧ (∀ (s : State) (i : Nat) (o : Int) (l : Bool), i < 2 → s.e.held = 0 →
    (supUp s.e = false ∨ (getInst s.e i).master = none ∨ ptpState s.e i ≠ 8 ∧ ptpState s.e i ≠ 9 → completes (.syncReceived i o l) s fun e => e = s.e)
    ∧ (supUp s.e = true → instEn (getInst s.e i) = true → (getInst s.e i).master ≠ none → ptpState s.e i = 8 ∨ ptpState s.e i = 9 →
      completes (.syncReceived i o l) s (fun e => getF .PTP_OFS_OFS i e = satField 32 o % 2 ^ 32 ∧ ptpState e i = (if l then 9 else ptpState s.e i))
      ∧ (ptpState s.e i = 9 → l = true ∨ slotOfInst s.e i = none →
        (timekeeper s.e ≠ some i → completes (.syncReceived i o l) s fun e => e.ptp.step = s.e.ptp.step ∧ (getInst e i).big = (getInst s.e i).big)
        ∧ (timekeeper s.e = some i → completes (.syncReceived i o l) s fun e =>
          e.ptp.locked = l ∧ (coupled s.e = true → getF .CLK_PHERR_PHERR 0 e = satField 32 (1000 * o) % 2 ^ 32)
            ∧ (o.natAbs ≤ 1000000 → (getInst e i).big = false ∧ e.ptp.step = s.e.ptp.step)
            ∧ (1000000 < o.natAbs → (getInst e i).big = !(getInst s.e i).big
              ∧ e.ptp.step = if (getInst s.e i).big then some o else s.e.ptp.step)))))
  ∧ (∀ (s : State) (t : Nat), s.e.held = 0 →
    (s.e.ptp.step = none ∨ supUp s.e = false → completes (.timeStep t) s fun e => e = s.e)
    ∧ (∀ o : Int, s.e.ptp.step = some o → supUp s.e = true → 0 ≤ (s.e.ptp.time : Int) + 2 ^ 32 * o →
      completes (.timeStep t) s fun e => (e.ptp.time : Int) = s.e.ptp.time + 2 ^ 32 * o ∧ e.ptp.step = none ∧ e.ptp.rewrite = some (2 ^ 32 * o)
        ∧ getF .PTP_STAT_STEPS 0 e = 1))
  ∧ (∀ s : State, s.e.held = 0 → completes .receiveGraceEnd s fun e => e = { s.e with ptp := { s.e.ptp with old := none } })
  ∧ (∀ (s : State) (i t q d : Nat) (peer : Bool), i < 2 → s.e.held = 0 → instEn (getInst s.e i) = true → supUp s.e = true →
    (s.e.pair.muted = true → ∀ k, completes (.ptpMessageTransmit i k t) s (fun e => e = s.e) ∧ completes (.delayReqReceived i peer q d t) s fun e => e = s.e)
    ∧ (ptpState s.e i ≠ 6 → completes (.ptpMessageTransmit i 0 t) s (fun e => e = s.e) ∧ completes (.ptpMessageTransmit i 1 t) s (fun e => e = s.e)
        ∧ completes (.delayReqReceived i false q d t) s fun e => e = s.e)
    ∧ (s.e.pair.muted = false → instP2p (getInst s.e i) = true →
      completes (.ptpMessageTransmit i 2 t) s (fun e => (tget [] e.net.wire i).length = 54
          ∧ tget 0 (getInst e i).seqs 2 = (tget 0 (getInst s.e i).seqs 2 + 1) % 2 ^ 16 ∧ e.regs = s.e.regs)
      ∧ completes (.delayReqReceived i true q d t) s fun e => (tget [] e.net.wire i).length = 54 ∧ e.regs = s.e.regs
          ∧ (getInst e i).follow.length = (getInst s.e i).follow.length + (bit (getInst s.e i).w0 55).toNat)
    ∧ (s.e.pair.muted = false → instP2p (getInst s.e i) = false →
      (ptpState s.e i = 8 ∨ ptpState s.e i = 9 → completes (.ptpMessageTransmit i 2 t) s fun e => (tget [] e.net.wire i).length = 44
        ∧ tget 0 (getInst e i).seqs 1 = (tget 0 (getInst s.e i).seqs 1 + 1) % 2 ^ 16 ∧ e.regs = s.e.regs)
      ∧ (ptpState s.e i ≠ 8 → ptpState s.e i ≠ 9 → completes (.ptpMessageTransmit i 2 t) s fun e => e = s.e)
      ∧ completes (.delayReqReceived i true q d t) s fun e => e = s.e)
    ∧ (s.e.pair.muted = false → actsMaster s.e i = true →
      completes (.ptpMessageTransmit i 0 t) s (fun e => (tget [] e.net.wire i).length = 44
        ∧ tget 0 (getInst e i).seqs 0 = (tget 0 (getInst s.e i).seqs 0 + 1) % 2 ^ 16 ∧ e.regs = s.e.regs
        ∧ (getInst e i).follow.length = (getInst s.e i).follow.length + (bit (getInst s.e i).w0 55).toNat)
      ∧ (generalMay s.e i t (List.replicate 64 0) = true → completes (.ptpMessageTransmit i 1 t) s fun e => (tget [] e.net.wire i).length = 64
        ∧ tget 0 (getInst e i).seqs 11 = (tget 0 (getInst s.e i).seqs 11 + 1) % 2 ^ 16 ∧ e.regs = s.e.regs)
      ∧ (generalMay s.e i t (List.replicate 64 0) = false → completes (.ptpMessageTransmit i 1 t) s fun e => e = s.e)
      ∧ (instP2p (getInst s.e i) = true ∨ mayAnswer s.e i d t = false → completes (.delayReqReceived i false q d t) s fun e => e = s.e)
      ∧ (instP2p (getInst s.e i) = false → mayAnswer s.e i d t = true → completes (.delayReqReceived i false q d t) s fun e => e.regs = s.e.regs
        ∧ if generalMay s.e i t (List.replicate 54 0) then (tget [] e.net.wire i).length = 54 ∧ (getInst e i).follow = (getInst s.e i).follow
          else e.net = s.e.net ∧ (getInst e i).follow.length = (getInst s.e i).follow.length + 1))
    ∧ ((getInst s.e i).follow = [] → completes (.ptpMessageTransmit i 3 t) s fun e => e = s.e)
    ∧ ∀ m ms, s.e.pair.muted = false → (getInst s.e i).follow = m :: ms →
      (generalMay s.e i t m = false → completes (.ptpMessageTransmit i 3 t) s fun e => e = s.e)
      ∧ (generalMay s.e i t m = true → completes (.ptpMessageTransmit i 3 t) s fun e => tget [] e.net.wire i = m ∧ (getInst e i).follow = ms ∧ e.regs = s.e.regs))
  ∧ (∀ (s : State) (n t : Nat), n < 4 → s.e.held = 0 →
    (bitF .SYS_GPIO_FUNC_FUNC 0 n s.e = false → completes (.captureEdge n t) s fun e => e = s.e)
    ∧ (bitF .SYS_GPIO_FUNC_FUNC 0 n s.e = true → 4 ≤ clockNs s.e t → clockNs s.e t < 10 ^ 18 →
      completes (.captureEdge n t) s fun e =>
        let v := 1000000000 * getF .PTP_CAP_S_CAP n e + getF .PTP_CAP_NS_CAP n e
        v ≤ clockNs s.e t + 4 ∧ clockNs s.e t ≤ v + 4 ∧ onlyFields [.PTP_CAP_S_CAP, .PTP_CAP_NS_CAP] s.e e))
  ∧ ∀ (s : State) (n t : Nat), n < 4 → s.e.held = 0 →
    (tget none s.e.ptp.pulses n = none → completes (.pulseFire n t) s fun e => e = s.e)
    ∧ ∀ p, tget none s.e.ptp.pulses n = some p → (clockNs s.e t + 8 < p.next → completes (.pulseFire n t) s fun e => e = s.e)
    ∧ (p.next ≤ clockNs s.e t + 8 → p.period = 0 →
      completes (.pulseFire n t) s fun e => tget none e.ptp.pulses n = none ∧ bitF .PTP_PULSE_ACT 0 n e = false
        ∧ (bitF .SYS_GPIO_FUNC_FUNC 0 (4 + n) s.e = true → tget (0, 0) e.ptp.fired n = (p.next, p.next + p.width)))
    ∧ (p.next ≤ clockNs s.e t + 8 → p.period ≠ 0 →
      completes (.pulseFire n t) s fun e => tget none e.ptp.pulses n = some { p with next := p.next + p.period })
/-! ### The fabric (chapter 12) -/

/-- BLOCK_LOCK, HELLO_RECEIVED, LINK_RETRAIN, LINK_FAILURE, SYNC_BLOCK_SET, SYNC_MISSING, ISOCHRONOUS_BLOCK, RELIABLE_MESSAGE, RELIABLE_ACK and RELIABLE_RETRY (R371–R376, R385–R388): a
link in TRAIN that locks goes to HELLO, and a hello of this fabric brings it UP; one that fails goes to FAILED, records it, and trains again; a
second missing set in a row fails it; a sync set shows the link delay corrected by ASYM; a block with a CRC error counts and does no more; a message for another
node is passed on, one out of order waits; an acknowledgement releases what is held, and a retry repeats and counts. -/
def Obligations.LinksCarryMessages : Prop :=
  (∀ (s : State) (l : Nat), l < 4 → s.e.held = 0 →
    completes (.blockLock l) s (fun e => (linkState s.e l = 1 → linkState e l = 2) ∧ (linkState s.e l ≠ 1 → e = s.e))
    ∧ completes (.linkRetrain l) s (fun e => (linkState s.e l = 4 → linkState e l = 1 ∧ getF .FAB_LINK_STAT_CAUSE l e = getF .FAB_LINK_STAT_CAUSE l s.e)
        ∧ (linkState s.e l ≠ 4 → e = s.e))
    ∧ ∀ cause, cause < 16 → completes (.linkFailure l cause) s fun e =>
        (linkState s.e l = 0 ∨ linkState s.e l = 4 → e = s.e)
          ∧ (linkState s.e l ≠ 0 → linkState s.e l ≠ 4 → linkState e l = 4 ∧ getF .FAB_LINK_STAT_CAUSE l e = cause ∧ getF .FAB_LINK_STAT_FAILS l e = 1
            ∧ ∀ k, k < 4 → k ≠ l → linkState e k = linkState s.e k))
  ∧ (∀ (s : State) (l : Nat) (h : Hello), l < 4 → s.e.held = 0 → linkState s.e l = 2 →
      (s.e.fab.nodes.any fun n => n.serial == h.serial && n.excluded) = false →
    completes (.helloReceived l h) s fun e =>
      (helloOk s.e h = true → 50000 < getF .FAB_LINK_DLY_DLY l s.e → linkState e l = 2 ∧ getF .FAB_LINK_STAT_CAUSE l e = 3)
        ∧ (helloOk s.e h = true → getF .FAB_LINK_DLY_DLY l s.e ≤ 50000 → linkState e l = 3 ∧ tget 0 e.fab.peer l = h.serial
          ∧ getF .FAB_LINK_STAT_PEERLINK l e = h.link % 2 ^ Fld.FAB_LINK_STAT_PEERLINK.width)
        ∧ (helloOk s.e h = false → linkState e l = 2 ∧ getF .FAB_LINK_STAT_CAUSE l e = 4))
  ∧ (∀ (s : State) (l : Nat) (h : Hello), l < 4 → s.e.held = 0 →
    (linkState s.e l ≠ 2 → linkUp s.e l = false ∨ tget 0 s.e.fab.peer l = h.serial → completes (.helloReceived l h) s fun e => e = s.e)
    ∧ (linkUp s.e l = true → tget 0 s.e.fab.peer l ≠ h.serial →
      completes (.helloReceived l h) s fun e => linkState e l = 4 ∧ getF .FAB_LINK_STAT_CAUSE l e = 6)
    ∧ (linkState s.e l = 2 → (s.e.fab.nodes.any fun n => n.serial == h.serial && n.excluded) = true →
      completes (.helloReceived l h) s fun e => linkState e l = 2 ∧ getF .FAB_LINK_STAT_CAUSE l e = 8))
  ∧ (∀ (s : State) (l : Nat) (y : SyncSet) (b : IsoBlock), l < 4 → s.e.held = 0 →
    (linkState s.e l = 2 → completes (.syncBlockSet l y) s fun e =>
      getF .FAB_LINK_DLY_DLY l e = min ((y.dly : Int) - signed 16 (getF .FAB_LINK_CFG_ASYM l s.e)).toNat (2 ^ 24 - 1) ∧ onlyFields [.FAB_LINK_DLY_DLY] s.e e)
    ∧ (linkUp s.e l = false → linkState s.e l ≠ 2 → completes (.syncBlockSet l y) s fun e => e = s.e)
    ∧ (linkUp s.e l = true →
      let d := ((y.dly : Int) - signed 16 (getF .FAB_LINK_CFG_ASYM l s.e)).toNat
      (tget 0 s.e.fab.peer l ≠ y.serial → completes (.syncBlockSet l y) s fun e => linkState e l = 4 ∧ getF .FAB_LINK_STAT_CAUSE l e = 6)
      ∧ (tget 0 s.e.fab.peer l = y.serial → 50000 < d → completes (.syncBlockSet l y) s fun e => linkState e l = 2 ∧ getF .FAB_LINK_STAT_CAUSE l e = 3)
      ∧ (tget 0 s.e.fab.peer l = y.serial → d ≤ 50000 → completes (.syncBlockSet l y) s fun e =>
        linkState e l = 3 ∧ getF .FAB_LINK_DLY_DLY l e = d ∧ tget 0 e.fab.miss l = 0 ∧ getF .FAB_LINK_STAT_PEER l e = y.addr % 2 ^ Fld.FAB_LINK_STAT_PEER.width
          ∧ (y.gen = getF .FAB_GEN_GEN 0 s.e → y.rootSerial = s.e.fab.rootSerial → e.fab.noRoot = 0)
          ∧ (inFab s.e = true → syncLink s.e = l → getF .FAB_NODE_TM 0 s.e = 0 → e.clk.fabQl = y.outql)))
    ∧ (linkUp s.e l = false → completes (.syncMissing l) s (fun e => e = s.e) ∧ completes (.isochronousBlock l b) s fun e => e = s.e)
    ∧ (linkUp s.e l = true →
      (tget 0 s.e.fab.miss l = 0 → completes (.syncMissing l) s fun e => tget 0 e.fab.miss l = 1 ∧ e.regs = s.e.regs)
      ∧ (1 ≤ tget 0 s.e.fab.miss l → completes (.syncMissing l) s fun e => linkState e l = 4 ∧ getF .FAB_LINK_STAT_CAUSE l e = 5)
      ∧ (b.crcOk = false → completes (.isochronousBlock l b) s fun e => e = bumpF .FAB_LINK_CNT_CRCERR l 1 s.e)
      ∧ (b.crcOk = true → fabLocked s.e = false ∨ tget none s.e.fab.slots (4096 * l + b.ch) = none →
        completes (.isochronousBlock l b) s fun e => e = s.e)
      ∧ (∀ r, b.crcOk = true → fabLocked s.e = true → tget none s.e.fab.slots (4096 * l + b.ch) = some (.rx r) →
        let play := near16 (fabFrame s.e) b.origin + (getF .FAB_RXSTAT_LP r s.e : Int) - frameOfs s.e
        let now : Int := frameNo s.e
        let put := store (fabRing s.e r play.toNat) (sampleBytes (b.samples.take (frameLen s.e))) s.e
        (getF .FAB_RXSTAT_STATE r s.e ≠ 1 ∨ play < now ∨ now + ((128 / frameLen s.e : Nat) : Int) ≤ play →
          completes (.isochronousBlock l b) s fun e => e = s.e)
        ∧ (getF .FAB_RXSTAT_STATE r s.e = 1 → now < play → play < now + ((128 / frameLen s.e : Nat) : Int) →
          completes (.isochronousBlock l b) s fun e => e = { put with fab := { s.e.fab with arrived := s.e.fab.arrived ++ [(r, play.toNat)] } })
        ∧ (getF .FAB_RXSTAT_STATE r s.e = 1 → play = now →
          completes (.isochronousBlock l b) s fun e => ((getConc s.e (0x1800 + r)).now = false → e = put)
            ∧ ((getConc s.e (0x1800 + r)).now = true → (getConc e (0x1800 + r)).now = false ∧ (getConc e (0x1800 + r)).run = 0) ∧ e.regs = s.e.regs))
      ∧ ∀ k c, b.crcOk = true → fabLocked s.e = true → tget none s.e.fab.slots (4096 * l + b.ch) = some (.fwd k c) →
        completes (.isochronousBlock l b) s fun e => e.fab.fwd = s.e.fab.fwd ++ [(k, { b with ch := c })] ∧ e.regs = s.e.regs ∧ e.mem = s.e.mem))
  ∧ (∀ (s : State) (l : Nat) (m : RelMsg), l < 4 → s.e.held = 0 →
    (linkUp s.e l = false ∨ supUp s.e = false → completes (.reliableMessage l m) s fun e => e = s.e)
    ∧ (linkUp s.e l = true → supUp s.e = true →
      (m.dest ≠ ownAddr s.e → completes (.reliableMessage l m) s fun e => (∃ o, e.fab.out = s.e.fab.out ++ [o] ∧ o.origin = m.origin ∧ o.dest = m.dest ∧ o.seq = m.seq ∧ o.body = m.body)
        ∧ tget 0 e.fab.acked l = m.seq + 1 ∧ e.regs = s.e.regs)
      ∧ (m.dest = ownAddr s.e → m.seq < tget 0 s.e.fab.seqRx m.origin →
        completes (.reliableMessage l m) s fun e => e.fab.seqRx = s.e.fab.seqRx ∧ tget 0 e.fab.acked l = m.seq + 1 ∧ e.regs = s.e.regs)
      ∧ (m.dest = ownAddr s.e → m.seq = tget 0 s.e.fab.seqRx m.origin → s.e.fab.gap = [] → m.body = .other →
        completes (.reliableMessage l m) s fun e => tget 0 e.fab.seqRx m.origin = m.seq + 1 ∧ e.regs = s.e.regs)
      ∧ (m.dest = ownAddr s.e → m.seq = tget 0 s.e.fab.seqRx m.origin → completes (.reliableMessage l m) s fun e =>
        m.seq < tget 0 e.fab.seqRx m.origin ∧ (s.e.fab.gap = [] → tget 0 e.fab.seqRx m.origin = m.seq + 1) ∧ tget 0 e.fab.acked l = m.seq + 1)
      ∧ (m.dest = ownAddr s.e → tget 0 s.e.fab.seqRx m.origin < m.seq → s.e.fab.gap.contains m = true →
        completes (.reliableMessage l m) s fun e => e = { s.e with fab := { s.e.fab with acked := tput 0 s.e.fab.acked l (m.seq + 1) } })
      ∧ (m.dest = ownAddr s.e → tget 0 s.e.fab.seqRx m.origin < m.seq → s.e.fab.gap.contains m = false →
        completes (.reliableMessage l m) s fun e => e.fab.gap = s.e.fab.gap ++ [m] ∧ e.fab.seqRx = s.e.fab.seqRx ∧ e.regs = s.e.regs)))
  ∧ ∀ (s : State) (l o d q : Nat), l < 4 → s.e.held = 0 →
    completes (.reliableAck l o d q) s (fun e => e.fab.out = s.e.fab.out.filter (fun m => !m.isMsg l o d q)
      ∧ ((e.fab.out.any fun m => m.link == l && decide (3 ≤ m.tries)) = false → getF .FAB_LINK_STAT_SUSPECT l e = 0)
      ∧ onlyFields [.FAB_LINK_STAT_SUSPECT] { s.e with fab := e.fab } e)
    ∧ ((s.e.fab.out.find? fun m => m.isMsg l o d q) = none → completes (.reliableRetry l o d q) s fun e => e = s.e)
    ∧ (∀ m, (s.e.fab.out.find? fun m => m.isMsg l o d q) = some m → completes (.reliableRetry l o d q) s fun e =>
      e.fab.out = (s.e.fab.out.map fun x => if x = m then { x with tries := x.tries + 1 } else x)
        ∧ getF .FAB_LINK_CNT_RETRY l e = min (getF .FAB_LINK_CNT_RETRY l s.e + 1) (2 ^ Fld.FAB_LINK_CNT_RETRY.width - 1)
        ∧ (2 ≤ m.tries → getF .FAB_LINK_STAT_SUSPECT l e = 1)
        ∧ (m.tries < 2 → getF .FAB_LINK_STAT_SUSPECT l e = getF .FAB_LINK_STAT_SUSPECT l s.e))
    ∧ ∀ m, s.e.fab.out = [m] → m.isMsg l o d q = true →
      completes (.reliableRetry l o d q) s fun e => e.fab.out = [{ m with tries := m.tries + 1 }]
        ∧ getF .FAB_LINK_CNT_RETRY l e = min (getF .FAB_LINK_CNT_RETRY l s.e + 1) (2 ^ Fld.FAB_LINK_CNT_RETRY.width - 1)
        ∧ (2 ≤ m.tries → getF .FAB_LINK_STAT_SUSPECT l e = 1)

/-- ROOT_ELECTION, ROOT_LOSS_ELECTION, ROUTE_TABLE_INSTALL, FAILURE_NOTICE, REROUTE_ATTEMPT, NODE_EXCLUSION and FABRIC_LOCK_CHANGE (R377–R380, R387, R390–R392): a node that reaches no other is
root and time master of its own fabric; ten frames without the root's sync start an election; a table sets the generation and every route; a
failure notice puts a protected receive channel on its alternate route and loses another; a lost one comes back with a new route; the root excludes
a node that it knows; and lock once lost takes every receive channel with it. -/
def Obligations.FabricIsKept : Prop :=
  (∀ (s : State) (n : NodeInfo), s.e.held = 0 → n.serial = ownSerial s.e → n.addr = none → n.pref = none → n.tmcand = true →
      inFab s.e = false → supUp s.e = true → s.e.fab.nodes = [] → s.e.fab.tx = [] → s.e.fab.slots = [] →
    completes (.rootElection [n]) s fun e => getF .FAB_NODE_INFAB 0 e = 1 ∧ getF .FAB_NODE_ROOT 0 e = 1 ∧ getF .FAB_NODE_TM 0 e = 1 ∧ getF .FAB_NODE_FLOCK 0 e = 1
      ∧ getF .FAB_NODE_ADDR 0 e = 0 ∧ getF .FAB_NODE_NODES 0 e = 1 ∧ e.fab.rootSerial = n.serial ∧ e.fab.electing = false)
  ∧ (∀ (s : State) (ns : List NodeInfo), s.e.held = 0 →
    (supUp s.e = false ∨ (ns.any fun n => n.serial == ownSerial s.e) = false → completes (.rootElection ns) s fun e => e = s.e)
    ∧ ∀ rt, supUp s.e = true → (ns.any fun n => n.serial == ownSerial s.e) = true → leastNode (fun n => (n.rprio, n.serial)) ns = some rt →
      let as := assignAddrs rt.serial ns
      let tm := chooseTm s.e rt.serial as
      completes (.rootElection ns) s fun e => getF .FAB_NODE_INFAB 0 e = 1 ∧ getF .FAB_NODE_ROOT 0 e = (rt.serial == ownSerial s.e).toNat
        ∧ getF .FAB_NODE_TM 0 e = (tm == ownSerial s.e).toNat ∧ (tm = ownSerial s.e → getF .FAB_NODE_FLOCK 0 e = 1)
        ∧ e.fab.rootSerial = rt.serial ∧ e.fab.rootPrio = rt.rprio ∧ e.fab.electing = false ∧ e.fab.noRoot = 0
        ∧ e.fab.nodes.map (·.serial) = as.map (·.1.serial) ∧ e.fab.nodes.map (·.addr) = as.map (·.2))
  ∧ (∀ s : State, s.e.held = 0 →
    completes .rootLossElection s fun e => e.regs = s.e.regs ∧ e.mem = s.e.mem
      ∧ (inFab s.e = true → 10 ≤ s.e.fab.noRoot → e.fab = { s.e.fab with electing := true })
      ∧ (inFab s.e = false ∨ s.e.fab.noRoot < 10 → e = s.e))
  ∧ (∀ (s : State) (g : Nat) (r : RouteRow), s.e.held = 0 → r.dest < 64 → r.plink < 4 → r.phops < 2 → r.alt = none →
    (inFab s.e = false → completes (.routeTableInstall g [r]) s fun e => e = s.e)
    ∧ (inFab s.e = true → hotActive s.e = false →
      completes (.routeTableInstall g [r]) s fun e => getF .FAB_GEN_GEN 0 e = g % 2 ^ Fld.FAB_GEN_GEN.width ∧ getF .FAB_ROUTE_VALID r.dest e = 1
        ∧ getF .FAB_ROUTE_PLINK r.dest e = r.plink ∧ getF .FAB_ROUTE_PHOPS r.dest e = r.phops ∧ getF .FAB_ROUTE_AVALID r.dest e = 0
        ∧ ∀ d, d < 64 → d ≠ r.dest → getF .FAB_ROUTE_VALID d e = 0))
  ∧ (∀ (s : State) (g : Nat) (rs : List RouteRow), s.e.held = 0 →
    (inFab s.e = false → completes (.routeTableInstall g rs) s fun e => e = s.e)
    ∧ (inFab s.e = true → completes (.routeTableInstall g rs) s fun e => getF .FAB_GEN_GEN 0 e = g % 2 ^ Fld.FAB_GEN_GEN.width
      ∧ ∀ d, d < 64 →
        ((rs.find? fun r => r.dest == d) = none → getF .FAB_ROUTE_VALID d e = 0)
        ∧ ∀ r, (rs.find? fun r => r.dest == d) = some r → getF .FAB_ROUTE_VALID d e = 1 ∧ getF .FAB_ROUTE_AVALID d e = r.alt.isSome.toNat
          ∧ getF .FAB_ROUTE_PLINK d e = r.plink % 2 ^ Fld.FAB_ROUTE_PLINK.width ∧ getF .FAB_ROUTE_PHOPS d e = r.phops % 2 ^ Fld.FAB_ROUTE_PHOPS.width
          ∧ ∀ l h, r.alt = some (l, h) → getF .FAB_ROUTE_ALINK d e = l % 2 ^ Fld.FAB_ROUTE_ALINK.width
            ∧ getF .FAB_ROUTE_AHOPS d e = h % 2 ^ Fld.FAB_ROUTE_AHOPS.width))
  ∧ (∀ (s : State) (n l : Nat) (ts rs : List Nat), l < 4 → n < 64 → s.e.held = 0 →
    (supUp s.e = false → completes (.failureNotice n l ts rs) s fun e => e = s.e)
    ∧ (supUp s.e = true → ts.Nodup → rs.Nodup → completes (.failureNotice n l ts rs) s fun e =>
      (∀ r ∈ rs, r < 2048 → getF .FAB_RXSTAT_STATE r s.e = 1 →
        (getF .FAB_RXSTAT_PROT r s.e = 1 → getF .FAB_RXSTAT_ONALT r s.e = 0 → getF .FAB_RXSTAT_ONALT r e = 1 ∧ getF .FAB_RXSTAT_STATE r e = 1)
        ∧ (getF .FAB_RXSTAT_PROT r s.e = 0 ∨ getF .FAB_RXSTAT_ONALT r s.e = 1 → getF .FAB_RXSTAT_STATE r e = 2 ∧ isLost e (0x1800 + r) = true))
      ∧ (∀ r, rs.contains r = false → getF .FAB_RXSTAT_STATE r e = getF .FAB_RXSTAT_STATE r s.e)
      ∧ (∀ t, ts.contains t = false → getPath e t = getPath s.e t)
      ∧ ∀ t ∈ ts, ∀ p, getPath s.e t = some p → (p.priDown && (p.altDown || p.alt.isNone)) = false →
        getPath e t = some (if onAlt s.e t then { p with altDown := true } else { p with priDown := true })
          ∧ (onAlt s.e t = false → p.alt.isSome = true → p.altDown = false → e.fab.switch.contains t = true)))
  ∧ (∀ (s : State) (r l n : Nat), r < 2048 → l < 4 → n < 64 → s.e.held = 0 → supUp s.e = true → getF .FAB_RXSTAT_STATE r s.e = 1 →
    completes (.failureNotice n l [] [r]) s (fun e =>
        (getF .FAB_RXSTAT_PROT r s.e = 1 → getF .FAB_RXSTAT_ONALT r s.e = 0 → getF .FAB_RXSTAT_ONALT r e = 1 ∧ getF .FAB_RXSTAT_STATE r e = 1)
          ∧ (getF .FAB_RXSTAT_PROT r s.e = 0 → getF .FAB_RXSTAT_STATE r e = 2 ∧ isLost e (0x1800 + r) = true))
    ∧ (getF .FAB_RXSTAT_PROT r s.e = 0 → ∀ ok, completes (.rerouteAttempt r true ok) s fun e => e = s.e))
  ∧ (∀ (s : State) (r : Nat), r < 2048 → s.e.held = 0 → getF .FAB_RXSTAT_STATE r s.e = 2 → fabLocked s.e = true →
    completes (.rerouteAttempt r true true) s (fun e => getF .FAB_RXSTAT_STATE r e = 1 ∧ isLost e (0x1800 + r) = false)
    ∧ completes (.rerouteAttempt r true false) s fun e => e = pathEvent r true 1 s.e)
  ∧ (∀ (s : State) (r : Nat) (ok : Bool), r < 2048 → s.e.held = 0 →
    (getF .FAB_RXSTAT_STATE r s.e = 2 → fabLocked s.e = false → completes (.rerouteAttempt r true ok) s fun e => e = pathEvent r true 1 s.e)
    ∧ (getF .FAB_RXSTAT_STATE r s.e = 1 → getF .FAB_RXSTAT_PROT r s.e = 1 → getF .FAB_RXSTAT_ONALT r s.e = 1 →
      completes (.rerouteAttempt r true ok) s fun e => getF .FAB_RXSTAT_ONALT r e = (if ok then 0 else 1) ∧ getF .FAB_RXSTAT_STATE r e = 1)
    ∧ (getPath s.e r = none → completes (.rerouteAttempt r false ok) s fun e => e = s.e)
    ∧ ∀ p, getPath s.e r = some p →
      let down := p.priDown && (p.altDown || p.alt.isNone)
      (down = true → completes (.rerouteAttempt r false ok) s fun e =>
        if ok then (∃ q, getPath e r = some q ∧ q.priDown = false ∧ q.dst = p.dst ∧ q.alt = p.alt) ∧ getF .FAB_TXSTAT_ONALT r e = 0
        else e = pathEvent r false 1 s.e)
      ∧ (down = false → p.prot = true → p.priDown = true ∨ p.altDown = true → completes (.rerouteAttempt r false ok) s fun e =>
        if ok then ∃ q, getPath e r = some q ∧ q.priDown = false ∧ q.altDown = false ∧ q.dst = p.dst else e = pathEvent r false 3 s.e)
      ∧ (p.priDown = false → p.altDown = false → completes (.rerouteAttempt r false ok) s fun e =>
        if ok = true ∧ onAlt s.e r = true then e.fab.switchNow.contains r = true ∧ e.regs = s.e.regs ∧ e.mix = s.e.mix else e = s.e))
  ∧ (∀ (s : State) (a : Nat), a < 64 → s.e.held = 0 →
    (isRoot s.e = false ∨ knownNode s.e a = false ∨ (s.e.fab.nodes.any fun n => n.addr == a && n.excluded) = true →
      completes (.nodeExclusion a) s fun e => e = s.e)
    ∧ (isRoot s.e = true → knownNode s.e a = true → (s.e.fab.nodes.any fun n => n.addr == a && n.excluded) = false →
      completes (.nodeExclusion a) s fun e => e.fab.nodes = (s.e.fab.nodes.map fun n => if n.addr = a then { n with excluded := true } else n)
        ∧ (∀ l, l < 4 → linkUp s.e l = true → getF .FAB_LINK_STAT_PEER l s.e = a → linkState e l = 2 ∧ getF .FAB_LINK_STAT_CAUSE l e = 8)
        ∧ ∃ k, k < 4 ∧ e.health.recs = s.e.health.recs ++ [(5, 0xC, 4 * a + k, frameNo s.e)])
    ∧ ∀ x, isRoot s.e = true → s.e.fab.nodes = [x] → x.addr = a → x.excluded = false → s.e.fab.tx = [] → s.e.fab.slots = [] →
      completes (.nodeExclusion a) s fun e => e.fab.nodes = [{ x with excluded := true }]
        ∧ ∀ l, l < 4 → linkUp s.e l = true → getF .FAB_LINK_STAT_PEER l s.e = a → linkState e l = 2 ∧ getF .FAB_LINK_STAT_CAUSE l e = 8)
  ∧ ∀ (s : State) (o : Int), s.e.held = 0 →
    (∀ b, fabLocked s.e = b → completes (.fabricLockChange b o) s fun e => e = s.e)
    ∧ (fabLocked s.e = true → getF .FAB_NODE_TM 0 s.e = 1 → completes (.fabricLockChange false o) s fun e => e = s.e)
    ∧ (fabLocked s.e = false → getF .FAB_NODE_TM 0 s.e = 1 → completes (.fabricLockChange true o) s fun e =>
      getF .FAB_NODE_FLOCK 0 e = 1 ∧ frameOfs e = frameOfs s.e)
    ∧ (fabLocked s.e = false → getF .FAB_NODE_TM 0 s.e = 0 → onFabricSlot s.e = false → completes (.fabricLockChange true o) s fun e => e = s.e)
    ∧ (fabLocked s.e = true → getF .FAB_NODE_TM 0 s.e = 0 →
      completes (.fabricLockChange false o) s fun e => getF .FAB_NODE_FLOCK 0 e = 0
        ∧ ∀ r ∈ rxMapped s.e, getF .FAB_RXSTAT_STATE r s.e = 1 → getF .FAB_RXSTAT_STATE r e = 2 ∧ isLost e (0x1800 + r) = true)
    ∧ (fabLocked s.e = false → getF .FAB_NODE_TM 0 s.e = 0 → getF .CLK_STAT_STATE 0 s.e = 1 → refType s.e (selSlot s.e) = 5 → -(2 ^ 63) ≤ o → o < 2 ^ 63 →
      completes (.fabricLockChange true o) s fun e => getF .FAB_NODE_FLOCK 0 e = 1 ∧ frameOfs e = o ∧ e.mix = s.e.mix)

/-! ### Redundant pairs (chapter 13) -/

/-- ROLE_DECISION, ECLIPSE_SAMPLE, LINE_TEST_PULSE, AUTO_DISARM, DEAD_MAN_RELEASE, RELEASED_MUTE, TAKEOVER and HANDOVER (R398–R403, R408–R412, R423): a member that decides becomes PEER of a line
held low and ACTIVE on a line that stays high; the dead man releases an active's line, and the released member mutes when the other pulls it; a
qualified peer that may take over is ACTIVE and shows TAKEN; pulses missing for a second clear AUTO; and at the handover frame the active becomes
the peer, when the other member is qualified, and an unqualified one refuses. -/
def Obligations.RolesAreDecided : Prop :=
  (∀ s : State, s.e.held = 0 →
    (s.e.pair.deciding = false → completes .roleDecision s fun e => e = s.e)
    ∧ (s.e.pair.deciding = true → 3 ≤ s.e.pair.lowRun → pairMode s.e = 1 →
      completes .roleDecision s fun e => pairRole e = 3 ∧ peerState e = 0 ∧ e.pair.deciding = false ∧ e.pair.eclLow = false ∧ e.pair.muted = true
        ∧ e.sched.running = false)
    ∧ (s.e.pair.deciding = true → 3 ≤ s.e.pair.lowRun → pairMode s.e = 2 →
      completes .roleDecision s fun e => pairRole e = 3 ∧ peerState e = 1 ∧ e.pair.deciding = false ∧ e.pair.eclLow = false ∧ e.pair.muted = true
        ∧ e.sched.running = false ∧ e.pair.syncing = true)
    ∧ (s.e.pair.deciding = true → s.e.pair.lowRun < 3 → s.e.pair.highRun < (if getF .PAIR_CFG_SIDE 0 s.e = 0 then 3 else 12) ∨ s.e.pair.heard = true →
      completes .roleDecision s fun e => e = s.e)
    ∧ (s.e.pair.deciding = true → s.e.pair.lowRun < 3 → (if getF .PAIR_CFG_SIDE 0 s.e = 0 then 3 else 12) ≤ s.e.pair.highRun → s.e.pair.heard = false →
      completes .roleDecision s fun e => pairRole e = 1 ∧ e.pair.deciding = false ∧ e.pair.eclLow = true ∧ e.pair.muted = false)
    ∧ (s.e.pair.deciding = true → s.e.pair.lowRun < 3 → s.e.pair.highRun < 3 → completes .roleDecision s fun e => e = s.e))
  ∧ (∀ (s : State) (high : Bool), s.e.held = 0 →
    completes (.eclipseSample high) s (fun e => getF .PAIR_STAT_LINE 0 e = high.toNat ∧ e.pair.lowRun = (if high then 0 else s.e.pair.lowRun + 1)
      ∧ e.pair.highRun = (if high then s.e.pair.highRun + 1 else 0) ∧ pairRole e = pairRole s.e)
    ∧ completes (.lineTestPulse high) s fun e =>
      (pairRole s.e = 3 → high = true → getF .PAIR_STAT_LTOK 0 e = 1 ∧ e.pair.pulseAt = some (frameNo s.e))
        ∧ (pairRole s.e = 1 → e.pair.lineBad = !high) ∧ (pairRole s.e = 3 → high = false → e = { s.e with pair := { s.e.pair with pulseRun := 0 } })
        ∧ (pairRole s.e = 0 ∨ pairRole s.e = 2 → e = s.e))
  ∧ (∀ s : State, s.e.held = 0 →
    (pairRole s.e ≠ 3 → ∀ b, completes (.autoDisarm b) s fun e => e = s.e)
    ∧ (pairRole s.e = 3 → getF .PAIR_STAT_AUTO 0 s.e = 1 → pulseFresh s.e = false →
      completes (.autoDisarm false) s fun e => getF .PAIR_STAT_AUTO 0 e = 0 ∧ getF .PAIR_STAT_LTOK 0 e = 0 ∧ pairRole e = 3)
    ∧ (pairRole s.e = 3 → getF .PAIR_STAT_AUTO 0 s.e = 0 → secFrames s.e ≤ s.e.pair.pulseRun →
      completes (.autoDisarm true) s fun e => getF .PAIR_STAT_AUTO 0 e = 1 ∧ pairRole e = 3)
    ∧ (getF .PAIR_STAT_AUTO 0 s.e = 0 ∨ pulseFresh s.e = true → completes (.autoDisarm false) s fun e => e = s.e)
    ∧ (getF .PAIR_STAT_AUTO 0 s.e = 1 ∨ s.e.pair.pulseRun < secFrames s.e → completes (.autoDisarm true) s fun e => e = s.e)
    ∧ (∀ cause, pairRole s.e < 2 → completes (.deadManRelease cause) s fun e => pairRole e = 2 ∧ e.pair.eclLow = false ∧ e.pair.muted = s.e.pair.muted
        ∧ (e.pair.deciding = true ↔ (cause = 2 ∨ cause = 5) ∧ pairMode s.e ≠ 0)
        ∧ (cause = 0 → e.host.warmReq.isSome = true) ∧ (cause ≠ 0 → e.host.warmReq = s.e.host.warmReq))
    ∧ (∀ cause, 2 ≤ pairRole s.e → completes (.deadManRelease cause) s fun e => e = if cause = 0 then requestWarm 0x08 s.e else s.e)
    ∧ (pairRole s.e = 2 → completes .releasedMute s fun e => e = { s.e with pair := { s.e.pair with muted := true, eclSel := false } })
    ∧ (pairRole s.e ≠ 2 → completes .releasedMute s fun e => e = s.e))
  ∧ (∀ s : State, s.e.held = 0 →
    (mayTake s.e = true → completes .takeover s fun e => pairRole e = 1 ∧ getF .PAIR_STAT_TAKEN 0 e = 1 ∧ e.pair.eclLow = true ∧ e.pair.muted = false
        ∧ (pairMode s.e = 1 → e.pair.warmT = some (frameNo s.e) ∧ e.health.readmit = true))
    ∧ (pairRole s.e ≠ 3 ∨ qualified s.e = false ∨ getF .PAIR_STAT_AUTO 0 s.e = 0 ∨ getF .PAIR_STAT_TIDE_OK 0 s.e = 1 ∨ getF .PAIR_STAT_LINK_OK 0 s.e = 1
        ∨ s.e.pair.highRun < 3 ∨ pulseFresh s.e = false →
      completes .takeover s fun e => e = s.e))
  ∧ ∀ s : State, s.e.held = 0 →
    (s.e.pair.hand = 0 ∨ fabFrame s.e < (s.e.pair.hand : Int) → completes .handover s fun e => e = s.e)
    ∧ (s.e.pair.hand ≠ 0 → (s.e.pair.hand : Int) ≤ fabFrame s.e → s.e.pair.handBy = none → pairRole s.e = 1 →
      (otherQualified s.e = true → pairMode s.e = 2 → completes .handover s fun e => pairRole e = 3 ∧ peerState e = 2 ∧ e.pair.hand = 0 ∧ e.pair.muted = true
        ∧ getF .PAIR_GRP_INSYNC 0 e = 0 ∧ getF .PAIR_GRP_INSYNC 1 e = 0)
      ∧ (otherQualified s.e = true → pairMode s.e ≠ 2 → completes .handover s fun e => pairRole e = 3 ∧ e.pair.hand = 0 ∧ e.pair.muted = true
        ∧ e.sched.running = false ∧ e.pair.epochAt = none)
      ∧ (otherQualified s.e = false → completes .handover s fun e => pairRole e = 1 ∧ e.pair.hand = 0))
    ∧ (s.e.pair.hand ≠ 0 → (s.e.pair.hand : Int) ≤ fabFrame s.e → pairRole s.e ≠ 1 → pairRole s.e ≠ 3 →
      completes .handover s fun e => e = { s.e with pair := { s.e.pair with hand := 0 } })
    ∧ (s.e.pair.hand ≠ 0 → (s.e.pair.hand : Int) ≤ fabFrame s.e → pairRole s.e = 3 → qualified s.e = true →
      completes .handover s fun e => pairRole e = 1 ∧ e.pair.hand = 0 ∧ e.pair.muted = false)

/-- TIDE_EDGE, TIDE_LOST, HEARTBEAT_BLOCK, HEARTBEAT_LOST, IN_SYNC, CONVERGENCE_TIMEOUT, REPLICATION_LATE, EPOCH_COMPLETE, EPOCH_ABANDON, WARM_GRAPH_START and PAIR_SYNC (R405–R407,
R414, R417–R425): the second frame in a row with an edge, or with a valid block, brings its path back, and three without one lose it; groups whose
CRCs agreed for a second are IN_SYNC, and make a converging peer READY; a late directive unqualifies the peer; a complete epoch goes to the
inactive halves, one that is abandoned counts; two frames after a warm takeover the graph runs; RESYNC starts a sync, and HANDOVER waits for
its frame. -/
def Obligations.PairsAreKeptInStep : Prop :=
  (∀ s : State, s.e.held = 0 →
    (s.e.pair.tideSeen = true → completes .tideEdge s fun e => e = s.e)
    ∧ (s.e.pair.tideSeen = false → completes .tideEdge s fun e => e.pair.tideSeen = true ∧ e.pair.tideMiss = 0
        ∧ getF .PAIR_STAT_TIDE_OK 0 e = (if 1 ≤ s.e.pair.tideRun then 1 else getF .PAIR_STAT_TIDE_OK 0 s.e))
    ∧ (getF .PAIR_STAT_TIDE_OK 0 s.e = 1 → completes .tideLost s fun e => getF .PAIR_STAT_TIDE_OK 0 e = if 3 ≤ s.e.pair.tideMiss then 0 else 1)
    ∧ (getF .PAIR_STAT_LINK_OK 0 s.e = 1 → s.e.pair.hbSeen = false → completes .heartbeatLost s fun e =>
        getF .PAIR_STAT_LINK_OK 0 e = if 2 ≤ s.e.pair.hbMiss then 0 else 1)
    ∧ (s.e.pair.hbSeen = true ∨ getF .PAIR_STAT_LINK_OK 0 s.e = 0 → completes .heartbeatLost s fun e => e = s.e)
    ∧ (getF .PAIR_STAT_TIDE_OK 0 s.e = 0 → completes .tideLost s fun e => e = s.e))
  ∧ (∀ (s : State) (h : Heartbeat) (q : Nat), s.e.held = 0 →
    (pairMode s.e = 0 ∨ linkUp s.e (pairLink s.e) = false → completes (.heartbeatBlock h) s fun e => e = s.e)
    ∧ (pairMode s.e ≠ 0 → linkUp s.e (pairLink s.e) = true → completes (.heartbeatBlock h) s fun e =>
      e.pair.peer = some h ∧ e.pair.hbSeen = true ∧ e.pair.hbMiss = 0 ∧ e.pair.hbSeq = some h.seq ∧ e.pair.heard = (s.e.pair.heard || h.role == 1)
        ∧ pairRole e = pairRole s.e ∧ pairMode e = pairMode s.e
        ∧ (s.e.pair.hbSeq = some q → q < 2 ^ 32 → h.seq = (q + 1) % 2 ^ 32 → getF .PAIR_STAT_LINK_OK 0 s.e = 1 → getF .PAIR_STAT_LINK_OK 0 e = 1))
    ∧ (pairMode s.e = 1 → linkUp s.e (pairLink s.e) = true → s.e.pair.hbSeq = some q → q < 2 ^ 32 → h.seq = (q + 1) % 2 ^ 32 → getF .PAIR_STAT_LINK_OK 0 s.e = 0 →
      completes (.heartbeatBlock h) s fun e => e.pair.peer = some h ∧ e.pair.hbSeen = true
        ∧ getF .PAIR_STAT_LINK_OK 0 e = (if 1 ≤ s.e.pair.hbRun then 1 else 0) ∧ pairRole e = pairRole s.e))
  ∧ (∀ (s : State) (g : Nat), g < 64 → s.e.held = 0 →
    (isHot s.e = false → completes (.inSync g) s (fun e => e = s.e) ∧ completes (.convergenceTimeout g) s fun e => e = s.e)
    ∧ (isHot s.e = true → ((pairGroups s.e).any fun x => x.1 == g) = true →
      (secFrames s.e ≤ tget 0 s.e.pair.agree g → completes (.inSync g) s fun e => groupInSync e g = true
          ∧ (pairRole s.e = 3 → peerState s.e = 2 → (∀ x ∈ pairGroups s.e, x.1 ≠ g → groupInSync s.e x.1 = true) → peerState e = 3))
      ∧ (tget 0 s.e.pair.agree g < secFrames s.e → completes (.inSync g) s fun e => e = s.e)
      ∧ (pairRole s.e ≠ 3 ∨ peerState s.e ≠ 2 ∨ groupInSync s.e g = true → completes (.convergenceTimeout g) s fun e => e = s.e)
      ∧ (pairRole s.e = 3 → peerState s.e = 2 → groupInSync s.e g = false →
        completes (.convergenceTimeout g) s fun e => e = postEvent 0x0907 [2 * 2 ^ 62] s.e)))
  ∧ (∀ s : State, s.e.held = 0 →
    (pairRole s.e = 3 → completes .replicationLate s fun e => peerState e = 0 ∧ e.pair.replLost = true ∧ pairRole e = 3)
    ∧ (pairRole s.e = 1 → pairMode s.e ≠ 0 → completes .replicationLate s fun e => e = postEvent 0x0907 [0] s.e)
    ∧ (pairRole s.e = 0 ∨ pairRole s.e = 2 ∨ pairRole s.e = 1 ∧ pairMode s.e = 0 → completes .replicationLate s fun e => e = s.e)
    ∧ (s.e.pair.flip = true → completes .epochAbandon s fun e => e = s.e)
    ∧ (s.e.pair.epochNow = none → completes .epochAbandon s fun e => e = s.e)
    ∧ ∀ f, s.e.pair.epochNow = some f → s.e.pair.flip = false →
      completes .epochAbandon s fun e => e.pair.epochNow = none
        ∧ getF .PAIR_EPOCH_ABANDONED 0 e = min (getF .PAIR_EPOCH_ABANDONED 0 s.e + 1) (2 ^ Fld.PAIR_EPOCH_ABANDONED.width - 1))
  ∧ (∀ (s : State) (p : EpochPart) (held : List (Nat × Int)), p.region < 4 → s.e.held = 0 →
    (pairRole s.e ≠ 3 → completes (.epochComplete [p] held) s fun e => e = s.e)
    ∧ (pairRole s.e = 3 → pairMode s.e ≠ 0 → s.e.pair.epochNow ≠ none → s.e.pair.flip = false → p.bytes.length = stateSize s.e p.region →
      let a := stateBase s.e p.region + (1 - stateHalf s.e p.region) * stateSize s.e p.region
      completes (.epochComplete [p] held) s fun e => e.pair.flip = true ∧ readBytes e a p.bytes.length = p.bytes
        ∧ (∀ b, b < a ∨ a + p.bytes.length ≤ b → readByte e b = readByte s.e b) ∧ e.regs = s.e.regs))
  ∧ (∀ (s : State) (ps : List EpochPart) (held : List (Nat × Int)), (∀ p ∈ ps, p.region < 4) → s.e.held = 0 →
    let take := pairRole s.e = 3 ∧ pairMode s.e ≠ 0 ∧ s.e.pair.epochNow ≠ none ∧ s.e.pair.flip = false
    (¬take → completes (.epochComplete ps held) s fun e => e = s.e)
    ∧ (take → completes (.epochComplete ps held) s fun e => e.pair.flip = true ∧ e.regs = s.e.regs
      ∧ e.pair.heldNext = held.foldl (fun t x => tput 0 t x.1 x.2) []
      ∧ ∀ b, (∀ p ∈ ps, let a := stateBase s.e p.region + (1 - stateHalf s.e p.region) * stateSize s.e p.region
          b < a ∨ a + stateSize s.e p.region ≤ b) → readByte e b = readByte s.e b))
  ∧ (∀ (s : State) (w : Nat), s.e.held = 0 →
    (s.e.pair.warmT = none → completes .warmGraphStart s fun e => e = s.e)
    ∧ (s.e.pair.warmT = some w → frameNo s.e < w + 2 → completes .warmGraphStart s fun e => e = s.e)
    ∧ (s.e.pair.warmT = some w → pairRole s.e ≠ 1 ∨ s.e.sched.running = true ∨ inRun s.e = false → completes .warmGraphStart s fun e => e = s.e)
    ∧ (s.e.pair.warmT = some w → w + 2 ≤ frameNo s.e → pairRole s.e = 1 → s.e.sched.running = false → inRun s.e = true →
      completes .warmGraphStart s fun e => e.sched.running = true ∧ pairRole e = 1))
  ∧ ∀ (s : State) (d : Dir) (r : List Word64), d.wf = true → s.e.held = 0 → directiveNext 0xA1 d s.e → openTxn s.e d.ring = none → d.flags = 0 →
      let e0 := popDir d.ring s.e
      let x := taken 0xA1 d s.e
      let q := parse e0 0xA1 d
      q.status = 0 → q.recs = [r] → firstStatus (ringStatus e0 d.ring 0xA1 ++ (checkRecs x 0 q.recs e0).statuses) = 0 →
    (bits (rec0 r) 63 60 = 0 → firstKind s.e 0xA1 d = 0 →
      completes (.pairSyncResync d) s fun e => e.pair.syncing = true ∧ (∃ v, completed d.ring (compWord d.tag 0 0xA1 false) v s.e e)
        ∧ (pairRole s.e = 3 → peerState e = 1 ∧ e.sched.running = false))
    ∧ (bits (rec0 r) 63 60 = 1 → firstKind s.e 0xA1 d = 1 →
      completes (.pairSyncHandover d) s fun e => e.pair.hand = (rec1 r).toNat ∧ e.pair.handBy = some (d.ring, d.tag)
        ∧ (∃ h, (getRing e d.ring).hold = some h ∧ h.op = 0xA1 ∧ h.tag = d.tag) ∧ e.regs = s.e.regs ∧ e.mem = s.e.mem)
/-! ### Memory and interconnect (chapter 14) -/

/-- XBAR_GRANT, XBAR_RESPONSE, XBAR_TIMEOUT, REQUEST_PARITY_ERROR and REGION_SCRUB (R429, R431–R437): the request that the arbitration picks is granted
and outstanding; one that decodes to no target is answered NODEST and recorded; the oldest transaction is answered with what its access gives, or,
silent too long, with TFAIL; a parity error discards the request, and on a block port isolates the block; the scrubber corrects a single-bit error and
counts it, and has an uncorrectable one contained. -/
def Obligations.CrossbarAnswers : Prop :=
  (∀ (s : State) (t : Nat) (w : XWant), w.wf = true → s.e.held = 0 →
    completes (.xbarGrant t []) s (fun e => e = s.e)
    ∧ (mayStart s.e t [w] w = true → completes (.xbarGrant t [w]) s fun e =>
        (∃ x, openAt e t = openAt s.e t ++ [x] ∧ x.m = w.m ∧ x.id = w.id ∧ x.addr = w.addr ∧ x.wr = w.wr ∧ x.len = w.len ∧ x.data = w.data ∧ x.dead = false)
          ∧ tget 0 e.xmem.park t = w.m + 1 ∧ (∀ u, u ≠ t → openAt e u = openAt s.e u) ∧ e.mem = s.e.mem)
    ∧ (targetOf w.addr = none → completes (.xbarGrant t [w]) s fun e =>
        tget (0, []) e.xmem.resp w.m = (1, []) ∧ getF .XBAR_ERR_VALID 0 e = 1 ∧ getF .XBAR_ERR_CODE 0 e = 1 ∧ getF .XBAR_ERR_MASTER 0 e = w.m
          ∧ e.xmem.open_ = s.e.xmem.open_))
  ∧ (∀ (s : State) (t : Nat) (ws : List XWant), (∀ w ∈ ws, w.wf = true) → s.e.held = 0 →
    let g := grantOf s.e t (ws.filter (mayStart s.e t ws))
    (g = none → completes (.xbarGrant t ws) s fun e => e.xmem.open_ = s.e.xmem.open_ ∧ e.xmem.park = s.e.xmem.park)
    ∧ ∀ w, g = some w → completes (.xbarGrant t ws) s fun e =>
      (∃ x, openAt e t = openAt s.e t ++ [x] ∧ x.m = w.m ∧ x.id = w.id ∧ x.addr = w.addr ∧ x.wr = w.wr ∧ x.len = w.len ∧ x.data = w.data ∧ x.dead = false)
        ∧ tget 0 e.xmem.park t = w.m + 1 ∧ (∀ u, u ≠ t → openAt e u = openAt s.e u))
  ∧ (∀ (s : State) (t : Nat), s.e.held = 0 → takeLive (openAt s.e t) = none →
    completes (.xbarResponse t) s (fun e => e = s.e) ∧ completes (.xbarTimeout t) s fun e => e = s.e)
  ∧ (∀ (s : State) (t : Nat) (x : XReq) (l : List XReq), s.e.held = 0 → takeLive (openAt s.e t) = some (x, l) →
    (inQueue s.e x = true → completes (.xbarResponse t) s fun e => e = s.e)
    ∧ (inQueue s.e x = false → x.queued = true → completes (.xbarResponse t) s fun e =>
        openAt e t = l ∧ tget (0, []) e.xmem.resp x.m = (x.code, x.got) ∧ e.mem = s.e.mem)
    ∧ (inQueue s.e x = false → x.queued = false → x.wr = false → t < 8 → targetOf x.addr = some t → regionOk s.e x.m x.addr x.len false = true →
        s.e.ecc = [] → completes (.xbarResponse t) s fun e =>
        openAt e t = l ∧ e.mem = s.e.mem
          ∧ tget (0, []) e.xmem.resp x.m = (0, overTables s.e (serveAt s.e x.m x.addr) (readBytes s.e (serveAt s.e x.m x.addr) x.len)))
    ∧ (inQueue s.e x = false → x.queued = false →
      let r := access (setOpen t l (bridgeTurn t x.wr s.e)) x.m x.addr x.wr false x.data x.len
      completes (.xbarResponse t) s fun e => tget (0, []) e.xmem.resp x.m = (r.code.code, r.data))
    ∧ (x.m < 64 → completes (.xbarTimeout t) s fun e =>
        tget (0, []) e.xmem.resp x.m = (2, []) ∧ getF .XBAR_ERR_CODE 0 e = 2 ∧ getF .XBAR_ERR_MASTER 0 e = x.m
          ∧ (x.queued = true → x.left ≠ 0 → openAt e t = (openAt s.e t).map (fun y => if y = x then { y with dead := true } else y) ∧ e.xmem.ddrq = s.e.xmem.ddrq)
          ∧ (x.queued = false → x.wr = false → openAt e t = l)))
  ∧ (∀ (s : State) (m a : Nat), m < 40 → s.e.held = 0 →
    completes (.requestParityError m a) s fun e => tget (0, []) e.xmem.resp m = (2, []) ∧ getF .XBAR_ERR_CODE 0 e = 3 ∧ getF .XBAR_ERR_MASTER 0 e = m
      ∧ (32 ≤ m ∨ isolatedBlock s.e m = true → e.sched = s.e.sched)
      ∧ (m < 32 → isolatedBlock s.e m = false → s.e.sched.caps.contains (.block m 7) = false → e.sched.caps = s.e.sched.caps ++ [.block m 7]))
  ∧ ∀ (s : State) (a : Nat), isPatrolled a = true → s.e.held = 0 →
    (eccAt s.e a = 0 → completes (.regionScrub a) s fun e => e = s.e)
    ∧ (2 ≤ eccAt s.e a →
      (a < 0x12000000 → s.e.sched.caps.contains (.range ((a - 0x10000000) / 0x800000) ((a - 0x10000000) % 0x800000 / 4096)) = false →
        completes (.regionScrub a) s fun e => e.sched.caps = s.e.sched.caps ++ [.range ((a - 0x10000000) / 0x800000) ((a - 0x10000000) % 0x800000 / 4096)])
      ∧ (0x20000000 ≤ a → a < 0x20800000 → completes (.regionScrub a) s fun e => resetting e 8 0 = true)
      ∧ (0x28000000 ≤ a → a < 0x29000000 → completes (.regionScrub a) s fun e =>
        getF .XBAR_MEMSTAT_UE 10 e = min (getF .XBAR_MEMSTAT_UE 10 s.e + 1) (2 ^ Fld.XBAR_MEMSTAT_UE.width - 1))
      ∧ (0x29000000 ≤ a → completes (.regionScrub a) s fun e => e.host.warmReq.isSome = true))
    ∧ ∀ t, eccAt s.e a = 1 → targetOf a = some t →
      completes (.regionScrub a) s fun e => eccAt e a = 0 ∧ e.mem = s.e.mem
        ∧ getF .XBAR_MEMSTAT_CE t e = min (getF .XBAR_MEMSTAT_CE t s.e + 1) (2 ^ Fld.XBAR_MEMSTAT_CE.width - 1)

/-- DDR_QUEUE_ENTRY, DDR_ENTRY_COMPLETE, TREFI_TICK, IDLE_BURST, TEMPERATURE_READING, RETRAINING_PAUSE, CA_PARITY_ERROR, WRITE_CRC_ERROR, DDR_SCRUB,
SELF_REFRESH_ENTRY and SELF_REFRESH_EXIT (R441–R451): a DRAM request enters the queue when its entries find room, and a whole burst completes with its bytes read, or
written; the refresh debt rises with tREFI up to its limit and falls with an idle burst; a reading above 85 °C is the hot band; drift is
recorded; an error on the command bus or a write's CRC re-issues once and counts; the scrubber goes round; and self-refresh begins
and ends with no debt. -/
def Obligations.DramIsServed : Prop :=
  (∀ (s : State) (x : XReq), s.e.held = 0 →
    (nextDram s.e = none → completes .ddrQueueEntry s fun e => e = s.e)
    ∧ (nextDram s.e = some x →
      let go := targetUp s.e x.addr = true ∧ dmDown s.e = false ∧ ownerOk s.e x.m x.addr x.len x.wr false = true
        ∧ s.e.xmem.ddrq.length + (entriesOf x).length ≤ 64
      (¬go → completes .ddrQueueEntry s fun e => e = s.e)
      ∧ (go → completes .ddrQueueEntry s fun e => e.xmem.ddrq = s.e.xmem.ddrq ++ entriesOf x
        ∧ openAt e 12 = (openAt s.e 12).map (fun y => if y = x then { y with queued := true, left := (entriesOf x).length } else y)
        ∧ getF .DDRC_STAT_QNOW 0 e = s.e.xmem.ddrq.length + (entriesOf x).length ∧ e.mem = s.e.mem)))
  ∧ (∀ (s : State) (d : DdrEntry) (l : List DdrEntry), s.e.held = 0 →
    (s.e.xmem.ddrq = [] ∨ dmDown s.e = false ∧ getF .DDRC_STAT_STATE 0 s.e ≠ 2 → completes .ddrEntryComplete s fun e => e = s.e)
    ∧ (ddrRun s.e = false ∨ s.e.xmem.ddrq = [] → completes .caParityError s (fun e => e = s.e) ∧ completes .writeCrcError s fun e => e = s.e)
    ∧ (dmDown s.e = true → s.e.xmem.ddrq = d :: l → completes .ddrEntryComplete s fun e =>
      e.mem = s.e.mem ∧ (d.rmw = false → e.xmem.ddrq = l) ∧ ∀ w k, d.rmw = true → l = w :: k → e.xmem.ddrq = { w with bad := true } :: k)
    ∧ (ddrRun s.e = true → s.e.xmem.ddrq = d :: l →
      let a := 0x1000000000 + d.off
      let spoilt := (metBy s.e a 64).any fun g => decide (2 ≤ g.2)
      (d.wr = true → completes .ddrEntryComplete s fun e => e.xmem.ddrq = l
          ∧ (d.bad = true → e.mem = s.e.mem)
          ∧ (d.bad = false → readBytes e (a + d.at_) d.data.length = d.data
            ∧ ∀ b, b < a + d.at_ ∨ a + d.at_ + d.data.length ≤ b → readByte e b = readByte s.e b))
      ∧ (d.wr = false → d.rmw = false ∨ spoilt = false → completes .ddrEntryComplete s fun e => e.xmem.ddrq = l)
      ∧ (d.wr = false → d.rmw = true → spoilt = true → ∀ w k, l = w :: k → completes .ddrEntryComplete s fun e => e.xmem.ddrq = { w with bad := true } :: k)
      ∧ (d.wr = false → d.rmw = false → metBy s.e a 64 = [] → ∀ x, openAt s.e 12 = [x] → x.queued = true → x.left = 1 → x.dead = false → x.code = 0 →
        completes .ddrEntryComplete s fun e => e.xmem.ddrq = l ∧ e.mem = s.e.mem
          ∧ openAt e 12 = [{ x with left := 0, got := x.got ++ readBytes s.e (a + d.at_) d.len }]))
    ∧ (ddrRun s.e = true → s.e.xmem.ddrq = d :: l → d.retried = true → (s.e.xmem.caFails.filter fun f => decide (frameNo s.e ≤ f + secondFrames s.e)) = [] →
      completes .caParityError s fun e => e.xmem.ddrq = (d :: l).dropWhile (·.retried))
    ∧ (ddrRun s.e = true → s.e.xmem.ddrq = d :: l → d.wr = false → completes .writeCrcError s fun e => e = s.e)
    ∧ (ddrRun s.e = true → s.e.xmem.ddrq = d :: l → d.wr = true → d.crc = true → completes .writeCrcError s fun e => e.xmem.ddrq = l)
    ∧ (ddrRun s.e = true → s.e.xmem.ddrq = d :: l → d.retried = false →
      completes .caParityError s fun e => e.xmem.ddrq = (d :: l).map (fun x => { x with retried := true })
        ∧ getF .DDRC_UE_CARETRY 0 e = min (getF .DDRC_UE_CARETRY 0 s.e + 1) (2 ^ Fld.DDRC_UE_CARETRY.width - 1) ∧ 1 ≤ getF .HOST_RST_STAT_LEVEL 0 e)
    ∧ (ddrRun s.e = true → s.e.xmem.ddrq = d :: l → d.wr = true → d.crc = false →
      completes .writeCrcError s fun e => e.xmem.ddrq = { d with crc := true } :: l
        ∧ getF .DDRC_UE_WCRETRY 0 e = min (getF .DDRC_UE_WCRETRY 0 s.e + 1) (2 ^ Fld.DDRC_UE_WCRETRY.width - 1) ∧ 1 ≤ getF .HOST_RST_STAT_LEVEL 0 e))
  ∧ (∀ s : State, s.e.held = 0 →
    (ddrRun s.e = false → completes .trefiTick s (fun e => e = s.e) ∧ completes .idleBurst s (fun e => e = s.e) ∧ completes .ddrScrub s (fun e => e = s.e)
      ∧ completes .selfRefreshEntry s fun e => e = s.e)
    ∧ (ddrRun s.e = true → s.e.xmem.debt ≤ refreshLimit s.e →
      completes .trefiTick s fun e => e.xmem.debt = min (s.e.xmem.debt + 1) (refreshLimit s.e) ∧ getF .DDRC_REF_DEBT 0 e = e.xmem.debt)
    ∧ (ddrRun s.e = true → s.e.xmem.ddrq = [] → completes .idleBurst s fun e => e.xmem.debt = s.e.xmem.debt - 1)
    ∧ (ddrRun s.e = true → s.e.xmem.ddrq ≠ [] → completes .idleBurst s fun e => e = s.e)
    ∧ (ddrRun s.e = true → refreshLimit s.e < s.e.xmem.debt → completes .trefiTick s fun e => e.xmem.debt = s.e.xmem.debt)
    ∧ (getF .DDRC_SCRUB_EN 0 s.e = 0 ∨ s.e.xmem.ddrq ≠ [] → completes .ddrScrub s fun e => e = s.e)
    ∧ (ddrRun s.e = true → getF .DDRC_SCRUB_EN 0 s.e = 1 → s.e.xmem.ddrq = [] →
      completes .ddrScrub s fun e => e.xmem.scrubAt = if s.e.xmem.scrubAt + 64 < ddrSize s.e then s.e.xmem.scrubAt + 64 else 0)
    ∧ (getF .DDRC_SR_SREN 0 s.e = 0 ∨ inQuiescent s.e = false ∨ s.e.xmem.ddrq ≠ [] → completes .selfRefreshEntry s fun e => e = s.e)
    ∧ (ddrRun s.e = true → getF .DDRC_SCRUB_EN 0 s.e = 1 → s.e.xmem.ddrq = [] → s.e.ecc = [] → rankOut s.e (0x1000000000 + s.e.xmem.scrubAt) = false →
      completes .ddrScrub s fun e => e.xmem.scrubAt = (if s.e.xmem.scrubAt + 64 < ddrSize s.e then s.e.xmem.scrubAt + 64 else 0) ∧ e.mem = s.e.mem
        ∧ e.ecc = [])
    ∧ (ddrRun s.e = true → getF .DDRC_SR_SREN 0 s.e = 1 → inQuiescent s.e = true → s.e.xmem.ddrq = [] →
      completes .selfRefreshEntry s fun e => getF .DDRC_STAT_STATE 0 e = 4 ∧ e.xmem.debt = 0 ∧ getF .DDRC_REF_DEBT 0 e = 0 ∧ e.mem = s.e.mem)
    ∧ (getF .DDRC_STAT_STATE 0 s.e = 4 → inQuiescent s.e = true → s.e.xmem.ddrq = [] → nextDram s.e = none → completes .selfRefreshExit s fun e => e = s.e)
    ∧ (getF .DDRC_STAT_STATE 0 s.e = 4 → inQuiescent s.e = false ∨ s.e.xmem.ddrq ≠ [] ∨ nextDram s.e ≠ none →
      completes .selfRefreshExit s fun e => getF .DDRC_STAT_STATE 0 e = 2 ∧ e.xmem.debt = 0 ∧ e.mem = s.e.mem)
    ∧ (getF .DDRC_STAT_STATE 0 s.e ≠ 4 → completes .selfRefreshExit s fun e => e = s.e))
  ∧ (∀ (s : State) (v : Int), s.e.held = 0 → getF .DDRC_STAT_STATE 0 s.e ≠ 0 → getF .DDRC_TEMP_SRC 0 s.e = 0 → -128 ≤ v → v < 128 →
    completes (.temperatureReading (some v)) s (fun e => getF .DDRC_TEMP_LAST 0 e = (v % 256).toNat ∧ getF .DDRC_STAT_SENSFAIL 0 e = 0
      ∧ (85 < v → getF .DDRC_STAT_HOT 0 e = 1 ∧ getF .DDRC_STAT_WARM 0 e = 0)
      ∧ (getF .DDRC_STAT_HOT 0 s.e = 0 → v ≤ 85 → getF .DDRC_STAT_HOT 0 e = 0
          ∧ ((getF .DDRC_TEMPCFG_TWARM 0 s.e : Int) ≤ v → getF .DDRC_STAT_WARM 0 e = 1)))
    ∧ (s.e.xmem.noSens < 2 → completes (.temperatureReading none) s fun e => e = { s.e with xmem := { s.e.xmem with noSens := s.e.xmem.noSens + 1 } })
    ∧ (2 ≤ s.e.xmem.noSens → completes (.temperatureReading none) s fun e => getF .DDRC_STAT_SENSFAIL 0 e = 1 ∧ getF .DDRC_STAT_HOT 0 e = 1))
  ∧ (∀ (s : State) (v : Option Int), s.e.held = 0 →
    (getF .DDRC_STAT_STATE 0 s.e = 0 → completes (.temperatureReading v) s fun e => e = s.e)
    ∧ (getF .DDRC_STAT_STATE 0 s.e ≠ 0 → getF .DDRC_TEMP_SRC 0 s.e = 1 →
      completes (.temperatureReading none) s (fun e => getF .DDRC_STAT_HOT 0 e = 1 ∧ getF .DDRC_STAT_SENSFAIL 0 e = getF .DDRC_STAT_SENSFAIL 0 s.e)
      ∧ ∀ x, v = some x → completes (.temperatureReading v) s fun e => getF .DDRC_TEMP_LAST 0 e = getF .DDRC_TEMP_HOSTVAL 0 s.e ∧ e.xmem.noSens = 0))
  ∧ ∀ (s : State) (rank used : Nat), rank < 2 → s.e.held = 0 →
    (getF .DDRC_CFG_RANKS 0 s.e < rank → completes (.retrainingPause rank used) s fun e => e = s.e)
    ∧ (ddrRun s.e = true → rank ≤ getF .DDRC_CFG_RANKS 0 s.e → completes (.retrainingPause rank used) s fun e => tget 0 e.xmem.drift rank = used)
    ∧ (ddrRun s.e = false → completes (.retrainingPause rank used) s fun e => e = s.e)
    ∧ (ddrRun s.e = true → rank ≤ getF .DDRC_CFG_RANKS 0 s.e → used ≤ 75 →
      completes (.retrainingPause rank used) s fun e => tget 0 e.xmem.drift rank = used ∧ e.regs = s.e.regs ∧ e.mem = s.e.mem)
    ∧ (ddrRun s.e = true → rank ≤ getF .DDRC_CFG_RANKS 0 s.e → 100 < used → s.e.ctl.resetFn = [] →
      completes (.retrainingPause rank used) s fun e => tget 0 e.xmem.drift rank = used ∧ getF .DDRC_STAT_STATE 0 e = 6 ∧ e.ctl.resetFn = [(6, 0, 0, 8)])

/-! ### The host, power and boot (chapter 15) -/

/-- REGISTER_WRITE, RC_READ, LATCHING_READ, SYS_FRAME_CFG_WRITE, BAR0_ACCESS, BAR2_ACCESS and CONFIGURATION_REQUEST (R11, R53, R80, R454–R456, R461, R504): in the blocks
without rules of their own a write stores its RW fields, clears the RW1C bits written 1 and leaves the rest; a read answers the word of the
register's fields and returns RC fields to reset; reading a low word latches the high one; SYS_FRAME_CFG is written in Quiescent only; a BAR0 access of another size than
an aligned double word fails, and an aligned one is the register access; a BAR2 read outside every target is unsupported, and one of region
SRAM answers its bytes; the device ID is 0x0640. -/
def Obligations.RegistersAnswer : Prop :=
  (∀ (s : State) (b off v : Nat), b = 5 ∨ b = 6 ∨ b = 8 ∨ b = 11 → off < 0x8000 → off % 4 = 0 → v < 2 ^ 32 → s.e.held = 0 →
    completes (.registerWrite b off v) s fun e => e = { s.e with regs := e.regs }
      ∧ (∀ r i, (r, i) ∈ rowsAt b off → (r.acc = .RW → r.chk = .any → getF r.fld i e = v / 2 ^ r.lo % 2 ^ r.fld.width)
          ∧ (r.acc = .RO → getF r.fld i e = getF r.fld i s.e)
          ∧ (r.acc = .RW1C → getF r.fld i e = getF r.fld i s.e &&& (2 ^ r.fld.width - 1 - v / 2 ^ r.lo % 2 ^ r.fld.width)))
      ∧ ∀ f i, (∀ r, (r, i) ∈ rowsAt b off → r.fld ≠ f) → getF f i e = getF f i s.e)
  ∧ (∀ (s : State) (b off : Nat), b < 13 → off < 0x8000 → off % 4 = 0 → s.e.held = 0 → rowsAt b off ≠ [] → (b = 1 → off ≠ 0x44) → (b = 0 → off ≠ 0x248) →
      (b = 6 → off ≠ 0) →
    (isLatched b off = false →
      completes (.rcRead b off) s fun e => e.host.rd = leBytes (wordOf s.e (rowsAt b off)) 4 ∧ e.host.rdStatus = 0 ∧ e.mem = s.e.mem
        ∧ ∀ r i, (r, i) ∈ rowsAt b off → getF r.fld i e = if r.acc = .RC then r.fld.reset i % 2 ^ r.fld.width else getF r.fld i s.e)
    ∧ (isLatched b off = true → ∀ l, tget 0 s.e.latch (latchKey b off) = l + 1 →
      completes (.rcRead b off) s fun e => e.host.rd = leBytes l 4)
    ∧ ∀ o, latchedBy b off = [o] →
      completes (.latchingRead b off 0) s fun e => e.host.rd = leBytes (wordOf s.e (rowsAt b off)) 4
        ∧ tget 0 e.latch (latchKey b o) = wordOf s.e (rowsAt b o) + 1)
  ∧ (∀ (s : State) (v : Nat), v < 2 ^ 32 → s.e.held = 0 →
    (inQuiescent s.e = false → completes (.sysFrameCfgWrite v) s fun e => getF .SYS_FRAME_CFG_REJ 0 e = 1 ∧ onlyFields [.SYS_FRAME_CFG_REJ] s.e e)
    ∧ (inQuiescent s.e = true → 2 ≤ v / 32 % 8 → v / 32 % 8 ≤ 6 → v / 8 % 4 ≤ 2 → v % 8 ≤ 3 →
      completes (.sysFrameCfgWrite v) s fun e =>
        getF .SYS_FRAME_CFG_FLOG 0 e = v / 32 % 8 ∧ getF .SYS_FRAME_CFG_PULL 0 e = v / 8 % 4 ∧ getF .SYS_FRAME_CFG_RATE 0 e = v % 8
          ∧ (v / 32 % 8 ≠ getF .SYS_FRAME_CFG_FLOG 0 s.e ∨ v % 8 ≠ getF .SYS_FRAME_CFG_RATE 0 s.e → e.sched.stale = true)))
  ∧ (∀ (s : State) (off n v : Nat), off < 0x10000 → 1 ≤ n → n ≤ 4096 → s.e.held = 0 →
    (n ≠ 4 ∨ off % 4 ≠ 0 →
      completes (.bar0Access off n true v) s (fun e => getF .HOST_PCIE_STAT_WERR 0 e
          = min (getF .HOST_PCIE_STAT_WERR 0 s.e + 1) (2 ^ Fld.HOST_PCIE_STAT_WERR.width - 1) ∧ e.host.aer = true ∧ onlyFields [.HOST_PCIE_STAT_WERR] { s.e with host := e.host } e)
      ∧ completes (.bar0Access off n false v) s fun e => e.host.rdStatus = 2 ∧ e.regs = s.e.regs ∧ e.mem = s.e.mem)
    ∧ (off % 4 = 0 → off < 0x4000 → v < 2 ^ 32 → s.e.xmem.posted = [] →
      completes (.bar0Access off 4 true v) s fun e => ∀ t, exec (.registerWrite 1 off v) s = .next t → e = t.e))
  ∧ (∀ (s : State) (off n : Nat), off < 0x10000000 → 1 ≤ n → n ≤ 4096 → s.e.held = 0 → s.e.xmem.posted = [] → bar2At s.e off % 512 + n ≤ 512 →
    (targetOf (bar2At s.e off) = none →
      completes (.bar2Access off false [] n) s (fun e => e.host.rdStatus = 1 ∧ getF .XBAR_ERR_CODE 0 e = 1 ∧ getF .XBAR_ERR_MASTER 0 e = 39)
      ∧ ∀ bs, bs.length = n → completes (.bar2Access off true bs 0) s fun e => e.host.aer = true ∧ getF .XBAR_ERR_CODE 0 e = 1)
    ∧ ∀ t, t < 8 → targetOf (bar2At s.e off) = some t → regionOk s.e 39 (bar2At s.e off) n false = true → s.e.ecc = [] →
      completes (.bar2Access off false [] n) s fun e => e.host.rd = overTables s.e (bar2At s.e off) (readBytes s.e (bar2At s.e off) n) ∧ e.host.rdStatus = 0 ∧ e.mem = s.e.mem)
  ∧ ∀ s : State,
    completes (.configurationRequest 0 false 0) s (fun e => (e.host.rd.drop 2).map (·.toNat) = [0x40, 0x06] ∧ e.regs = s.e.regs)
    ∧ ∀ v, v < 2 ^ 32 → completes (.configurationRequest 0x10 true v) s fun e => tget 0 e.host.cfg 0x10 = v / 65536 * 65536 ∧ e.regs = s.e.regs

/-- LINK_DOWN, PCIE_LINK_UP, MSI_X_MESSAGE, OUTBOUND_READ_ERROR, MANIFEST_WRITE, MANIFEST_VERIFIED, QSPI_COMMAND and QSPI_COMMAND_COMPLETE (R454, R457–R459, R463, R470): the link's
loss disables every command ring and is recorded, its return shows speed and width; an unmasked vector that has fired sends its message once; a read error
on a ring halts it, one on a payload fails the directive with 0x0105; a verified manifest replaces the old one; and the flash is commanded
in Quiescent only. -/
def Obligations.HostLinkWorks : Prop :=
  (∀ (s : State) (k c : Nat), k < 8 → c < 5 → s.e.held = 0 →
    completes (.linkDown c) s fun e => getF .HOST_CR_CFG_EN k e = 0 ∧ e.host.linkOff = true
      ∧ (c = 0 → getF .HOST_PCIE_STAT_LINKUP 0 e = 0 ∧ getF .HOST_PCIE_STAT_DOWNS 0 e = 1)
      ∧ (c ≠ 0 → getF .HOST_PCIE_STAT_LINKUP 0 e = getF .HOST_PCIE_STAT_LINKUP 0 s.e) ∧ e.mix = s.e.mix ∧ e.sched = s.e.sched)
  ∧ (∀ (s : State) (sp w : Nat), 1 ≤ sp → sp ≤ 4 → [1, 2, 4].contains w = true →
    completes (.pcieLinkUp sp w) s fun e => getF .HOST_PCIE_STAT_LINKUP 0 e = 1 ∧ getF .HOST_PCIE_STAT_SPEED 0 e = sp ∧ getF .HOST_PCIE_STAT_WIDTH 0 e = w
      ∧ e.host.linkOff = false ∧ e.mem = s.e.mem)
  ∧ (∀ (s : State) (v : Nat), v < 64 → s.e.held = 0 →
    (tget false s.e.ctl.msi v = true → msixWord s.e (4 * v + 3) % 2 = 0 → s.e.host.linkOff = false →
      completes (.msiXMessage v) s fun e => tget false e.ctl.msi v = false ∧ e.regs = s.e.regs
        ∧ e.host.msiOut = some (v, 2 ^ 32 * msixWord s.e (4 * v + 1) + msixWord s.e (4 * v), msixWord s.e (4 * v + 2)))
    ∧ (tget false s.e.ctl.msi v = false ∨ msixWord s.e (4 * v + 3) % 2 = 1 ∨ s.e.host.linkOff = true → completes (.msiXMessage v) s fun e => e = s.e))
  ∧ (∀ (s : State) (k : Nat) (cto : Bool), k < 8 → s.e.held = 0 → openTxn s.e k = none →
    completes (.outboundReadError k false cto) s (fun e => getF .HOST_CR_STAT_HALT k e = 1 ∧ getF .HOST_CR_HEAD_HEAD k e = getF .HOST_CR_HEAD_HEAD k s.e
      ∧ getF .HOST_PCIE_STAT_CTO 0 e = min (getF .HOST_PCIE_STAT_CTO 0 s.e + cto.toNat) (2 ^ Fld.HOST_PCIE_STAT_CTO.width - 1))
    ∧ ∀ f, (getRing s.e k).active = true → (getRing s.e k).hold = none → frontOf (getRing s.e k).words = some f → restful k (popDir k s.e) →
      completes (.outboundReadError k true false) s fun e => ∃ r : Word64, completed k (compWord f.tag 0x0105 f.op false) r s.e e)
  ∧ (∀ (s : State) (hi : Nat) (l : List (Nat × Nat × Nat)), hi < 2 ^ 32 → s.e.held = 0 →
    completes (.manifestWrite hi) s (fun e => getF .HOST_PROGMAN_HI_MAN 0 e = hi % 2 ^ Fld.HOST_PROGMAN_HI_MAN.width ∧ e.host.manBusy = true
      ∧ e.host.manifest = s.e.host.manifest)
    ∧ (s.e.host.manBusy = false → ∀ ok, completes (.manifestVerified ok l) s fun e => e = s.e)
    ∧ (s.e.host.manBusy = true →
      completes (.manifestVerified true l) s (fun e => e.host.manifest = l ∧ e.host.manBusy = false ∧ getF .HOST_BOOT_STAT_MANOK 0 e = 1)
      ∧ completes (.manifestVerified false l) s fun e => e.host.manifest = s.e.host.manifest ∧ e.host.manBusy = false
        ∧ getF .HOST_BOOT_STAT_MANOK 0 e = getF .HOST_BOOT_STAT_MANOK 0 s.e))
  ∧ ∀ (s : State) (v : Nat) (bs : List Byte), v < 2 ^ 32 → s.e.held = 0 →
    (2 ^ 31 ≤ v → inQuiescent s.e = false → completes (.qspiCommand v) s fun e => e = s.e)
    ∧ (2 ^ 31 ≤ v → inQuiescent s.e = true → completes (.qspiCommand v) s fun e => getF .HOST_QSPI_CTL_BUSY 0 e = 1 ∧ getF .HOST_QSPI_CTL_HOSTEN 0 e = 1)
    ∧ (getF .HOST_QSPI_CTL_BUSY 0 s.e = 0 → completes (.qspiCommandComplete bs) s fun e => e = s.e)
    ∧ (getF .HOST_QSPI_CTL_BUSY 0 s.e = 1 → bs ≠ [] → completes (.qspiCommandComplete bs) s fun e => getF .HOST_QSPI_CTL_BUSY 0 e = 0
        ∧ e.host.qfifo = (s.e.host.qfifo ++ bs).take 256 ∧ onlyFields [.HOST_QSPI_CTL_BUSY] { s.e with host := e.host } e)
/-- RUN_REQUEST, QUIESCENT_REQUEST, RETAIN_REQUEST, RETAIN_WAKE, AO_PTP_SET, VBAT_LOSS, THERMAL_SAMPLE, DOMAIN_LOSS_OF_LOCK and
SUB_QUEUE_PARITY_ERROR (R20, R45, R473, R474, R499): a request waits for the tick, which goes from Run to Quiescent and back, and rejects Retain
from Run; a wake from Retain raises CORE_ON; the counter takes the seconds of the locked clock; a lost battery leaves memory and every other field
alone; a sample shows the temperature, its maximum, and whether the alarm is passed; a domain that loses lock is LOST and not LOCKED from the next
tick on; and a parity error re-initialises the region's dispatch. -/
def Obligations.PowerStatesAreRequested : Prop :=
  (∀ p ∈ ([(0, .runRequest), (1, .quiescentRequest), (2, .retainRequest)] : List (Nat × Instr)), ∀ s : State, s.e.held = 0 →
    completes p.2 s fun e => getF .HOST_PWR_CTL_REQ 0 e = p.1 ∧ e.host = { s.e.host with pwrReq := some p.1 }
      ∧ onlyFields [.HOST_PWR_CTL_REQ] { s.e with host := e.host } e)
  ∧ (∀ e : Engine,
    (e.host.pwrReq = some 1 → getF .HOST_PWR_STAT_STATE 0 e = 0 → getF .HOST_PWR_STAT_STATE 0 (powerTick e) = 1 ∧ (powerTick e).sched.running = false)
    ∧ (e.host.pwrReq = some 0 → getF .HOST_PWR_STAT_STATE 0 e = 1 → e.sched.stale = false → getF .HOST_PWR_STAT_STATE 0 (powerTick e) = 0)
    ∧ (e.host.pwrReq = some 2 → getF .HOST_PWR_STAT_STATE 0 e = 1 → getF .HOST_PWR_STAT_STATE 0 (powerTick e) = 2 ∧ (powerTick e).held / 64 % 2 = 1)
    ∧ (e.host.pwrReq = some 2 → getF .HOST_PWR_STAT_STATE 0 e = 0 →
      getF .HOST_PWR_STAT_STATE 0 (powerTick e) = 0 ∧ getF .HOST_PWR_STAT_REJ 0 (powerTick e) = 1 ∧ (powerTick e).mem = e.mem))
  ∧ (∀ (s : State) (alarm : Bool),
    (s.e.held / 64 % 2 = 0 → completes (.retainWake alarm) s fun e => e = s.e)
    ∧ (s.e.held = 64 → (alarm = true → getF .SYS_AO_CFG_ALEN 0 s.e = 1) → completes (.retainWake alarm) s fun e => getF .HOST_PWR_STAT_WAKE 0 e = (if alarm then 2 else 1) ∧ e.host.coreOn = true ∧ e.held = 8
      ∧ e.mem = s.e.mem ∧ getF .SYS_AO_STAT_HEAD 0 e = (getF .SYS_AO_STAT_HEAD 0 s.e + 1) % 32
      ∧ (alarm = true → getF .SYS_AO_STAT_ALARMED 0 e = 1))
    ∧ (alarm = true → getF .SYS_AO_CFG_ALEN 0 s.e = 0 → completes (.retainWake alarm) s fun e => e = s.e))
  ∧ (∀ (s : State) (t : Nat), s.e.held = 0 →
    (supUp s.e = true → getF .SYS_AO_CFG_PTPSET 0 s.e = 1 → s.e.ptp.locked = true →
      completes (.aoPtpSet t) s fun e => aoSec e = clockNs s.e t / 1000000000 % 2 ^ 40 ∧ onlyFields [.SYS_AO_SEC_LO_SEC, .SYS_AO_SEC_HI_SEC] s.e e)
    ∧ (supUp s.e = false ∨ getF .SYS_AO_CFG_PTPSET 0 s.e = 0 ∨ s.e.ptp.locked = false → completes (.aoPtpSet t) s fun e => e = s.e))
  ∧ (∀ s : State, completes .vbatLoss s fun e => e.host = { s.e.host with vbLost := true } ∧ e.mem = s.e.mem
      ∧ onlyFields [.SYS_AO_SEC_LO_SEC, .SYS_AO_SEC_HI_SEC, .SYS_AO_STAT_HEAD, .SYS_AO_LOG_LOG] { s.e with host := e.host, free := e.free } e)
  ∧ (∀ (s : State) (t : Int), -128 ≤ t → t < 128 → s.e.held = 0 →
    completes (.thermalSample t) s fun e => signed 8 (getF .SYS_TEMP_CUR 0 e) = t
      ∧ signed 8 (getF .SYS_TEMP_MAX 0 e) = max (signed 8 (getF .SYS_TEMP_MAX 0 s.e)) t
      ∧ (signed 8 (getF .SYS_TEMP_TALARM 0 s.e) ≤ t → e.host.hot = true)
      ∧ (t < signed 8 (getF .SYS_TEMP_TALARM 0 s.e) - 5 → e.host.hot = false)
      ∧ (signed 8 (getF .SYS_TEMP_TALARM 0 s.e) - 5 ≤ t → t < signed 8 (getF .SYS_TEMP_TALARM 0 s.e) → e.host.hot = s.e.host.hot))
  ∧ (∀ (s : State) (d : Nat), 1 ≤ d → d < 9 → s.e.held = 0 →
    completes (.domainLossOfLock d) s fun e => e = { s.e with health := { s.e.health with domLost := setBit s.e.health.domLost d true } })
  ∧ (∀ (e : Engine) (d : Nat), d < 9 →
    (e.health.domLost / 2 ^ d % 2 = 1 → bitF .SYS_DOMAIN_STAT_LOST 0 d (showDomains e) = true ∧ bitF .SYS_DOMAIN_STAT_LOCKED 0 d (showDomains e) = false)
    ∧ (e.health.domLost / 2 ^ d % 2 = 0 → bitF .SYS_DOMAIN_STAT_LOST 0 d (showDomains e) = bitF .SYS_DOMAIN_STAT_LOST 0 d e
        ∧ bitF .SYS_DOMAIN_STAT_LOCKED 0 d (showDomains e) = bitF .SYS_DOMAIN_STAT_LOCKED 0 d e)
    ∧ (showDomains e).health = { e.health with domLost := 0 })
  ∧ ∀ (s : State) (r : Nat), r < 4 → s.e.held = 0 →
    completes (.subQueueParityError r) s fun e => (5, r, 0, 8) ∈ e.ctl.resetFn ∧ (resetBusy s.e 5 r = false → 2 ≤ getF .HOST_RST_STAT_LEVEL 0 e)
      ∧ e.health.recs = s.e.health.recs ++ [(3, 9, 65536 * r + 0xFFFF, frameNo s.e)]

/-- COLD_RESET, BOOT_READY, GO, COMMITSVN, HOST_PUSH_TIMEOUT, OSC_IN_LOSS, OSC_IN_RESTORE, THERMAL_TRIP, THERMAL_TRIP_RELEASE, SUPPLY_MONITOR_TRIP and
BOUNDARY_SCAN_TEST_MODE (R45, R46, R466, R468–R472, R489, R499): a cause of cold reset holds the engine and gives every register outside the always-on
domain its reset value; with the last one gone boot starts from the source that BOOT_SEL names; an image with an accepted SVN ends boot in
Quiescent with the supervisor running, and with the AVS fault where the regulator reports no linear format; one too old or unverified halts it or waits for a push; and COMMITSVN raises the least SVN accepted. -/
def Obligations.ColdResetAndBoot : Prop :=
  (∀ (s : State) (b : Nat) (i : Instr), s.e.held = 0 ∨ s.e.held = 32 →
    ((∃ pwr sel f, sel < 4 ∧ i = .coldReset true pwr sel f) ∧ b = 3 ∨ (∃ c, i = .supplyMonitorTrip c) ∧ b = 3 ∨ i = .oscInLoss ∧ b = 0 ∨ i = .thermalTrip ∧ b = 1
      ∨ i = .boundaryScanTestMode true ∧ b = 4) →
    completes i s fun e => e.held = 2 ^ b ∧ (∀ f j, aoFields.contains f = false → getF f j e = getF f j State.reset.e)
      ∧ getF .SYS_FUSE_SVNMIN 0 e = getF .SYS_FUSE_SVNMIN 0 s.e ∧ aoSec e = aoSec s.e ∧ e.cells = [] ∧ e.sched = State.reset.e.sched ∧ e.mix = State.reset.e.mix
      ∧ (∀ a, a < 0x1800000000 → e.mem.all (fun c => decide (c.1 ≠ a)) = true))
  ∧ (∀ (s : State) (pwr f : Bool) (i : Instr),
    (∃ sel, sel < 4 ∧ sel ≠ 3 ∧ i = .coldReset false pwr sel f ∧ s.e.held = 8
      ∨ i = .oscInRestore ∧ s.e.held = 1 ∧ sel = getF .HOST_BOOT_STAT_BOOTSEL 0 s.e ∧ sel ≠ 3
      ∨ i = .thermalTripRelease ∧ s.e.held = 2 ∧ sel = getF .HOST_BOOT_STAT_BOOTSEL 0 s.e ∧ sel ≠ 3
      ∨ i = .boundaryScanTestMode false ∧ s.e.held = 16 ∧ sel = getF .HOST_BOOT_STAT_BOOTSEL 0 s.e ∧ sel ≠ 3) →
    completes i s fun e => e.held = 0 ∧ getF .SYS_DOMAIN_STAT_LOCKED 0 e = 0x1FF ∧ e.mem = s.e.mem
      ∧ getF .HOST_BOOT_STAT_STAGE 0 e = if getF .HOST_BOOT_STAT_BOOTSEL 0 e = 1 then 2 else 1)
  ∧ (∀ (s : State) (pwr f : Bool), s.e.held = 8 →
    completes (.coldReset false pwr 3 f) s fun e => getF .HOST_BOOT_STAT_STAGE 0 e = 5 ∧ getF .HOST_BOOT_STAT_ERR 0 e = 4 ∧ getF .CLK_OSC_F10 0 e = f.toNat)
  ∧ (∀ (s : State) (ok slotB retried keepOk linear uart : Bool) (svn ddr : Nat) (cells : List Nat) (units : List (Bool × Nat)), s.e.held = 0 →
      (Instr.bootReady ok ⟨slotB, retried⟩ svn ddr cells units keepOk ⟨linear, uart⟩).wf = true →
    (¬ (getF .HOST_BOOT_STAT_STAGE 0 s.e = 1 ∨ getF .HOST_BOOT_STAT_STAGE 0 s.e = 3 ∨ (getF .HOST_BOOT_STAT_STAGE 0 s.e = 2 ∧ s.e.host.pushed = true)) →
      completes (.bootReady ok ⟨slotB, retried⟩ svn ddr cells units keepOk ⟨linear, uart⟩) s fun e => e = s.e)
    ∧ (getF .HOST_BOOT_STAT_STAGE 0 s.e = 1 ∨ getF .HOST_BOOT_STAT_STAGE 0 s.e = 3 ∨ (getF .HOST_BOOT_STAT_STAGE 0 s.e = 2 ∧ s.e.host.pushed = true) →
      (ok = true → getF .SYS_FUSE_SVNMIN 0 s.e ≤ svn →
        completes (.bootReady ok ⟨slotB, retried⟩ svn ddr cells units keepOk ⟨linear, uart⟩) s fun e =>
          getF .HOST_BOOT_STAT_STAGE 0 e = 4 ∧ getF .HOST_PWR_STAT_STATE 0 e = 1 ∧ getF .SYS_SUP_STAT_STATE 0 e = 1 ∧ e.host.uart = uart
            ∧ getF .HOST_BOOT_STAT_SVN 0 e = svn % 2 ^ Fld.HOST_BOOT_STAT_SVN.width ∧ getF .HOST_BOOT_STAT_SLOTB 0 e = slotB.toNat
            ∧ (linear = false → getF .SYS_AVS_STAT_FAULT 0 e = 1 ∧ e.health.avsHalt = true)
            ∧ ∀ c ∈ cells, fencedCell e c = true)
      ∧ (ok = false ∨ svn < getF .SYS_FUSE_SVNMIN 0 s.e →
        completes (.bootReady ok ⟨slotB, retried⟩ svn ddr cells units keepOk ⟨linear, uart⟩) s fun e =>
          getF .HOST_PWR_STAT_STATE 0 e = getF .HOST_PWR_STAT_STATE 0 s.e ∧ e.host.uart = uart ∧ e.host.pushed = false
            ∧ (getF .HOST_BOOT_STAT_BOOTSEL 0 s.e = 2 ∧ getF .HOST_BOOT_STAT_STAGE 0 s.e = 1 ∧ getF .HOST_BOOT_STAT_WARM 0 s.e = 0 →
                getF .HOST_BOOT_STAT_STAGE 0 e = 2)
            ∧ (¬ (getF .HOST_BOOT_STAT_BOOTSEL 0 s.e = 2 ∧ getF .HOST_BOOT_STAT_STAGE 0 s.e = 1 ∧ getF .HOST_BOOT_STAT_WARM 0 s.e = 0) →
                getF .HOST_BOOT_STAT_STAGE 0 e = 5 ∧ getF .HOST_BOOT_STAT_ERR 0 e = if ok then 2 else 1))))
  ∧ ∀ s : State, s.e.held = 0 →
    (getF .HOST_BOOT_STAT_STAGE 0 s.e ≠ 2 → completes .go s (fun e => e = s.e) ∧ completes .hostPushTimeout s fun e => e = s.e)
    ∧ (getF .HOST_BOOT_STAT_STAGE 0 s.e = 2 → completes .go s fun e => e = { s.e with host := { s.e.host with pushed := true } })
    ∧ (getF .HOST_BOOT_STAT_STAGE 0 s.e = 2 → s.e.host.pushed = false →
      completes .hostPushTimeout s fun e => getF .HOST_BOOT_STAT_STAGE 0 e = 5 ∧ getF .HOST_BOOT_STAT_ERR 0 e = 3
        ∧ onlyFields [.HOST_BOOT_STAT_STAGE, .HOST_BOOT_STAT_ERR] s.e e)
    ∧ (getF .HOST_BOOT_STAT_STAGE 0 s.e ≠ 4 → completes .commitsvn s fun e => e = s.e)
    ∧ (getF .HOST_BOOT_STAT_STAGE 0 s.e = 4 → getF .HOST_BOOT_STAT_SVN 0 s.e < 2 ^ Fld.SYS_FUSE_SVNMIN.width →
      completes .commitsvn s fun e => getF .SYS_FUSE_SVNMIN 0 e = max (getF .SYS_FUSE_SVNMIN 0 s.e) (getF .HOST_BOOT_STAT_SVN 0 s.e)
        ∧ onlyFields [.SYS_FUSE_SVNMIN] s.e e)

/-- WARM_RESET_REQUEST, POWER_CYCLE_REQUEST, FX_LOSS_OF_LOCK, WARM_RESET, WARM_RESET_DEADLINE and POWER_CYCLE (R45, R475–R480): a request without the key does
nothing; FX's loss halts the supervisor and asks for a warm reset with cause 0x05; a warm reset shows its cause, counts, boots again with the
link off, and keeps DRAM, the always-on domain and the registers of the host interface; the third within 60 s asks for a power cycle instead; and a
power cycle, asked for or after a warm reset that is late, holds the engine at level 4 with FAIL_N low. -/
def Obligations.ResetsClimbTheLadder : Prop :=
  (∀ (s : State) (v : Nat), v < 2 ^ 32 → s.e.held = 0 →
    (v / 2 ^ 16 ≠ 0x6C17 → completes (.warmResetRequest v) s (fun e => e = s.e) ∧ completes (.powerCycleRequest v) s fun e => e = s.e)
    ∧ (v / 2 ^ 16 = 0x6C17 → v % 2 = 1 →
      completes (.warmResetRequest v) s fun e => e = { s.e with host := { s.e.host with warmReq := some (s.e.host.warmReq.getD 6) } })
    ∧ (v % 2 = 0 → completes (.warmResetRequest v) s fun e => e = s.e) ∧ (v / 2 % 2 = 0 → completes (.powerCycleRequest v) s fun e => e = s.e)
    ∧ (v / 2 ^ 16 = 0x6C17 → v / 2 % 2 = 1 →
      completes (.powerCycleRequest v) s fun e => e = { s.e with host := { s.e.host with cycleReq := some 9 } }))
  ∧ (∀ s : State, s.e.held = 0 →
    completes .fxLossOfLock s fun e => e.held = 32 ∧ getF .SYS_SUP_STAT_STATE 0 e = 3 ∧ e.health.domLost % 2 = 1
      ∧ e.host.warmReq = some (s.e.host.warmReq.getD 5) ∧ pairRole e = (if pairRole s.e < 2 then 2 else pairRole s.e))
  ∧ (∀ (s : State) (lost : Bool),
    let near := s.e.host.warmAt.filter fun t => decide (aoSec s.e ≤ t + 60)
    (s.e.host.warmReq = none ∨ s.e.held % 32 ≠ 0 ∨ s.e.held / 64 % 2 = 1 → completes (.warmReset lost) s fun e => e = s.e)
    ∧ ∀ c, s.e.host.warmReq = some c → c < 16 → s.e.held % 32 = 0 → s.e.held / 64 % 2 = 0 →
      (near.length < 2 → completes (.warmReset lost) s fun e => e.held = 0 ∧ getF .HOST_BOOT_STAT_STAGE 0 e = 1 ∧ getF .HOST_BOOT_STAT_WARM 0 e = 1
          ∧ getF .HOST_RST_STAT_CAUSE 0 e = c ∧ getF .HOST_RST_STAT_WARMS 0 e = min (getF .HOST_RST_STAT_WARMS 0 s.e + 1) (2 ^ Fld.HOST_RST_STAT_WARMS.width - 1)
          ∧ 3 ≤ getF .HOST_RST_STAT_LEVEL 0 e ∧ e.host.linkOff = true ∧ e.host.warmAt = aoSec s.e :: near ∧ aoSec e = aoSec s.e
          ∧ getF .SYS_SUP_STAT_STATE 0 e = 0 ∧ getF .SYS_SUP_STAT_RESTARTS 0 e = getF .SYS_SUP_STAT_RESTARTS 0 s.e ∧ getF .SYS_DOMAIN_STAT_LOCKED 0 e = 0x1FF
          ∧ e.ctl.txns = [] ∧ e.cells = [] ∧ e.host.ackLost = (s.e.ctl.txns.filter fun t => decide (t.st = .acked)).length
          ∧ ∀ k, k < 8 → getF .HOST_CR_CFG_EN k e = 0 ∧ getF .HOST_CR_BASE_LO_BASE k e = getF .HOST_CR_BASE_LO_BASE k s.e)
      ∧ (2 ≤ near.length →
        completes (.warmReset lost) s fun e => e = { s.e with host := { s.e.host with warmReq := none, cycleReq := some 9 } }))
  ∧ ∀ (s : State) (n : Instr), s.e.held = 0 →
    ((n = .powerCycle ∧ s.e.host.cycleReq ≠ none ∨ n = .warmResetDeadline ∧ getF .HOST_BOOT_STAT_WARM 0 s.e = 1 ∧ getF .HOST_BOOT_STAT_STAGE 0 s.e ≠ 4) →
      completes n s fun e => e.held = 4 ∧ e.host.failN = true ∧ getF .HOST_RST_STAT_LEVEL 0 e = 4 ∧ getF .HOST_BOOT_STAT_STAGE 0 e = 0
        ∧ aoSec e = aoSec s.e ∧ e.cells = [] ∧ e.host.warmAt = [])
    ∧ ((n = .powerCycle ∧ s.e.host.cycleReq = none ∨ n = .warmResetDeadline ∧ (getF .HOST_BOOT_STAT_WARM 0 s.e = 0 ∨ getF .HOST_BOOT_STAT_STAGE 0 s.e = 4)) →
      completes n s fun e => e = s.e)

end Statements
end

