-- ==== Sys2Proof/Laws/Fields.lean ====
section
/-! SUPPORT. The width of each register field, as a simplification rule. -/
namespace Sys2Proof.Machine

@[simp] theorem Fld.width_SYS_ID_PART : Fld.width .SYS_ID_PART = 16 := rfl
@[simp] theorem Fld.width_SYS_ID_STEP : Fld.width .SYS_ID_STEP = 8 := rfl
@[simp] theorem Fld.width_SYS_ID_GRADE : Fld.width .SYS_ID_GRADE = 4 := rfl
@[simp] theorem Fld.width_SYS_HEALTH_CELLS : Fld.width .SYS_HEALTH_CELLS = 9 := rfl
@[simp] theorem Fld.width_SYS_HEALTH_BLOCKS : Fld.width .SYS_HEALTH_BLOCKS = 6 := rfl
@[simp] theorem Fld.width_SYS_HEALTH_REGIONS : Fld.width .SYS_HEALTH_REGIONS = 3 := rfl
@[simp] theorem Fld.width_SYS_HEALTH_SUMUNITS : Fld.width .SYS_HEALTH_SUMUNITS = 6 := rfl
@[simp] theorem Fld.width_SYS_HEALTH_QRANGES : Fld.width .SYS_HEALTH_QRANGES = 8 := rfl
@[simp] theorem Fld.width_SYS_CELL_FENCED_FENCED : Fld.width .SYS_CELL_FENCED_FENCED = 32 := rfl
@[simp] theorem Fld.width_SYS_DOMAIN_STAT_LOST : Fld.width .SYS_DOMAIN_STAT_LOST = 9 := rfl
@[simp] theorem Fld.width_SYS_DOMAIN_STAT_HOUSE_SB : Fld.width .SYS_DOMAIN_STAT_HOUSE_SB = 1 := rfl
@[simp] theorem Fld.width_SYS_DOMAIN_STAT_LOCKED : Fld.width .SYS_DOMAIN_STAT_LOCKED = 9 := rfl
@[simp] theorem Fld.width_SYS_SUM_FENCED_SUMF : Fld.width .SYS_SUM_FENCED_SUMF = 32 := rfl
@[simp] theorem Fld.width_SYS_DMA_FENCED_DMAOK : Fld.width .SYS_DMA_FENCED_DMAOK = 4 := rfl
@[simp] theorem Fld.width_SYS_DMA_FENCED_DMAF : Fld.width .SYS_DMA_FENCED_DMAF = 8 := rfl
@[simp] theorem Fld.width_SYS_CONTAIN_LAST_LEVEL : Fld.width .SYS_CONTAIN_LAST_LEVEL = 3 := rfl
@[simp] theorem Fld.width_SYS_CONTAIN_LAST_SUBSUMED : Fld.width .SYS_CONTAIN_LAST_SUBSUMED = 1 := rfl
@[simp] theorem Fld.width_SYS_CONTAIN_LAST_CAUSE : Fld.width .SYS_CONTAIN_LAST_CAUSE = 4 := rfl
@[simp] theorem Fld.width_SYS_CONTAIN_LAST_IDENT : Fld.width .SYS_CONTAIN_LAST_IDENT = 24 := rfl
@[simp] theorem Fld.width_SYS_CONTAIN_FRAME_LO_FRAME : Fld.width .SYS_CONTAIN_FRAME_LO_FRAME = 32 := rfl
@[simp] theorem Fld.width_SYS_CONTAIN_FRAME_HI_FRAME : Fld.width .SYS_CONTAIN_FRAME_HI_FRAME = 32 := rfl
@[simp] theorem Fld.width_SYS_SUP_STAT_RESTARTS : Fld.width .SYS_SUP_STAT_RESTARTS = 16 := rfl
@[simp] theorem Fld.width_SYS_SUP_STAT_STATE : Fld.width .SYS_SUP_STAT_STATE = 4 := rfl
@[simp] theorem Fld.width_SYS_SUP_STAT_LSTEP_ERR : Fld.width .SYS_SUP_STAT_LSTEP_ERR = 1 := rfl
@[simp] theorem Fld.width_SYS_QRANGE_COUNT : Fld.width .SYS_QRANGE_COUNT = 12 := rfl
@[simp] theorem Fld.width_SYS_FRAME_CFG_REJ : Fld.width .SYS_FRAME_CFG_REJ = 1 := rfl
@[simp] theorem Fld.width_SYS_FRAME_CFG_FLOG : Fld.width .SYS_FRAME_CFG_FLOG = 3 := rfl
@[simp] theorem Fld.width_SYS_FRAME_CFG_PULL : Fld.width .SYS_FRAME_CFG_PULL = 2 := rfl
@[simp] theorem Fld.width_SYS_FRAME_CFG_RATE : Fld.width .SYS_FRAME_CFG_RATE = 3 := rfl
@[simp] theorem Fld.width_SYS_FRAME_CNT_LO_FRAME : Fld.width .SYS_FRAME_CNT_LO_FRAME = 32 := rfl
@[simp] theorem Fld.width_SYS_FRAME_CNT_HI_FRAME : Fld.width .SYS_FRAME_CNT_HI_FRAME = 32 := rfl
@[simp] theorem Fld.width_SYS_WINDOW_WINDOW : Fld.width .SYS_WINDOW_WINDOW = 32 := rfl
@[simp] theorem Fld.width_SYS_PACE_RGN_LOWEST : Fld.width .SYS_PACE_RGN_LOWEST = 16 := rfl
@[simp] theorem Fld.width_SYS_PACE_RGN_NOW : Fld.width .SYS_PACE_RGN_NOW = 16 := rfl
@[simp] theorem Fld.width_SYS_PACE_STAT_SHED_ITEMS : Fld.width .SYS_PACE_STAT_SHED_ITEMS = 16 := rfl
@[simp] theorem Fld.width_SYS_PACE_STAT_SHED_CLASSES : Fld.width .SYS_PACE_STAT_SHED_CLASSES = 8 := rfl
@[simp] theorem Fld.width_SYS_PACE_STAT_LOWCNT : Fld.width .SYS_PACE_STAT_LOWCNT = 5 := rfl
@[simp] theorem Fld.width_SYS_PACE_STAT_STATE : Fld.width .SYS_PACE_STAT_STATE = 3 := rfl
@[simp] theorem Fld.width_SYS_PACE_CFG_SHED_EN : Fld.width .SYS_PACE_CFG_SHED_EN = 1 := rfl
@[simp] theorem Fld.width_SYS_PACE_CFG_REINSTATE : Fld.width .SYS_PACE_CFG_REINSTATE = 1 := rfl
@[simp] theorem Fld.width_SYS_AVS_CTL_VMIN : Fld.width .SYS_AVS_CTL_VMIN = 10 := rfl
@[simp] theorem Fld.width_SYS_AVS_CTL_ADDR : Fld.width .SYS_AVS_CTL_ADDR = 8 := rfl
@[simp] theorem Fld.width_SYS_AVS_CTL_EN : Fld.width .SYS_AVS_CTL_EN = 1 := rfl
@[simp] theorem Fld.width_SYS_AVS_STAT_NACKS : Fld.width .SYS_AVS_STAT_NACKS = 8 := rfl
@[simp] theorem Fld.width_SYS_AVS_STAT_FAULT : Fld.width .SYS_AVS_STAT_FAULT = 1 := rfl
@[simp] theorem Fld.width_SYS_AVS_STAT_AT_MAX : Fld.width .SYS_AVS_STAT_AT_MAX = 1 := rfl
@[simp] theorem Fld.width_SYS_AVS_STAT_VCMD : Fld.width .SYS_AVS_STAT_VCMD = 10 := rfl
@[simp] theorem Fld.width_SYS_CONCEAL_TOTAL_CONCEAL : Fld.width .SYS_CONCEAL_TOTAL_CONCEAL = 32 := rfl
@[simp] theorem Fld.width_SYS_LATE_FRAMES_LATE : Fld.width .SYS_LATE_FRAMES_LATE = 32 := rfl
@[simp] theorem Fld.width_SYS_CELL_THRESH_CORR_PER_S : Fld.width .SYS_CELL_THRESH_CORR_PER_S = 8 := rfl
@[simp] theorem Fld.width_SYS_CELL_THRESH_DED_PER_H : Fld.width .SYS_CELL_THRESH_DED_PER_H = 8 := rfl
@[simp] theorem Fld.width_SYS_CELL_THRESH_STUCK : Fld.width .SYS_CELL_THRESH_STUCK = 8 := rfl
@[simp] theorem Fld.width_SYS_CELL_BIST_INTERVAL : Fld.width .SYS_CELL_BIST_INTERVAL = 8 := rfl
@[simp] theorem Fld.width_SYS_CELL_BIST_LAST_CELL : Fld.width .SYS_CELL_BIST_LAST_CELL = 8 := rfl
@[simp] theorem Fld.width_SYS_CELL_BIST_FAILS : Fld.width .SYS_CELL_BIST_FAILS = 8 := rfl
@[simp] theorem Fld.width_SYS_FUSE_CELLSIGN : Fld.width .SYS_FUSE_CELLSIGN = 1 := rfl
@[simp] theorem Fld.width_SYS_FUSE_DBGLOCK : Fld.width .SYS_FUSE_DBGLOCK = 1 := rfl
@[simp] theorem Fld.width_SYS_FUSE_KEY1REV : Fld.width .SYS_FUSE_KEY1REV = 1 := rfl
@[simp] theorem Fld.width_SYS_FUSE_SVNMIN : Fld.width .SYS_FUSE_SVNMIN = 16 := rfl
@[simp] theorem Fld.width_SYS_AO_SEC_LO_SEC : Fld.width .SYS_AO_SEC_LO_SEC = 32 := rfl
@[simp] theorem Fld.width_SYS_AO_SEC_HI_SEC : Fld.width .SYS_AO_SEC_HI_SEC = 8 := rfl
@[simp] theorem Fld.width_SYS_AO_ALARM_ALARM : Fld.width .SYS_AO_ALARM_ALARM = 32 := rfl
@[simp] theorem Fld.width_SYS_AO_CFG_ALEN : Fld.width .SYS_AO_CFG_ALEN = 1 := rfl
@[simp] theorem Fld.width_SYS_AO_CFG_PTPSET : Fld.width .SYS_AO_CFG_PTPSET = 1 := rfl
@[simp] theorem Fld.width_SYS_AO_STAT_VBLOST : Fld.width .SYS_AO_STAT_VBLOST = 1 := rfl
@[simp] theorem Fld.width_SYS_AO_STAT_ALARMED : Fld.width .SYS_AO_STAT_ALARMED = 1 := rfl
@[simp] theorem Fld.width_SYS_AO_STAT_HEAD : Fld.width .SYS_AO_STAT_HEAD = 5 := rfl
@[simp] theorem Fld.width_SYS_GPIO_DIR_DIR : Fld.width .SYS_GPIO_DIR_DIR = 32 := rfl
@[simp] theorem Fld.width_SYS_GPIO_OUT_OUT : Fld.width .SYS_GPIO_OUT_OUT = 32 := rfl
@[simp] theorem Fld.width_SYS_GPIO_IN_IN : Fld.width .SYS_GPIO_IN_IN = 32 := rfl
@[simp] theorem Fld.width_SYS_GPIO_FUNC_FUNC : Fld.width .SYS_GPIO_FUNC_FUNC = 8 := rfl
@[simp] theorem Fld.width_SYS_TEMP_MAX : Fld.width .SYS_TEMP_MAX = 8 := rfl
@[simp] theorem Fld.width_SYS_TEMP_TALARM : Fld.width .SYS_TEMP_TALARM = 8 := rfl
@[simp] theorem Fld.width_SYS_TEMP_CUR : Fld.width .SYS_TEMP_CUR = 8 := rfl
@[simp] theorem Fld.width_SYS_AO_LOG_LOG : Fld.width .SYS_AO_LOG_LOG = 32 := rfl
@[simp] theorem Fld.width_SYS_CELL_STAT_STATE : Fld.width .SYS_CELL_STAT_STATE = 2 := rfl
@[simp] theorem Fld.width_SYS_CELL_STAT_DBG_EN : Fld.width .SYS_CELL_STAT_DBG_EN = 1 := rfl
@[simp] theorem Fld.width_SYS_CELL_STAT_CAUSE : Fld.width .SYS_CELL_STAT_CAUSE = 3 := rfl
@[simp] theorem Fld.width_SYS_CELL_STAT_ITEM : Fld.width .SYS_CELL_STAT_ITEM = 14 := rfl
@[simp] theorem Fld.width_SYS_CELL_ERR_CORR_1S : Fld.width .SYS_CELL_ERR_CORR_1S = 8 := rfl
@[simp] theorem Fld.width_SYS_CELL_ERR_DED_1H : Fld.width .SYS_CELL_ERR_DED_1H = 8 := rfl
@[simp] theorem Fld.width_SYS_CELL_ERR_ADDR : Fld.width .SYS_CELL_ERR_ADDR = 1 := rfl
@[simp] theorem Fld.width_SYS_CELL_ERR_PROG_DED : Fld.width .SYS_CELL_ERR_PROG_DED = 1 := rfl
@[simp] theorem Fld.width_SYS_CELL_ERR_STUCK : Fld.width .SYS_CELL_ERR_STUCK = 6 := rfl
@[simp] theorem Fld.width_SYS_CELL_CNT_OVERRUNS : Fld.width .SYS_CELL_CNT_OVERRUNS = 16 := rfl
@[simp] theorem Fld.width_SYS_CELL_CNT_TRAPS : Fld.width .SYS_CELL_CNT_TRAPS = 8 := rfl
@[simp] theorem Fld.width_SYS_CELL_CNT_STALLS : Fld.width .SYS_CELL_CNT_STALLS = 8 := rfl
@[simp] theorem Fld.width_SYS_CELL_LASTERR_VALID : Fld.width .SYS_CELL_LASTERR_VALID = 1 := rfl
@[simp] theorem Fld.width_SYS_CELL_LASTERR_PROG : Fld.width .SYS_CELL_LASTERR_PROG = 1 := rfl
@[simp] theorem Fld.width_SYS_CELL_LASTERR_DED : Fld.width .SYS_CELL_LASTERR_DED = 1 := rfl
@[simp] theorem Fld.width_SYS_CELL_LASTERR_BANK : Fld.width .SYS_CELL_LASTERR_BANK = 2 := rfl
@[simp] theorem Fld.width_SYS_CELL_LASTERR_SYNDROME : Fld.width .SYS_CELL_LASTERR_SYNDROME = 9 := rfl
@[simp] theorem Fld.width_SYS_CELL_LASTERR_ADDR : Fld.width .SYS_CELL_LASTERR_ADDR = 18 := rfl
@[simp] theorem Fld.width_HOST_PCIE_STAT_SPEED : Fld.width .HOST_PCIE_STAT_SPEED = 4 := rfl
@[simp] theorem Fld.width_HOST_PCIE_STAT_WIDTH : Fld.width .HOST_PCIE_STAT_WIDTH = 4 := rfl
@[simp] theorem Fld.width_HOST_PCIE_STAT_LINKUP : Fld.width .HOST_PCIE_STAT_LINKUP = 1 := rfl
@[simp] theorem Fld.width_HOST_PCIE_STAT_DOWNS : Fld.width .HOST_PCIE_STAT_DOWNS = 1 := rfl
@[simp] theorem Fld.width_HOST_PCIE_STAT_OUTRNG : Fld.width .HOST_PCIE_STAT_OUTRNG = 1 := rfl
@[simp] theorem Fld.width_HOST_PCIE_STAT_CTO : Fld.width .HOST_PCIE_STAT_CTO = 8 := rfl
@[simp] theorem Fld.width_HOST_PCIE_STAT_WERR : Fld.width .HOST_PCIE_STAT_WERR = 8 := rfl
@[simp] theorem Fld.width_HOST_BAR2_BASE_LO_BASE : Fld.width .HOST_BAR2_BASE_LO_BASE = 12 := rfl
@[simp] theorem Fld.width_HOST_BAR2_BASE_HI_BASE : Fld.width .HOST_BAR2_BASE_HI_BASE = 8 := rfl
@[simp] theorem Fld.width_HOST_OUTB_BASE_LO_OUTB : Fld.width .HOST_OUTB_BASE_LO_OUTB = 20 := rfl
@[simp] theorem Fld.width_HOST_OUTB_BASE_HI_OUTB : Fld.width .HOST_OUTB_BASE_HI_OUTB = 32 := rfl
@[simp] theorem Fld.width_HOST_REGWIN_BLK : Fld.width .HOST_REGWIN_BLK = 4 := rfl
@[simp] theorem Fld.width_HOST_BOOT_STAT_STAGE : Fld.width .HOST_BOOT_STAT_STAGE = 4 := rfl
@[simp] theorem Fld.width_HOST_BOOT_STAT_ERR : Fld.width .HOST_BOOT_STAT_ERR = 4 := rfl
@[simp] theorem Fld.width_HOST_BOOT_STAT_SLOTB : Fld.width .HOST_BOOT_STAT_SLOTB = 1 := rfl
@[simp] theorem Fld.width_HOST_BOOT_STAT_WARM : Fld.width .HOST_BOOT_STAT_WARM = 1 := rfl
@[simp] theorem Fld.width_HOST_BOOT_STAT_KEEPOK : Fld.width .HOST_BOOT_STAT_KEEPOK = 1 := rfl
@[simp] theorem Fld.width_HOST_BOOT_STAT_MANOK : Fld.width .HOST_BOOT_STAT_MANOK = 1 := rfl
@[simp] theorem Fld.width_HOST_BOOT_STAT_BOOTSEL : Fld.width .HOST_BOOT_STAT_BOOTSEL = 2 := rfl
@[simp] theorem Fld.width_HOST_BOOT_STAT_SVN : Fld.width .HOST_BOOT_STAT_SVN = 16 := rfl
@[simp] theorem Fld.width_HOST_BOOT_CTL_GO : Fld.width .HOST_BOOT_CTL_GO = 1 := rfl
@[simp] theorem Fld.width_HOST_BOOT_CTL_COMMITSVN : Fld.width .HOST_BOOT_CTL_COMMITSVN = 1 := rfl
@[simp] theorem Fld.width_HOST_PROGMAN_LO_MAN : Fld.width .HOST_PROGMAN_LO_MAN = 32 := rfl
@[simp] theorem Fld.width_HOST_PROGMAN_HI_MAN : Fld.width .HOST_PROGMAN_HI_MAN = 32 := rfl
@[simp] theorem Fld.width_HOST_PWR_CTL_REQ : Fld.width .HOST_PWR_CTL_REQ = 2 := rfl
@[simp] theorem Fld.width_HOST_PWR_STAT_STATE : Fld.width .HOST_PWR_STAT_STATE = 2 := rfl
@[simp] theorem Fld.width_HOST_PWR_STAT_REJ : Fld.width .HOST_PWR_STAT_REJ = 1 := rfl
@[simp] theorem Fld.width_HOST_PWR_STAT_WAKE : Fld.width .HOST_PWR_STAT_WAKE = 2 := rfl
@[simp] theorem Fld.width_HOST_RST_CTL_KEY : Fld.width .HOST_RST_CTL_KEY = 16 := rfl
@[simp] theorem Fld.width_HOST_RST_CTL_CYCLE : Fld.width .HOST_RST_CTL_CYCLE = 1 := rfl
@[simp] theorem Fld.width_HOST_RST_CTL_WARM : Fld.width .HOST_RST_CTL_WARM = 1 := rfl
@[simp] theorem Fld.width_HOST_RST_STAT_LEVEL : Fld.width .HOST_RST_STAT_LEVEL = 4 := rfl
@[simp] theorem Fld.width_HOST_RST_STAT_CAUSE : Fld.width .HOST_RST_STAT_CAUSE = 8 := rfl
@[simp] theorem Fld.width_HOST_RST_STAT_WARMS : Fld.width .HOST_RST_STAT_WARMS = 16 := rfl
@[simp] theorem Fld.width_HOST_QSPI_CTL_HOSTEN : Fld.width .HOST_QSPI_CTL_HOSTEN = 1 := rfl
@[simp] theorem Fld.width_HOST_QSPI_CTL_BUSY : Fld.width .HOST_QSPI_CTL_BUSY = 1 := rfl
@[simp] theorem Fld.width_HOST_QSPI_CTL_CMD : Fld.width .HOST_QSPI_CTL_CMD = 8 := rfl
@[simp] theorem Fld.width_HOST_QSPI_CTL_LEN : Fld.width .HOST_QSPI_CTL_LEN = 9 := rfl
@[simp] theorem Fld.width_HOST_QSPI_DATA_DATA : Fld.width .HOST_QSPI_DATA_DATA = 32 := rfl
@[simp] theorem Fld.width_HOST_QSPI_ADDR_ADDR : Fld.width .HOST_QSPI_ADDR_ADDR = 32 := rfl
@[simp] theorem Fld.width_HOST_ERRVEC_EN : Fld.width .HOST_ERRVEC_EN = 1 := rfl
@[simp] theorem Fld.width_HOST_ERRVEC_VEC : Fld.width .HOST_ERRVEC_VEC = 6 := rfl
@[simp] theorem Fld.width_HOST_CR_BASE_LO_BASE : Fld.width .HOST_CR_BASE_LO_BASE = 32 := rfl
@[simp] theorem Fld.width_HOST_CR_BASE_HI_BASE : Fld.width .HOST_CR_BASE_HI_BASE = 32 := rfl
@[simp] theorem Fld.width_HOST_CR_CFG_EN : Fld.width .HOST_CR_CFG_EN = 1 := rfl
@[simp] theorem Fld.width_HOST_CR_CFG_LOG2 : Fld.width .HOST_CR_CFG_LOG2 = 5 := rfl
@[simp] theorem Fld.width_HOST_CR_TAIL_TAIL : Fld.width .HOST_CR_TAIL_TAIL = 16 := rfl
@[simp] theorem Fld.width_HOST_CR_HEAD_HEAD : Fld.width .HOST_CR_HEAD_HEAD = 16 := rfl
@[simp] theorem Fld.width_HOST_CR_SEQ_SEQ : Fld.width .HOST_CR_SEQ_SEQ = 32 := rfl
@[simp] theorem Fld.width_HOST_CR_STAT_HALT : Fld.width .HOST_CR_STAT_HALT = 1 := rfl
@[simp] theorem Fld.width_HOST_CR_STAT_TXN : Fld.width .HOST_CR_STAT_TXN = 2 := rfl
@[simp] theorem Fld.width_HOST_CR_STAT_SLOT : Fld.width .HOST_CR_STAT_SLOT = 3 := rfl
@[simp] theorem Fld.width_HOST_CR_STAT_PROGS : Fld.width .HOST_CR_STAT_PROGS = 16 := rfl
@[simp] theorem Fld.width_HOST_CQ_BASE_LO_BASE : Fld.width .HOST_CQ_BASE_LO_BASE = 32 := rfl
@[simp] theorem Fld.width_HOST_CQ_BASE_HI_BASE : Fld.width .HOST_CQ_BASE_HI_BASE = 32 := rfl
@[simp] theorem Fld.width_HOST_CQ_CFG_EN : Fld.width .HOST_CQ_CFG_EN = 1 := rfl
@[simp] theorem Fld.width_HOST_CQ_CFG_LOG2 : Fld.width .HOST_CQ_CFG_LOG2 = 5 := rfl
@[simp] theorem Fld.width_HOST_CQ_CFG_IRQ : Fld.width .HOST_CQ_CFG_IRQ = 1 := rfl
@[simp] theorem Fld.width_HOST_CQ_CFG_VEC : Fld.width .HOST_CQ_CFG_VEC = 6 := rfl
@[simp] theorem Fld.width_HOST_CQ_TAIL_TAIL : Fld.width .HOST_CQ_TAIL_TAIL = 16 := rfl
@[simp] theorem Fld.width_HOST_CQ_HEAD_HEAD : Fld.width .HOST_CQ_HEAD_HEAD = 16 := rfl
@[simp] theorem Fld.width_HOST_EV_BASE_LO_BASE : Fld.width .HOST_EV_BASE_LO_BASE = 32 := rfl
@[simp] theorem Fld.width_HOST_EV_BASE_HI_BASE : Fld.width .HOST_EV_BASE_HI_BASE = 32 := rfl
@[simp] theorem Fld.width_HOST_EV_CFG_EN : Fld.width .HOST_EV_CFG_EN = 1 := rfl
@[simp] theorem Fld.width_HOST_EV_CFG_LOG2 : Fld.width .HOST_EV_CFG_LOG2 = 5 := rfl
@[simp] theorem Fld.width_HOST_EV_CFG_IRQ : Fld.width .HOST_EV_CFG_IRQ = 1 := rfl
@[simp] theorem Fld.width_HOST_EV_CFG_VEC : Fld.width .HOST_EV_CFG_VEC = 6 := rfl
@[simp] theorem Fld.width_HOST_EV_TAIL_TAIL : Fld.width .HOST_EV_TAIL_TAIL = 16 := rfl
@[simp] theorem Fld.width_HOST_EV_HEAD_HEAD : Fld.width .HOST_EV_HEAD_HEAD = 16 := rfl
@[simp] theorem Fld.width_HOST_EV_LOST_LOST : Fld.width .HOST_EV_LOST_LOST = 32 := rfl
@[simp] theorem Fld.width_HOST_STAGE_BASE_LO_BASE : Fld.width .HOST_STAGE_BASE_LO_BASE = 32 := rfl
@[simp] theorem Fld.width_HOST_STAGE_BASE_HI_BASE : Fld.width .HOST_STAGE_BASE_HI_BASE = 32 := rfl
@[simp] theorem Fld.width_HOST_SCENE_BASE_LO_BASE : Fld.width .HOST_SCENE_BASE_LO_BASE = 32 := rfl
@[simp] theorem Fld.width_HOST_SCENE_BASE_HI_BASE : Fld.width .HOST_SCENE_BASE_HI_BASE = 32 := rfl
@[simp] theorem Fld.width_HOST_SCENE_SIZE_SIZE : Fld.width .HOST_SCENE_SIZE_SIZE = 16 := rfl
@[simp] theorem Fld.width_HOST_TXN_CFG_IDLE : Fld.width .HOST_TXN_CFG_IDLE = 16 := rfl
@[simp] theorem Fld.width_HOST_TXN_STAT_ACKED : Fld.width .HOST_TXN_STAT_ACKED = 8 := rfl
@[simp] theorem Fld.width_HOST_TXN_STAT_USED : Fld.width .HOST_TXN_STAT_USED = 8 := rfl
@[simp] theorem Fld.width_HOST_PARAM_BASE_BASE : Fld.width .HOST_PARAM_BASE_BASE = 23 := rfl
@[simp] theorem Fld.width_HOST_PARAM_SIZE_SIZE : Fld.width .HOST_PARAM_SIZE_SIZE = 23 := rfl
@[simp] theorem Fld.width_HOST_PARAM_ACT_MIRROR : Fld.width .HOST_PARAM_ACT_MIRROR = 4 := rfl
@[simp] theorem Fld.width_HOST_PARAM_ACT_ACT : Fld.width .HOST_PARAM_ACT_ACT = 4 := rfl
@[simp] theorem Fld.width_SCHED_MODE_PREFETCH : Fld.width .SCHED_MODE_PREFETCH = 32 := rfl
@[simp] theorem Fld.width_SCHED_STAT_OVFL : Fld.width .SCHED_STAT_OVFL = 16 := rfl
@[simp] theorem Fld.width_SCHED_STAT_CNTERR : Fld.width .SCHED_STAT_CNTERR = 1 := rfl
@[simp] theorem Fld.width_SCHED_STAT_ITEMS : Fld.width .SCHED_STAT_ITEMS = 15 := rfl
@[simp] theorem Fld.width_SCHED_DLMISS_DLMISS : Fld.width .SCHED_DLMISS_DLMISS = 32 := rfl
@[simp] theorem Fld.width_SCHED_QDEPTH_MAX : Fld.width .SCHED_QDEPTH_MAX = 16 := rfl
@[simp] theorem Fld.width_SCHED_QDEPTH_NOW : Fld.width .SCHED_QDEPTH_NOW = 13 := rfl
@[simp] theorem Fld.width_SCHED_PREF_STAT_STEALS : Fld.width .SCHED_PREF_STAT_STEALS = 16 := rfl
@[simp] theorem Fld.width_SCHED_PREF_STAT_RECALLS : Fld.width .SCHED_PREF_STAT_RECALLS = 16 := rfl
@[simp] theorem Fld.width_SCHED_HIST_COUNT : Fld.width .SCHED_HIST_COUNT = 32 := rfl
@[simp] theorem Fld.width_SCHED_BUSY_ODD : Fld.width .SCHED_BUSY_ODD = 16 := rfl
@[simp] theorem Fld.width_SCHED_BUSY_EVEN : Fld.width .SCHED_BUSY_EVEN = 16 := rfl
@[simp] theorem Fld.width_SCHED_LOAD_PEAK : Fld.width .SCHED_LOAD_PEAK = 16 := rfl
@[simp] theorem Fld.width_SCHED_LOAD_LAST : Fld.width .SCHED_LOAD_LAST = 16 := rfl
@[simp] theorem Fld.width_SCHED_UTIL0_SUM : Fld.width .SCHED_UTIL0_SUM = 16 := rfl
@[simp] theorem Fld.width_SCHED_UTIL0_BRIDGE : Fld.width .SCHED_UTIL0_BRIDGE = 16 := rfl
@[simp] theorem Fld.width_SCHED_UTIL1_DMA : Fld.width .SCHED_UTIL1_DMA = 16 := rfl
@[simp] theorem Fld.width_SCHED_UTIL1_METER : Fld.width .SCHED_UTIL1_METER = 16 := rfl
@[simp] theorem Fld.width_SCHED_SNAP_CFG_EN : Fld.width .SCHED_SNAP_CFG_EN = 1 := rfl
@[simp] theorem Fld.width_SCHED_SNAP_CFG_N : Fld.width .SCHED_SNAP_CFG_N = 16 := rfl
@[simp] theorem Fld.width_SCHED_ADM_CFG_UMAX : Fld.width .SCHED_ADM_CFG_UMAX = 10 := rfl
@[simp] theorem Fld.width_SCHED_ADM_BOUND_BOUND : Fld.width .SCHED_ADM_BOUND_BOUND = 32 := rfl
@[simp] theorem Fld.width_SCHED_ADM_WORST_PART : Fld.width .SCHED_ADM_WORST_PART = 12 := rfl
@[simp] theorem Fld.width_SCHED_ADM_WORST_SHARE : Fld.width .SCHED_ADM_WORST_SHARE = 10 := rfl
@[simp] theorem Fld.width_XBAR_MQOS_CAP : Fld.width .XBAR_MQOS_CAP = 4 := rfl
@[simp] theorem Fld.width_XBAR_MQOS_QOS : Fld.width .XBAR_MQOS_QOS = 4 := rfl
@[simp] theorem Fld.width_XBAR_STAT_MAXUSE : Fld.width .XBAR_STAT_MAXUSE = 11 := rfl
@[simp] theorem Fld.width_XBAR_STAT_INUSE : Fld.width .XBAR_STAT_INUSE = 11 := rfl
@[simp] theorem Fld.width_XBAR_ERR_VALID : Fld.width .XBAR_ERR_VALID = 1 := rfl
@[simp] theorem Fld.width_XBAR_ERR_CODE : Fld.width .XBAR_ERR_CODE = 3 := rfl
@[simp] theorem Fld.width_XBAR_ERR_MASTER : Fld.width .XBAR_ERR_MASTER = 6 := rfl
@[simp] theorem Fld.width_XBAR_ERR_TARGET : Fld.width .XBAR_ERR_TARGET = 4 := rfl
@[simp] theorem Fld.width_XBAR_ERRADDR_LO_ADDR : Fld.width .XBAR_ERRADDR_LO_ADDR = 32 := rfl
@[simp] theorem Fld.width_XBAR_ERRADDR_HI_ADDR : Fld.width .XBAR_ERRADDR_HI_ADDR = 32 := rfl
@[simp] theorem Fld.width_XBAR_ERRCNT_NODEST : Fld.width .XBAR_ERRCNT_NODEST = 16 := rfl
@[simp] theorem Fld.width_XBAR_ERRCNT_TIMEOUT : Fld.width .XBAR_ERRCNT_TIMEOUT = 8 := rfl
@[simp] theorem Fld.width_XBAR_ERRCNT_PARITY : Fld.width .XBAR_ERRCNT_PARITY = 8 := rfl
@[simp] theorem Fld.width_XBAR_TGT_WAITMAX : Fld.width .XBAR_TGT_WAITMAX = 16 := rfl
@[simp] theorem Fld.width_XBAR_MEMSTAT_CE : Fld.width .XBAR_MEMSTAT_CE = 16 := rfl
@[simp] theorem Fld.width_XBAR_MEMSTAT_UE : Fld.width .XBAR_MEMSTAT_UE = 16 := rfl
@[simp] theorem Fld.width_DDRC_CFG_EN : Fld.width .DDRC_CFG_EN = 1 := rfl
@[simp] theorem Fld.width_DDRC_CFG_RANKS : Fld.width .DDRC_CFG_RANKS = 1 := rfl
@[simp] theorem Fld.width_DDRC_CFG_DENS : Fld.width .DDRC_CFG_DENS = 2 := rfl
@[simp] theorem Fld.width_DDRC_STAT_STATE : Fld.width .DDRC_STAT_STATE = 3 := rfl
@[simp] theorem Fld.width_DDRC_STAT_HOT : Fld.width .DDRC_STAT_HOT = 1 := rfl
@[simp] theorem Fld.width_DDRC_STAT_WARM : Fld.width .DDRC_STAT_WARM = 1 := rfl
@[simp] theorem Fld.width_DDRC_STAT_SENSFAIL : Fld.width .DDRC_STAT_SENSFAIL = 1 := rfl
@[simp] theorem Fld.width_DDRC_STAT_QNOW : Fld.width .DDRC_STAT_QNOW = 7 := rfl
@[simp] theorem Fld.width_DDRC_STAT_QMAX : Fld.width .DDRC_STAT_QMAX = 7 := rfl
@[simp] theorem Fld.width_DDRC_REF_DEBT : Fld.width .DDRC_REF_DEBT = 4 := rfl
@[simp] theorem Fld.width_DDRC_REF_CATCHUPS : Fld.width .DDRC_REF_CATCHUPS = 8 := rfl
@[simp] theorem Fld.width_DDRC_REF_MAXHOLD : Fld.width .DDRC_REF_MAXHOLD = 13 := rfl
@[simp] theorem Fld.width_DDRC_TEMP_SRC : Fld.width .DDRC_TEMP_SRC = 1 := rfl
@[simp] theorem Fld.width_DDRC_TEMP_HOSTVAL : Fld.width .DDRC_TEMP_HOSTVAL = 8 := rfl
@[simp] theorem Fld.width_DDRC_TEMP_LAST : Fld.width .DDRC_TEMP_LAST = 8 := rfl
@[simp] theorem Fld.width_DDRC_TEMP_ADDR : Fld.width .DDRC_TEMP_ADDR = 8 := rfl
@[simp] theorem Fld.width_DDRC_TEMPCFG_TWARM : Fld.width .DDRC_TEMPCFG_TWARM = 8 := rfl
@[simp] theorem Fld.width_DDRC_SR_SREN : Fld.width .DDRC_SR_SREN = 1 := rfl
@[simp] theorem Fld.width_DDRC_SR_IDLE : Fld.width .DDRC_SR_IDLE = 16 := rfl
@[simp] theorem Fld.width_DDRC_CE_CECNT : Fld.width .DDRC_CE_CECNT = 16 := rfl
@[simp] theorem Fld.width_DDRC_CE_CERATE : Fld.width .DDRC_CE_CERATE = 16 := rfl
@[simp] theorem Fld.width_DDRC_CETHR_CETHR : Fld.width .DDRC_CETHR_CETHR = 16 := rfl
@[simp] theorem Fld.width_DDRC_UE_UE : Fld.width .DDRC_UE_UE = 16 := rfl
@[simp] theorem Fld.width_DDRC_UE_CARETRY : Fld.width .DDRC_UE_CARETRY = 8 := rfl
@[simp] theorem Fld.width_DDRC_UE_WCRETRY : Fld.width .DDRC_UE_WCRETRY = 8 := rfl
@[simp] theorem Fld.width_DDRC_SCRUB_EN : Fld.width .DDRC_SCRUB_EN = 1 := rfl
@[simp] theorem Fld.width_DDRC_SCRUB_PASSES : Fld.width .DDRC_SCRUB_PASSES = 16 := rfl
@[simp] theorem Fld.width_DDRC_BANKCONF_BANKCONF : Fld.width .DDRC_BANKCONF_BANKCONF = 32 := rfl
@[simp] theorem Fld.width_DDRC_LOGIDX_COUNT : Fld.width .DDRC_LOGIDX_COUNT = 9 := rfl
@[simp] theorem Fld.width_DDRC_LOGIDX_OVERWR : Fld.width .DDRC_LOGIDX_OVERWR = 8 := rfl
@[simp] theorem Fld.width_DDRC_LOGIDX_RD : Fld.width .DDRC_LOGIDX_RD = 8 := rfl
@[simp] theorem Fld.width_DDRC_LOG_ADDR_LO_ADDR : Fld.width .DDRC_LOG_ADDR_LO_ADDR = 32 := rfl
@[simp] theorem Fld.width_DDRC_LOG_ADDR_HI_ADDR : Fld.width .DDRC_LOG_ADDR_HI_ADDR = 32 := rfl
@[simp] theorem Fld.width_DDRC_LOG_INFO_KIND : Fld.width .DDRC_LOG_INFO_KIND = 3 := rfl
@[simp] theorem Fld.width_DDRC_LOG_INFO_MASTER : Fld.width .DDRC_LOG_INFO_MASTER = 6 := rfl
@[simp] theorem Fld.width_DDRC_LOG_INFO_RANK : Fld.width .DDRC_LOG_INFO_RANK = 1 := rfl
@[simp] theorem Fld.width_DDRC_LOG_INFO_BEAT : Fld.width .DDRC_LOG_INFO_BEAT = 6 := rfl
@[simp] theorem Fld.width_DDRC_LOG_INFO_SYNDROME : Fld.width .DDRC_LOG_INFO_SYNDROME = 8 := rfl
@[simp] theorem Fld.width_DDRC_LOG_FRAME_LO_FRAME : Fld.width .DDRC_LOG_FRAME_LO_FRAME = 32 := rfl
@[simp] theorem Fld.width_DDRC_LOG_FRAME_HI_FRAME : Fld.width .DDRC_LOG_FRAME_HI_FRAME = 32 := rfl
@[simp] theorem Fld.width_CLK_SEL_MODE : Fld.width .CLK_SEL_MODE = 2 := rfl
@[simp] theorem Fld.width_CLK_SEL_FORCE : Fld.width .CLK_SEL_FORCE = 3 := rfl
@[simp] theorem Fld.width_CLK_SEL_QLTHR : Fld.width .CLK_SEL_QLTHR = 4 := rfl
@[simp] theorem Fld.width_CLK_SEL_HOQL : Fld.width .CLK_SEL_HOQL = 4 := rfl
@[simp] theorem Fld.width_CLK_SEL_OSCQL : Fld.width .CLK_SEL_OSCQL = 4 := rfl
@[simp] theorem Fld.width_CLK_SEL_SWMODE : Fld.width .CLK_SEL_SWMODE = 1 := rfl
@[simp] theorem Fld.width_CLK_SEL_SLEW : Fld.width .CLK_SEL_SLEW = 3 := rfl
@[simp] theorem Fld.width_CLK_STAT_STATE : Fld.width .CLK_STAT_STATE = 3 := rfl
@[simp] theorem Fld.width_CLK_STAT_PHASE : Fld.width .CLK_STAT_PHASE = 2 := rfl
@[simp] theorem Fld.width_CLK_STAT_SEL : Fld.width .CLK_STAT_SEL = 3 := rfl
@[simp] theorem Fld.width_CLK_STAT_SELV : Fld.width .CLK_STAT_SELV = 1 := rfl
@[simp] theorem Fld.width_CLK_STAT_PENDING : Fld.width .CLK_STAT_PENDING = 3 := rfl
@[simp] theorem Fld.width_CLK_STAT_PENDV : Fld.width .CLK_STAT_PENDV = 1 := rfl
@[simp] theorem Fld.width_CLK_STAT_OUTQL : Fld.width .CLK_STAT_OUTQL = 4 := rfl
@[simp] theorem Fld.width_CLK_STAT_HOVALID : Fld.width .CLK_STAT_HOVALID = 1 := rfl
@[simp] theorem Fld.width_CLK_STAT_HOSEC : Fld.width .CLK_STAT_HOSEC = 6 := rfl
@[simp] theorem Fld.width_CLK_FREQ_FREQ : Fld.width .CLK_FREQ_FREQ = 32 := rfl
@[simp] theorem Fld.width_CLK_PHERR_PHERR : Fld.width .CLK_PHERR_PHERR = 32 := rfl
@[simp] theorem Fld.width_CLK_BUILDOUT_BUILDOUT : Fld.width .CLK_BUILDOUT_BUILDOUT = 32 := rfl
@[simp] theorem Fld.width_CLK_HOFREQ_HOFREQ : Fld.width .CLK_HOFREQ_HOFREQ = 32 := rfl
@[simp] theorem Fld.width_CLK_DRIFT_SOFT : Fld.width .CLK_DRIFT_SOFT = 8 := rfl
@[simp] theorem Fld.width_CLK_DRIFT_HARD : Fld.width .CLK_DRIFT_HARD = 8 := rfl
@[simp] theorem Fld.width_CLK_DRIFT_RATE : Fld.width .CLK_DRIFT_RATE = 8 := rfl
@[simp] theorem Fld.width_CLK_OSC_F10 : Fld.width .CLK_OSC_F10 = 1 := rfl
@[simp] theorem Fld.width_CLK_OSC_TRIM : Fld.width .CLK_OSC_TRIM = 24 := rfl
@[simp] theorem Fld.width_CLK_AESQL_GRADE1 : Fld.width .CLK_AESQL_GRADE1 = 4 := rfl
@[simp] theorem Fld.width_CLK_AESQL_GRADE2 : Fld.width .CLK_AESQL_GRADE2 = 4 := rfl
@[simp] theorem Fld.width_CLK_VIDCFG_FRATE : Fld.width .CLK_VIDCFG_FRATE = 3 := rfl
@[simp] theorem Fld.width_CLK_VIDCFG_LINES : Fld.width .CLK_VIDCFG_LINES = 2 := rfl
@[simp] theorem Fld.width_CLK_VIDCFG_FEDGE : Fld.width .CLK_VIDCFG_FEDGE = 1 := rfl
@[simp] theorem Fld.width_CLK_VIDCFG_OFFSET : Fld.width .CLK_VIDCFG_OFFSET = 24 := rfl
@[simp] theorem Fld.width_CLK_OUTCFG_MCLKEN : Fld.width .CLK_OUTCFG_MCLKEN = 1 := rfl
@[simp] theorem Fld.width_CLK_OUTCFG_MCLKDIV : Fld.width .CLK_OUTCFG_MCLKDIV = 2 := rfl
@[simp] theorem Fld.width_CLK_OUTCFG_MCLKFAM : Fld.width .CLK_OUTCFG_MCLKFAM = 1 := rfl
@[simp] theorem Fld.width_CLK_OUTCFG_WC0EN : Fld.width .CLK_OUTCFG_WC0EN = 1 := rfl
@[simp] theorem Fld.width_CLK_OUTCFG_WC0RATE : Fld.width .CLK_OUTCFG_WC0RATE = 2 := rfl
@[simp] theorem Fld.width_CLK_OUTCFG_WC1EN : Fld.width .CLK_OUTCFG_WC1EN = 1 := rfl
@[simp] theorem Fld.width_CLK_OUTCFG_WC1RATE : Fld.width .CLK_OUTCFG_WC1RATE = 2 := rfl
@[simp] theorem Fld.width_CLK_OUTCFG_FPEN : Fld.width .CLK_OUTCFG_FPEN = 1 := rfl
@[simp] theorem Fld.width_CLK_OUTCFG_FPSRC : Fld.width .CLK_OUTCFG_FPSRC = 1 := rfl
@[simp] theorem Fld.width_CLK_CAD_N : Fld.width .CLK_CAD_N = 8 := rfl
@[simp] theorem Fld.width_CLK_CAD_IDX : Fld.width .CLK_CAD_IDX = 8 := rfl
@[simp] theorem Fld.width_CLK_CAD_LEN : Fld.width .CLK_CAD_LEN = 16 := rfl
@[simp] theorem Fld.width_CLK_PTPQL_EN : Fld.width .CLK_PTPQL_EN = 1 := rfl
@[simp] theorem Fld.width_CLK_PTPQL_CLASS : Fld.width .CLK_PTPQL_CLASS = 8 := rfl
@[simp] theorem Fld.width_CLK_PTPQL_ACCMAX : Fld.width .CLK_PTPQL_ACCMAX = 8 := rfl
@[simp] theorem Fld.width_CLK_PTPQL_QL : Fld.width .CLK_PTPQL_QL = 4 := rfl
@[simp] theorem Fld.width_CLK_REFCFG_EN : Fld.width .CLK_REFCFG_EN = 1 := rfl
@[simp] theorem Fld.width_CLK_REFCFG_TYPE : Fld.width .CLK_REFCFG_TYPE = 3 := rfl
@[simp] theorem Fld.width_CLK_REFCFG_INST : Fld.width .CLK_REFCFG_INST = 4 := rfl
@[simp] theorem Fld.width_CLK_REFCFG_MULT : Fld.width .CLK_REFCFG_MULT = 2 := rfl
@[simp] theorem Fld.width_CLK_REFCFG_QLSRC : Fld.width .CLK_REFCFG_QLSRC = 1 := rfl
@[simp] theorem Fld.width_CLK_REFCFG_QLPROV : Fld.width .CLK_REFCFG_QLPROV = 4 := rfl
@[simp] theorem Fld.width_CLK_REFCFG_PRIO : Fld.width .CLK_REFCFG_PRIO = 4 := rfl
@[simp] theorem Fld.width_CLK_REFCFG_WTR : Fld.width .CLK_REFCFG_WTR = 10 := rfl
@[simp] theorem Fld.width_CLK_REFCFG_BW : Fld.width .CLK_REFCFG_BW = 3 := rfl
@[simp] theorem Fld.width_CLK_REFSTAT_PRESENT : Fld.width .CLK_REFSTAT_PRESENT = 1 := rfl
@[simp] theorem Fld.width_CLK_REFSTAT_QUAL : Fld.width .CLK_REFSTAT_QUAL = 1 := rfl
@[simp] theorem Fld.width_CLK_REFSTAT_ELIG : Fld.width .CLK_REFSTAT_ELIG = 1 := rfl
@[simp] theorem Fld.width_CLK_REFSTAT_SOFT : Fld.width .CLK_REFSTAT_SOFT = 1 := rfl
@[simp] theorem Fld.width_CLK_REFSTAT_LOSS : Fld.width .CLK_REFSTAT_LOSS = 1 := rfl
@[simp] theorem Fld.width_CLK_REFSTAT_HARDS : Fld.width .CLK_REFSTAT_HARDS = 1 := rfl
@[simp] theorem Fld.width_CLK_REFSTAT_EQL : Fld.width .CLK_REFSTAT_EQL = 4 := rfl
@[simp] theorem Fld.width_CLK_REFSTAT_BQL : Fld.width .CLK_REFSTAT_BQL = 4 := rfl
@[simp] theorem Fld.width_CLK_REFSTAT_WTRREM : Fld.width .CLK_REFSTAT_WTRREM = 10 := rfl
@[simp] theorem Fld.width_CLK_REFOFS_OFS : Fld.width .CLK_REFOFS_OFS = 32 := rfl
@[simp] theorem Fld.width_CLK_REFRATE_CAUSE : Fld.width .CLK_REFRATE_CAUSE = 4 := rfl
@[simp] theorem Fld.width_CLK_REFRATE_RATE : Fld.width .CLK_REFRATE_RATE = 16 := rfl
@[simp] theorem Fld.width_PTP_TIME_SL_SL : Fld.width .PTP_TIME_SL_SL = 32 := rfl
@[simp] theorem Fld.width_PTP_TIME_SH_SH : Fld.width .PTP_TIME_SH_SH = 16 := rfl
@[simp] theorem Fld.width_PTP_TIME_NS_NS : Fld.width .PTP_TIME_NS_NS = 32 := rfl
@[simp] theorem Fld.width_PTP_TIME_FR_FR : Fld.width .PTP_TIME_FR_FR = 16 := rfl
@[simp] theorem Fld.width_PTP_INCR_HI_INCR : Fld.width .PTP_INCR_HI_INCR = 32 := rfl
@[simp] theorem Fld.width_PTP_INCR_LO_INCR : Fld.width .PTP_INCR_LO_INCR = 32 := rfl
@[simp] theorem Fld.width_PTP_STAT_DISC : Fld.width .PTP_STAT_DISC = 2 := rfl
@[simp] theorem Fld.width_PTP_STAT_TKV : Fld.width .PTP_STAT_TKV = 1 := rfl
@[simp] theorem Fld.width_PTP_STAT_TK : Fld.width .PTP_STAT_TK = 1 := rfl
@[simp] theorem Fld.width_PTP_STAT_STATE0 : Fld.width .PTP_STAT_STATE0 = 8 := rfl
@[simp] theorem Fld.width_PTP_STAT_STATE1 : Fld.width .PTP_STAT_STATE1 = 8 := rfl
@[simp] theorem Fld.width_PTP_STAT_STEPS : Fld.width .PTP_STAT_STEPS = 1 := rfl
@[simp] theorem Fld.width_PTP_OFS_OFS : Fld.width .PTP_OFS_OFS = 32 := rfl
@[simp] theorem Fld.width_PTP_SERVO_SLEW : Fld.width .PTP_SERVO_SLEW = 4 := rfl
@[simp] theorem Fld.width_PTP_SERVO_MAPLIM : Fld.width .PTP_SERVO_MAPLIM = 16 := rfl
@[simp] theorem Fld.width_PTP_MAP_N0_LO_N0 : Fld.width .PTP_MAP_N0_LO_N0 = 32 := rfl
@[simp] theorem Fld.width_PTP_MAP_N0_HI_N0 : Fld.width .PTP_MAP_N0_HI_N0 = 32 := rfl
@[simp] theorem Fld.width_PTP_MAP_T0_SL_T0 : Fld.width .PTP_MAP_T0_SL_T0 = 32 := rfl
@[simp] theorem Fld.width_PTP_MAP_T0_NS_T0 : Fld.width .PTP_MAP_T0_NS_T0 = 32 := rfl
@[simp] theorem Fld.width_PTP_MAPERR_MAPERR : Fld.width .PTP_MAPERR_MAPERR = 32 := rfl
@[simp] theorem Fld.width_PTP_CAP_S_CAP : Fld.width .PTP_CAP_S_CAP = 32 := rfl
@[simp] theorem Fld.width_PTP_CAP_NS_CAP : Fld.width .PTP_CAP_NS_CAP = 32 := rfl
@[simp] theorem Fld.width_PTP_PULSE_ACT : Fld.width .PTP_PULSE_ACT = 4 := rfl
@[simp] theorem Fld.width_NET_PORTCFG_EN : Fld.width .NET_PORTCFG_EN = 1 := rfl
@[simp] theorem Fld.width_NET_PORTCFG_SPEED : Fld.width .NET_PORTCFG_SPEED = 2 := rfl
@[simp] theorem Fld.width_NET_PORTCFG_FEC : Fld.width .NET_PORTCFG_FEC = 2 := rfl
@[simp] theorem Fld.width_NET_PORTSTAT_LINK : Fld.width .NET_PORTSTAT_LINK = 1 := rfl
@[simp] theorem Fld.width_NET_PORTSTAT_DOWNS : Fld.width .NET_PORTSTAT_DOWNS = 1 := rfl
@[simp] theorem Fld.width_NET_PORTSTAT_FECUNC : Fld.width .NET_PORTSTAT_FECUNC = 8 := rfl
@[simp] theorem Fld.width_NET_PORTSTAT_FECCOR : Fld.width .NET_PORTSTAT_FECCOR = 8 := rfl
@[simp] theorem Fld.width_NET_STAT_DROP : Fld.width .NET_STAT_DROP = 8 := rfl
@[simp] theorem Fld.width_NET_STAT_HRXDROP : Fld.width .NET_STAT_HRXDROP = 8 := rfl
@[simp] theorem Fld.width_NET_STAT_LATE : Fld.width .NET_STAT_LATE = 16 := rfl
@[simp] theorem Fld.width_NET_MACLO_MAC : Fld.width .NET_MACLO_MAC = 32 := rfl
@[simp] theorem Fld.width_NET_MACHI_MAC : Fld.width .NET_MACHI_MAC = 16 := rfl
@[simp] theorem Fld.width_NET_MCFILT_MCFILT : Fld.width .NET_MCFILT_MCFILT = 32 := rfl
@[simp] theorem Fld.width_NET_HRX_BASE_LO_BASE : Fld.width .NET_HRX_BASE_LO_BASE = 32 := rfl
@[simp] theorem Fld.width_NET_HRX_BASE_HI_BASE : Fld.width .NET_HRX_BASE_HI_BASE = 32 := rfl
@[simp] theorem Fld.width_NET_HRX_CFG_EN : Fld.width .NET_HRX_CFG_EN = 1 := rfl
@[simp] theorem Fld.width_NET_HRX_CFG_LOG2 : Fld.width .NET_HRX_CFG_LOG2 = 5 := rfl
@[simp] theorem Fld.width_NET_HRX_CFG_IRQ : Fld.width .NET_HRX_CFG_IRQ = 1 := rfl
@[simp] theorem Fld.width_NET_HRX_CFG_VEC : Fld.width .NET_HRX_CFG_VEC = 6 := rfl
@[simp] theorem Fld.width_NET_HRX_TAIL_TAIL : Fld.width .NET_HRX_TAIL_TAIL = 16 := rfl
@[simp] theorem Fld.width_NET_HRX_HEAD_HEAD : Fld.width .NET_HRX_HEAD_HEAD = 16 := rfl
@[simp] theorem Fld.width_NET_HTX_BASE_LO_BASE : Fld.width .NET_HTX_BASE_LO_BASE = 32 := rfl
@[simp] theorem Fld.width_NET_HTX_BASE_HI_BASE : Fld.width .NET_HTX_BASE_HI_BASE = 32 := rfl
@[simp] theorem Fld.width_NET_HTX_CFG_EN : Fld.width .NET_HTX_CFG_EN = 1 := rfl
@[simp] theorem Fld.width_NET_HTX_CFG_LOG2 : Fld.width .NET_HTX_CFG_LOG2 = 5 := rfl
@[simp] theorem Fld.width_NET_HTX_CFG_IRQ : Fld.width .NET_HTX_CFG_IRQ = 1 := rfl
@[simp] theorem Fld.width_NET_HTX_CFG_VEC : Fld.width .NET_HTX_CFG_VEC = 6 := rfl
@[simp] theorem Fld.width_NET_HTX_TAIL_TAIL : Fld.width .NET_HTX_TAIL_TAIL = 16 := rfl
@[simp] theorem Fld.width_NET_HTX_HEAD_HEAD : Fld.width .NET_HTX_HEAD_HEAD = 16 := rfl
@[simp] theorem Fld.width_NET_RXSTAT_STATE : Fld.width .NET_RXSTAT_STATE = 2 := rfl
@[simp] theorem Fld.width_NET_RXSTAT_PATHS : Fld.width .NET_RXSTAT_PATHS = 2 := rfl
@[simp] theorem Fld.width_NET_RXSTAT_PMIS : Fld.width .NET_RXSTAT_PMIS = 16 := rfl
@[simp] theorem Fld.width_NET_RXCNT_MISS : Fld.width .NET_RXCNT_MISS = 16 := rfl
@[simp] theorem Fld.width_NET_RXCNT_LATE : Fld.width .NET_RXCNT_LATE = 8 := rfl
@[simp] theorem Fld.width_NET_RXCNT_EARLY : Fld.width .NET_RXCNT_EARLY = 8 := rfl
@[simp] theorem Fld.width_NET_TXSTAT_RUN : Fld.width .NET_TXSTAT_RUN = 1 := rfl
@[simp] theorem Fld.width_NET_TXSTAT_SEQ : Fld.width .NET_TXSTAT_SEQ = 16 := rfl
@[simp] theorem Fld.width_PORT_SAPCFG_EN : Fld.width .PORT_SAPCFG_EN = 1 := rfl
@[simp] theorem Fld.width_PORT_SAPCFG_MASTER : Fld.width .PORT_SAPCFG_MASTER = 1 := rfl
@[simp] theorem Fld.width_PORT_SAPCFG_FMT : Fld.width .PORT_SAPCFG_FMT = 2 := rfl
@[simp] theorem Fld.width_PORT_SAPCFG_W : Fld.width .PORT_SAPCFG_W = 2 := rfl
@[simp] theorem Fld.width_PORT_SAPCFG_SLOTS : Fld.width .PORT_SAPCFG_SLOTS = 5 := rfl
@[simp] theorem Fld.width_PORT_SAPCFG_DOM : Fld.width .PORT_SAPCFG_DOM = 2 := rfl
@[simp] theorem Fld.width_PORT_SAPCFG_FN : Fld.width .PORT_SAPCFG_FN = 4 := rfl
@[simp] theorem Fld.width_PORT_SAPCFG_FSINV : Fld.width .PORT_SAPCFG_FSINV = 1 := rfl
@[simp] theorem Fld.width_PORT_SAPCFG_BEDGE : Fld.width .PORT_SAPCFG_BEDGE = 1 := rfl
@[simp] theorem Fld.width_PORT_SAPCFG_FSW : Fld.width .PORT_SAPCFG_FSW = 1 := rfl
@[simp] theorem Fld.width_PORT_SAPCFG_DLY : Fld.width .PORT_SAPCFG_DLY = 1 := rfl
@[simp] theorem Fld.width_PORT_SAPCFG_GROUP : Fld.width .PORT_SAPCFG_GROUP = 4 := rfl
@[simp] theorem Fld.width_PORT_SAPCFG_QUAL : Fld.width .PORT_SAPCFG_QUAL = 7 := rfl
@[simp] theorem Fld.width_PORT_PDMCFG_EN : Fld.width .PORT_PDMCFG_EN = 1 := rfl
@[simp] theorem Fld.width_PORT_PDMCFG_RATIO : Fld.width .PORT_PDMCFG_RATIO = 3 := rfl
@[simp] theorem Fld.width_PORT_PDMCFG_MINPH : Fld.width .PORT_PDMCFG_MINPH = 1 := rfl
@[simp] theorem Fld.width_PORT_PDMCFG_DCB : Fld.width .PORT_PDMCFG_DCB = 1 := rfl
@[simp] theorem Fld.width_PORT_PDMCFG_GROUP : Fld.width .PORT_PDMCFG_GROUP = 4 := rfl
@[simp] theorem Fld.width_PORT_AESCFG_EN : Fld.width .PORT_AESCFG_EN = 1 := rfl
@[simp] theorem Fld.width_PORT_AESCFG_TXEN : Fld.width .PORT_AESCFG_TXEN = 1 := rfl
@[simp] theorem Fld.width_PORT_AESCFG_DOM : Fld.width .PORT_AESCFG_DOM = 2 := rfl
@[simp] theorem Fld.width_PORT_AESCFG_FN : Fld.width .PORT_AESCFG_FN = 4 := rfl
@[simp] theorem Fld.width_PORT_AESCFG_CSAUTO : Fld.width .PORT_AESCFG_CSAUTO = 1 := rfl
@[simp] theorem Fld.width_PORT_AESCFG_VTX : Fld.width .PORT_AESCFG_VTX = 1 := rfl
@[simp] theorem Fld.width_PORT_AESCFG_GROUP : Fld.width .PORT_AESCFG_GROUP = 4 := rfl
@[simp] theorem Fld.width_PORT_AESCFG_QUAL : Fld.width .PORT_AESCFG_QUAL = 7 := rfl
@[simp] theorem Fld.width_PORT_MADICFG_EN : Fld.width .PORT_MADICFG_EN = 1 := rfl
@[simp] theorem Fld.width_PORT_MADICFG_TXEN : Fld.width .PORT_MADICFG_TXEN = 1 := rfl
@[simp] theorem Fld.width_PORT_MADICFG_CH : Fld.width .PORT_MADICFG_CH = 2 := rfl
@[simp] theorem Fld.width_PORT_MADICFG_DOM : Fld.width .PORT_MADICFG_DOM = 2 := rfl
@[simp] theorem Fld.width_PORT_MADICFG_FN : Fld.width .PORT_MADICFG_FN = 4 := rfl
@[simp] theorem Fld.width_PORT_MADICFG_CSAUTO : Fld.width .PORT_MADICFG_CSAUTO = 1 := rfl
@[simp] theorem Fld.width_PORT_MADICFG_GROUP : Fld.width .PORT_MADICFG_GROUP = 4 := rfl
@[simp] theorem Fld.width_PORT_MADICFG_QUAL : Fld.width .PORT_MADICFG_QUAL = 7 := rfl
@[simp] theorem Fld.width_PORT_STAT_STATE : Fld.width .PORT_STAT_STATE = 3 := rfl
@[simp] theorem Fld.width_PORT_STAT_LOSTS : Fld.width .PORT_STAT_LOSTS = 1 := rfl
@[simp] theorem Fld.width_PORT_STAT_MISMS : Fld.width .PORT_STAT_MISMS = 1 := rfl
@[simp] theorem Fld.width_PORT_STAT_QUALD : Fld.width .PORT_STAT_QUALD = 1 := rfl
@[simp] theorem Fld.width_PORT_STAT_THETA : Fld.width .PORT_STAT_THETA = 10 := rfl
@[simp] theorem Fld.width_PORT_STAT_RATEOFS : Fld.width .PORT_STAT_RATEOFS = 16 := rfl
@[simp] theorem Fld.width_PORT_SLIP_SLIPS : Fld.width .PORT_SLIP_SLIPS = 32 := rfl
@[simp] theorem Fld.width_PORT_XRUN_XRUN : Fld.width .PORT_XRUN_XRUN = 16 := rfl
@[simp] theorem Fld.width_PORT_XRUN_GLITCH : Fld.width .PORT_XRUN_GLITCH = 16 := rfl
@[simp] theorem Fld.width_PORT_AESSTAT_LOCK : Fld.width .PORT_AESSTAT_LOCK = 1 := rfl
@[simp] theorem Fld.width_PORT_AESSTAT_PRO : Fld.width .PORT_AESSTAT_PRO = 1 := rfl
@[simp] theorem Fld.width_PORT_AESSTAT_GRADE : Fld.width .PORT_AESSTAT_GRADE = 2 := rfl
@[simp] theorem Fld.width_PORT_AESSTAT_FS : Fld.width .PORT_AESSTAT_FS = 4 := rfl
@[simp] theorem Fld.width_PORT_AESSTAT_VA : Fld.width .PORT_AESSTAT_VA = 1 := rfl
@[simp] theorem Fld.width_PORT_AESSTAT_VB : Fld.width .PORT_AESSTAT_VB = 1 := rfl
@[simp] theorem Fld.width_PORT_AESSTAT_CSDIFF : Fld.width .PORT_AESSTAT_CSDIFF = 1 := rfl
@[simp] theorem Fld.width_PORT_AESSTAT_CRCERR : Fld.width .PORT_AESSTAT_CRCERR = 8 := rfl
@[simp] theorem Fld.width_PORT_AESSTAT_PARERR : Fld.width .PORT_AESSTAT_PARERR = 8 := rfl
@[simp] theorem Fld.width_PORT_AESCS_CS : Fld.width .PORT_AESCS_CS = 32 := rfl
@[simp] theorem Fld.width_ROUTE_CFG_REVERT_HOLD : Fld.width .ROUTE_CFG_REVERT_HOLD = 8 := rfl
@[simp] theorem Fld.width_ROUTE_CFG_REJ : Fld.width .ROUTE_CFG_REJ = 1 := rfl
@[simp] theorem Fld.width_ROUTE_CFG_DRATIO : Fld.width .ROUTE_CFG_DRATIO = 2 := rfl
@[simp] theorem Fld.width_ROUTE_CFG_ZC_TIMEOUT : Fld.width .ROUTE_CFG_ZC_TIMEOUT = 8 := rfl
@[simp] theorem Fld.width_ROUTE_STAT_FB_SWITCHES : Fld.width .ROUTE_STAT_FB_SWITCHES = 16 := rfl
@[simp] theorem Fld.width_ROUTE_STAT_ZC_TIMEOUTS : Fld.width .ROUTE_STAT_ZC_TIMEOUTS = 16 := rfl
@[simp] theorem Fld.width_ROUTE_DLY_BASE_BASE : Fld.width .ROUTE_DLY_BASE_BASE = 23 := rfl
@[simp] theorem Fld.width_ROUTE_DLY_SIZE_SIZE : Fld.width .ROUTE_DLY_SIZE_SIZE = 23 := rfl
@[simp] theorem Fld.width_ROUTE_FN_CFG_EN : Fld.width .ROUTE_FN_CFG_EN = 1 := rfl
@[simp] theorem Fld.width_ROUTE_FN_CFG_SRC : Fld.width .ROUTE_FN_CFG_SRC = 3 := rfl
@[simp] theorem Fld.width_ROUTE_FN_CFG_INDEX : Fld.width .ROUTE_FN_CFG_INDEX = 8 := rfl
@[simp] theorem Fld.width_ROUTE_FN_CFG_NOM : Fld.width .ROUTE_FN_CFG_NOM = 4 := rfl
@[simp] theorem Fld.width_ROUTE_FN_STAT_PRESENT : Fld.width .ROUTE_FN_STAT_PRESENT = 1 := rfl
@[simp] theorem Fld.width_ROUTE_FN_STAT_LOST : Fld.width .ROUTE_FN_STAT_LOST = 1 := rfl
@[simp] theorem Fld.width_ROUTE_FN_STAT_OFFSET : Fld.width .ROUTE_FN_STAT_OFFSET = 24 := rfl
@[simp] theorem Fld.width_ROUTE_BRCFG_EN : Fld.width .ROUTE_BRCFG_EN = 1 := rfl
@[simp] theorem Fld.width_ROUTE_BRCFG_FN : Fld.width .ROUTE_BRCFG_FN = 4 := rfl
@[simp] theorem Fld.width_ROUTE_BRCFG_KIND : Fld.width .ROUTE_BRCFG_KIND = 4 := rfl
@[simp] theorem Fld.width_ROUTE_BRSTAT_STATE : Fld.width .ROUTE_BRSTAT_STATE = 2 := rfl
@[simp] theorem Fld.width_ROUTE_BRSTAT_UNLK : Fld.width .ROUTE_BRSTAT_UNLK = 1 := rfl
@[simp] theorem Fld.width_ROUTE_BRSTAT_OCT : Fld.width .ROUTE_BRSTAT_OCT = 2 := rfl
@[simp] theorem Fld.width_ROUTE_BRSTAT_DLYOFS : Fld.width .ROUTE_BRSTAT_DLYOFS = 3 := rfl
@[simp] theorem Fld.width_ROUTE_BRSTAT_RATIO : Fld.width .ROUTE_BRSTAT_RATIO = 24 := rfl
@[simp] theorem Fld.width_SUM_GP_CFG_TIMEOUT : Fld.width .SUM_GP_CFG_TIMEOUT = 8 := rfl
@[simp] theorem Fld.width_SUM_GP_CFG_RAMP : Fld.width .SUM_GP_CFG_RAMP = 11 := rfl
@[simp] theorem Fld.width_SUM_STAT_GP_TIMEOUTS : Fld.width .SUM_STAT_GP_TIMEOUTS = 16 := rfl
@[simp] theorem Fld.width_SUM_STAT_GP_SAT : Fld.width .SUM_STAT_GP_SAT = 16 := rfl
@[simp] theorem Fld.width_SUM_PEND_NOW : Fld.width .SUM_PEND_NOW = 17 := rfl
@[simp] theorem Fld.width_SUM_PEND_MAX_MAX : Fld.width .SUM_PEND_MAX_MAX = 17 := rfl
@[simp] theorem Fld.width_SUM_DEFER_DEFER : Fld.width .SUM_DEFER_DEFER = 32 := rfl
@[simp] theorem Fld.width_SUM_MIX_BASE_BASE : Fld.width .SUM_MIX_BASE_BASE = 23 := rfl
@[simp] theorem Fld.width_SUM_MIX_SIZE_SIZE : Fld.width .SUM_MIX_SIZE_SIZE = 23 := rfl
@[simp] theorem Fld.width_SUM_METER_SEQ_SEQ : Fld.width .SUM_METER_SEQ_SEQ = 32 := rfl
@[simp] theorem Fld.width_SUM_METER_STAT_K : Fld.width .SUM_METER_STAT_K = 16 := rfl
@[simp] theorem Fld.width_SUM_LOUD_RUN_RUN : Fld.width .SUM_LOUD_RUN_RUN = 32 := rfl
@[simp] theorem Fld.width_SUM_LOUD_RESET_RESET : Fld.width .SUM_LOUD_RESET_RESET = 32 := rfl
@[simp] theorem Fld.width_SUM_DUCK_ACT_ACT : Fld.width .SUM_DUCK_ACT_ACT = 32 := rfl
@[simp] theorem Fld.width_SUM_AMIX_HOLD_HOLD : Fld.width .SUM_AMIX_HOLD_HOLD = 32 := rfl
@[simp] theorem Fld.width_SUM_GEN_STAT_RUN : Fld.width .SUM_GEN_STAT_RUN = 32 := rfl
@[simp] theorem Fld.width_SUM_BUSCFG_SHARED : Fld.width .SUM_BUSCFG_SHARED = 2 := rfl
@[simp] theorem Fld.width_SUM_BUSCFG_LIM_EN : Fld.width .SUM_BUSCFG_LIM_EN = 1 := rfl
@[simp] theorem Fld.width_SUM_BUSCFG_LOOK : Fld.width .SUM_BUSCFG_LOOK = 2 := rfl
@[simp] theorem Fld.width_SUM_LIMA_CEIL : Fld.width .SUM_LIMA_CEIL = 16 := rfl
@[simp] theorem Fld.width_SUM_LIMA_ATTACK : Fld.width .SUM_LIMA_ATTACK = 16 := rfl
@[simp] theorem Fld.width_SUM_LIMR_RELEASE : Fld.width .SUM_LIMR_RELEASE = 16 := rfl
@[simp] theorem Fld.width_SUM_BUSSTAT_GR : Fld.width .SUM_BUSSTAT_GR = 16 := rfl
@[simp] theorem Fld.width_SUM_BUSSTAT_SATCNT : Fld.width .SUM_BUSSTAT_SATCNT = 16 := rfl
@[simp] theorem Fld.width_SUM_BUSN_N : Fld.width .SUM_BUSN_N = 20 := rfl
@[simp] theorem Fld.width_FAB_NODE_INFAB : Fld.width .FAB_NODE_INFAB = 1 := rfl
@[simp] theorem Fld.width_FAB_NODE_ROOT : Fld.width .FAB_NODE_ROOT = 1 := rfl
@[simp] theorem Fld.width_FAB_NODE_TM : Fld.width .FAB_NODE_TM = 1 := rfl
@[simp] theorem Fld.width_FAB_NODE_FLOCK : Fld.width .FAB_NODE_FLOCK = 1 := rfl
@[simp] theorem Fld.width_FAB_NODE_ROOTADDR : Fld.width .FAB_NODE_ROOTADDR = 6 := rfl
@[simp] theorem Fld.width_FAB_NODE_TMADDR : Fld.width .FAB_NODE_TMADDR = 6 := rfl
@[simp] theorem Fld.width_FAB_NODE_NODES : Fld.width .FAB_NODE_NODES = 7 := rfl
@[simp] theorem Fld.width_FAB_NODE_ADDR : Fld.width .FAB_NODE_ADDR = 6 := rfl
@[simp] theorem Fld.width_FAB_NODECFG_FID : Fld.width .FAB_NODECFG_FID = 16 := rfl
@[simp] theorem Fld.width_FAB_NODECFG_RPRIO : Fld.width .FAB_NODECFG_RPRIO = 8 := rfl
@[simp] theorem Fld.width_FAB_NODECFG_TMPRIO : Fld.width .FAB_NODECFG_TMPRIO = 4 := rfl
@[simp] theorem Fld.width_FAB_NODECFG_TMCAND : Fld.width .FAB_NODECFG_TMCAND = 1 := rfl
@[simp] theorem Fld.width_FAB_PREF_PREFV : Fld.width .FAB_PREF_PREFV = 1 := rfl
@[simp] theorem Fld.width_FAB_PREF_PREF : Fld.width .FAB_PREF_PREF = 6 := rfl
@[simp] theorem Fld.width_FAB_SERIAL_LO_SERIAL : Fld.width .FAB_SERIAL_LO_SERIAL = 32 := rfl
@[simp] theorem Fld.width_FAB_SERIAL_HI_SERIAL : Fld.width .FAB_SERIAL_HI_SERIAL = 32 := rfl
@[simp] theorem Fld.width_FAB_FRAMEOFS_LO_FRAMEOFS : Fld.width .FAB_FRAMEOFS_LO_FRAMEOFS = 32 := rfl
@[simp] theorem Fld.width_FAB_FRAMEOFS_HI_FRAMEOFS : Fld.width .FAB_FRAMEOFS_HI_FRAMEOFS = 32 := rfl
@[simp] theorem Fld.width_FAB_GEN_GEN : Fld.width .FAB_GEN_GEN = 16 := rfl
@[simp] theorem Fld.width_FAB_LINK_CFG_EN : Fld.width .FAB_LINK_CFG_EN = 1 := rfl
@[simp] theorem Fld.width_FAB_LINK_CFG_ASYM : Fld.width .FAB_LINK_CFG_ASYM = 16 := rfl
@[simp] theorem Fld.width_FAB_LINK_STAT_STATE : Fld.width .FAB_LINK_STAT_STATE = 3 := rfl
@[simp] theorem Fld.width_FAB_LINK_STAT_FAILS : Fld.width .FAB_LINK_STAT_FAILS = 1 := rfl
@[simp] theorem Fld.width_FAB_LINK_STAT_SUSPECT : Fld.width .FAB_LINK_STAT_SUSPECT = 1 := rfl
@[simp] theorem Fld.width_FAB_LINK_STAT_CAUSE : Fld.width .FAB_LINK_STAT_CAUSE = 4 := rfl
@[simp] theorem Fld.width_FAB_LINK_STAT_PEER : Fld.width .FAB_LINK_STAT_PEER = 6 := rfl
@[simp] theorem Fld.width_FAB_LINK_STAT_PEERLINK : Fld.width .FAB_LINK_STAT_PEERLINK = 2 := rfl
@[simp] theorem Fld.width_FAB_LINK_DLY_DLY : Fld.width .FAB_LINK_DLY_DLY = 24 := rfl
@[simp] theorem Fld.width_FAB_LINK_LOAD_TXCH : Fld.width .FAB_LINK_LOAD_TXCH = 12 := rfl
@[simp] theorem Fld.width_FAB_LINK_LOAD_RXCH : Fld.width .FAB_LINK_LOAD_RXCH = 12 := rfl
@[simp] theorem Fld.width_FAB_LINK_CNT_RETRY : Fld.width .FAB_LINK_CNT_RETRY = 16 := rfl
@[simp] theorem Fld.width_FAB_LINK_CNT_CRCERR : Fld.width .FAB_LINK_CNT_CRCERR = 16 := rfl
@[simp] theorem Fld.width_FAB_ROUTE_VALID : Fld.width .FAB_ROUTE_VALID = 1 := rfl
@[simp] theorem Fld.width_FAB_ROUTE_PLINK : Fld.width .FAB_ROUTE_PLINK = 2 := rfl
@[simp] theorem Fld.width_FAB_ROUTE_AVALID : Fld.width .FAB_ROUTE_AVALID = 1 := rfl
@[simp] theorem Fld.width_FAB_ROUTE_ALINK : Fld.width .FAB_ROUTE_ALINK = 2 := rfl
@[simp] theorem Fld.width_FAB_ROUTE_PHOPS : Fld.width .FAB_ROUTE_PHOPS = 6 := rfl
@[simp] theorem Fld.width_FAB_ROUTE_AHOPS : Fld.width .FAB_ROUTE_AHOPS = 6 := rfl
@[simp] theorem Fld.width_FAB_RXSTAT_STATE : Fld.width .FAB_RXSTAT_STATE = 2 := rfl
@[simp] theorem Fld.width_FAB_RXSTAT_PROT : Fld.width .FAB_RXSTAT_PROT = 1 := rfl
@[simp] theorem Fld.width_FAB_RXSTAT_ONALT : Fld.width .FAB_RXSTAT_ONALT = 1 := rfl
@[simp] theorem Fld.width_FAB_RXSTAT_SRC : Fld.width .FAB_RXSTAT_SRC = 6 := rfl
@[simp] theorem Fld.width_FAB_RXSTAT_LP : Fld.width .FAB_RXSTAT_LP = 6 := rfl
@[simp] theorem Fld.width_FAB_RXSTAT_CONCEAL : Fld.width .FAB_RXSTAT_CONCEAL = 16 := rfl
@[simp] theorem Fld.width_FAB_TXSTAT_RES : Fld.width .FAB_TXSTAT_RES = 1 := rfl
@[simp] theorem Fld.width_FAB_TXSTAT_PROT : Fld.width .FAB_TXSTAT_PROT = 1 := rfl
@[simp] theorem Fld.width_FAB_TXSTAT_ONALT : Fld.width .FAB_TXSTAT_ONALT = 1 := rfl
@[simp] theorem Fld.width_FAB_TXSTAT_DST : Fld.width .FAB_TXSTAT_DST = 6 := rfl
@[simp] theorem Fld.width_FAB_TXSTAT_RCH : Fld.width .FAB_TXSTAT_RCH = 11 := rfl
@[simp] theorem Fld.width_FAB_TXSTAT_LP : Fld.width .FAB_TXSTAT_LP = 6 := rfl
@[simp] theorem Fld.width_PAIR_CFG_MODE : Fld.width .PAIR_CFG_MODE = 2 := rfl
@[simp] theorem Fld.width_PAIR_CFG_SIDE : Fld.width .PAIR_CFG_SIDE = 1 := rfl
@[simp] theorem Fld.width_PAIR_CFG_LINK : Fld.width .PAIR_CFG_LINK = 2 := rfl
@[simp] theorem Fld.width_PAIR_CFG_LEAD : Fld.width .PAIR_CFG_LEAD = 4 := rfl
@[simp] theorem Fld.width_PAIR_CFG_AUTOHAND : Fld.width .PAIR_CFG_AUTOHAND = 1 := rfl
@[simp] theorem Fld.width_PAIR_CFG_CONV : Fld.width .PAIR_CFG_CONV = 12 := rfl
@[simp] theorem Fld.width_PAIR_PEER_LO_PEER : Fld.width .PAIR_PEER_LO_PEER = 32 := rfl
@[simp] theorem Fld.width_PAIR_PEER_HI_PEER : Fld.width .PAIR_PEER_HI_PEER = 32 := rfl
@[simp] theorem Fld.width_PAIR_STAT_ROLE : Fld.width .PAIR_STAT_ROLE = 2 := rfl
@[simp] theorem Fld.width_PAIR_STAT_PSTATE : Fld.width .PAIR_STAT_PSTATE = 2 := rfl
@[simp] theorem Fld.width_PAIR_STAT_FORMED : Fld.width .PAIR_STAT_FORMED = 1 := rfl
@[simp] theorem Fld.width_PAIR_STAT_TIDE_OK : Fld.width .PAIR_STAT_TIDE_OK = 1 := rfl
@[simp] theorem Fld.width_PAIR_STAT_LINK_OK : Fld.width .PAIR_STAT_LINK_OK = 1 := rfl
@[simp] theorem Fld.width_PAIR_STAT_LINE : Fld.width .PAIR_STAT_LINE = 1 := rfl
@[simp] theorem Fld.width_PAIR_STAT_LTOK : Fld.width .PAIR_STAT_LTOK = 1 := rfl
@[simp] theorem Fld.width_PAIR_STAT_AUTO : Fld.width .PAIR_STAT_AUTO = 1 := rfl
@[simp] theorem Fld.width_PAIR_STAT_TAKEN : Fld.width .PAIR_STAT_TAKEN = 1 := rfl
@[simp] theorem Fld.width_PAIR_STAT_EPAGE : Fld.width .PAIR_STAT_EPAGE = 16 := rfl
@[simp] theorem Fld.width_PAIR_CNT_TIDEMISS : Fld.width .PAIR_CNT_TIDEMISS = 16 := rfl
@[simp] theorem Fld.width_PAIR_CNT_HBMISS : Fld.width .PAIR_CNT_HBMISS = 16 := rfl
@[simp] theorem Fld.width_PAIR_CRCMIS_CRCMIS : Fld.width .PAIR_CRCMIS_CRCMIS = 32 := rfl
@[simp] theorem Fld.width_PAIR_GRP_INSYNC : Fld.width .PAIR_GRP_INSYNC = 32 := rfl
@[simp] theorem Fld.width_PAIR_EPOCH_LAST : Fld.width .PAIR_EPOCH_LAST = 16 := rfl
@[simp] theorem Fld.width_PAIR_EPOCH_ABANDONED : Fld.width .PAIR_EPOCH_ABANDONED = 8 := rfl
@[simp] theorem Fld.width_PAIR_STATE_BASE_BASE : Fld.width .PAIR_STATE_BASE_BASE = 23 := rfl
@[simp] theorem Fld.width_PAIR_STATE_SIZE_SIZE : Fld.width .PAIR_STATE_SIZE_SIZE = 23 := rfl

end Sys2Proof.Machine
end

