-- ==== Sys2Proof/Laws/SMap.lean ====
section
/-! SUPPORT. What a sparse table does: a read after a write, and that every write keeps the canonical form. -/
namespace Sys2Proof.Machine

set_option Elab.async false

variable {α : Type}

@[simp] theorem tget_nil (d : α) (i : Nat) : tget d [] i = d := rfl

theorem tget_terase_self (d : α) (t : Table α) (i : Nat) : tget d (terase t i) i = d := by
  induction t with
  | nil => rfl
  | cons p t ih => by_cases h : p.1 = i <;> simp [terase, tget, h, ih]

theorem tget_terase_ne (d : α) (t : Table α) {i j : Nat} (hij : i ≠ j) : tget d (terase t i) j = tget d t j := by
  induction t with
  | nil => rfl
  | cons p t ih =>
    by_cases h : p.1 = i
    · simp [terase, tget, h, ih, hij]
    · simp only [terase, h, if_false, tget, ih]

theorem tget_tinsert_ne (d : α) (t : Table α) {i j : Nat} (v : α) (hij : i ≠ j) :
    tget d (tinsert t i v) j = tget d t j := by
  induction t with
  | nil => simp [tinsert, tget, hij]
  | cons p t ih =>
    by_cases h : i < p.1
    · simp [tinsert, tget, h, hij]
    · simp only [tinsert, h, if_false, tget, ih]

theorem tget_tinsert_terase_self (d : α) (t : Table α) (i : Nat) (v : α) :
    tget d (tinsert (terase t i) i v) i = v := by
  induction t with
  | nil => simp [terase, tinsert, tget]
  | cons p t ih =>
    by_cases h : p.1 = i
    · simp [terase, h, ih]
    · by_cases h' : i < p.1 <;> simp [terase, tinsert, tget, h, h', ih]

@[simp] theorem tget_tput_self [DecidableEq α] (d : α) (t : Table α) (i : Nat) (v : α) :
    tget d (tput d t i v) i = v := by
  unfold tput
  split
  · next h => rw [tget_terase_self, h]
  · exact tget_tinsert_terase_self d t i v

theorem tget_tput_ne [DecidableEq α] (d : α) (t : Table α) {i j : Nat} (v : α) (hij : i ≠ j) :
    tget d (tput d t i v) j = tget d t j := by
  unfold tput
  split
  · exact tget_terase_ne d t hij
  · rw [tget_tinsert_ne d _ v hij, tget_terase_ne d t hij]

/-- A read under another default. -/
theorem tget_tput_ne' [DecidableEq α] (d d' : α) (t : Table α) {i j : Nat} (v : α) (hij : i ≠ j) :
    tget d' (tput d t i v) j = tget d' t j := by
  unfold tput
  split
  · exact tget_terase_ne d' t hij
  · rw [tget_tinsert_ne d' _ v hij, tget_terase_ne d' t hij]

theorem tget_tput [DecidableEq α] (d : α) (t : Table α) (i j : Nat) (v : α) :
    tget d (tput d t i v) j = if i = j then v else tget d t j := by
  split
  · next h => subst h; exact tget_tput_self d t i v
  · next h => exact tget_tput_ne d t v h

theorem tsortedFrom_mono {lo lo' : Nat} {t : Table α} (h : lo' ≤ lo) (ht : tsortedFrom lo t = true) :
    tsortedFrom lo' t = true := by
  cases t with
  | nil => rfl
  | cons p t => simp [tsortedFrom] at ht ⊢; exact ⟨by omega, ht.2⟩

theorem tsortedFrom_terase {lo : Nat} {t : Table α} (i : Nat) (h : tsortedFrom lo t = true) :
    tsortedFrom lo (terase t i) = true := by
  induction t generalizing lo with
  | nil => rfl
  | cons p t ih =>
    simp [tsortedFrom] at h
    by_cases hp : p.1 = i
    · simp [terase, hp]; exact ih (tsortedFrom_mono (by omega) h.2)
    · simp [terase, hp, tsortedFrom]; exact ⟨h.1, ih h.2⟩

theorem tsortedFrom_tinsert_terase {lo : Nat} {t : Table α} {i : Nat} (v : α) (hi : lo ≤ i)
    (h : tsortedFrom lo t = true) : tsortedFrom lo (tinsert (terase t i) i v) = true := by
  induction t generalizing lo with
  | nil => simp [terase, tinsert, tsortedFrom, hi]
  | cons p t ih =>
    simp [tsortedFrom] at h
    by_cases hp : p.1 = i
    · simp [terase, hp]
      exact ih hi (tsortedFrom_mono (by omega) h.2)
    · by_cases hlt : i < p.1
      · simp only [terase, hp, if_false, tinsert, hlt, if_true, tsortedFrom, Bool.and_eq_true, decide_eq_true_eq]
        exact ⟨hi, by omega, tsortedFrom_terase i h.2⟩
      · simp [terase, hp, tinsert, hlt, tsortedFrom]
        exact ⟨h.1, ih (by omega) h.2⟩

theorem tdense_terase [DecidableEq α] {d : α} {t : Table α} (i : Nat) (h : tdense d t = true) :
    tdense d (terase t i) = true := by
  induction t with
  | nil => rfl
  | cons p t ih =>
    simp [tdense] at h
    by_cases hp : p.1 = i <;> simp [terase, hp, tdense, h, ih]

theorem tdense_tinsert [DecidableEq α] {d : α} {t : Table α} (i : Nat) {v : α} (hv : v ≠ d) (h : tdense d t = true) :
    tdense d (tinsert t i v) = true := by
  induction t with
  | nil => simp [tinsert, tdense, hv]
  | cons p t ih =>
    simp [tdense] at h
    by_cases hp : i < p.1 <;> simp [tinsert, hp, tdense, h, ih, hv]

/-- A write keeps the canonical form. -/
theorem twf_tput [DecidableEq α] {d : α} {t : Table α} (i : Nat) (v : α) (h : twf d t = true) :
    twf d (tput d t i v) = true := by
  simp only [twf, Bool.and_eq_true] at h ⊢
  unfold tput
  split
  · exact ⟨tsortedFrom_terase i h.1, tdense_terase i h.2⟩
  · next hv => exact ⟨tsortedFrom_tinsert_terase v (Nat.zero_le i) h.1, tdense_tinsert i hv (tdense_terase i h.2)⟩

end Sys2Proof.Machine
end

