-- ==== Sys2Proof/Laws/State.lean ====
section
/-! SUPPORT. One lemma per field of the engine per update of it: what each update leaves as it was, and what it writes. -/
namespace Sys2Proof.Machine

set_option Elab.async false

/-! ### Fields that an update leaves -/

section
variable (f : Fld) (i v : Nat) (e : Engine)
@[simp] theorem setF_regsNext : (setF f i v e).regsNext = e.regsNext := rfl
@[simp] theorem setF_latch : (setF f i v e).latch = e.latch := rfl
@[simp] theorem setF_mem : (setF f i v e).mem = e.mem := rfl
@[simp] theorem setF_ecc : (setF f i v e).ecc = e.ecc := rfl
@[simp] theorem setF_cells : (setF f i v e).cells = e.cells := rfl
@[simp] theorem setF_sched : (setF f i v e).sched = e.sched := rfl
@[simp] theorem setF_health : (setF f i v e).health = e.health := rfl
@[simp] theorem setF_mix : (setF f i v e).mix = e.mix := rfl
@[simp] theorem setF_ports : (setF f i v e).ports = e.ports := rfl
@[simp] theorem setF_clk : (setF f i v e).clk = e.clk := rfl
@[simp] theorem setF_net : (setF f i v e).net = e.net := rfl
@[simp] theorem setF_ptp : (setF f i v e).ptp = e.ptp := rfl
@[simp] theorem setF_fab : (setF f i v e).fab = e.fab := rfl
@[simp] theorem setF_pair : (setF f i v e).pair = e.pair := rfl
@[simp] theorem setF_ctl : (setF f i v e).ctl = e.ctl := rfl
@[simp] theorem setF_xmem : (setF f i v e).xmem = e.xmem := rfl
@[simp] theorem setF_host : (setF f i v e).host = e.host := rfl
@[simp] theorem setF_sample : (setF f i v e).sample = e.sample := rfl
@[simp] theorem setF_held : (setF f i v e).held = e.held := rfl
@[simp] theorem setF_free : (setF f i v e).free = e.free := rfl
end

section
variable (a : Nat) (v : Byte) (e : Engine)
@[simp] theorem writeByte_regs : (writeByte a v e).regs = e.regs := rfl
@[simp] theorem writeByte_regsNext : (writeByte a v e).regsNext = e.regsNext := rfl
@[simp] theorem writeByte_latch : (writeByte a v e).latch = e.latch := rfl
@[simp] theorem writeByte_ecc : (writeByte a v e).ecc = e.ecc := rfl
@[simp] theorem writeByte_cells : (writeByte a v e).cells = e.cells := rfl
@[simp] theorem writeByte_sched : (writeByte a v e).sched = e.sched := rfl
@[simp] theorem writeByte_health : (writeByte a v e).health = e.health := rfl
@[simp] theorem writeByte_mix : (writeByte a v e).mix = e.mix := rfl
@[simp] theorem writeByte_ports : (writeByte a v e).ports = e.ports := rfl
@[simp] theorem writeByte_clk : (writeByte a v e).clk = e.clk := rfl
@[simp] theorem writeByte_net : (writeByte a v e).net = e.net := rfl
@[simp] theorem writeByte_ptp : (writeByte a v e).ptp = e.ptp := rfl
@[simp] theorem writeByte_fab : (writeByte a v e).fab = e.fab := rfl
@[simp] theorem writeByte_pair : (writeByte a v e).pair = e.pair := rfl
@[simp] theorem writeByte_ctl : (writeByte a v e).ctl = e.ctl := rfl
@[simp] theorem writeByte_xmem : (writeByte a v e).xmem = e.xmem := rfl
@[simp] theorem writeByte_host : (writeByte a v e).host = e.host := rfl
@[simp] theorem writeByte_sample : (writeByte a v e).sample = e.sample := rfl
@[simp] theorem writeByte_held : (writeByte a v e).held = e.held := rfl
@[simp] theorem writeByte_free : (writeByte a v e).free = e.free := rfl
@[simp] theorem writeByte_getF (g : Fld) (j : Nat) : getF g j (writeByte a v e) = getF g j e := rfl
end

section
variable (a v : Nat) (e : Engine)
@[simp] theorem setEcc_regs : (setEcc a v e).regs = e.regs := rfl
@[simp] theorem setEcc_regsNext : (setEcc a v e).regsNext = e.regsNext := rfl
@[simp] theorem setEcc_latch : (setEcc a v e).latch = e.latch := rfl
@[simp] theorem setEcc_mem : (setEcc a v e).mem = e.mem := rfl
@[simp] theorem setEcc_cells : (setEcc a v e).cells = e.cells := rfl
@[simp] theorem setEcc_sched : (setEcc a v e).sched = e.sched := rfl
@[simp] theorem setEcc_health : (setEcc a v e).health = e.health := rfl
@[simp] theorem setEcc_mix : (setEcc a v e).mix = e.mix := rfl
@[simp] theorem setEcc_ports : (setEcc a v e).ports = e.ports := rfl
@[simp] theorem setEcc_clk : (setEcc a v e).clk = e.clk := rfl
@[simp] theorem setEcc_net : (setEcc a v e).net = e.net := rfl
@[simp] theorem setEcc_ptp : (setEcc a v e).ptp = e.ptp := rfl
@[simp] theorem setEcc_fab : (setEcc a v e).fab = e.fab := rfl
@[simp] theorem setEcc_pair : (setEcc a v e).pair = e.pair := rfl
@[simp] theorem setEcc_ctl : (setEcc a v e).ctl = e.ctl := rfl
@[simp] theorem setEcc_xmem : (setEcc a v e).xmem = e.xmem := rfl
@[simp] theorem setEcc_host : (setEcc a v e).host = e.host := rfl
@[simp] theorem setEcc_sample : (setEcc a v e).sample = e.sample := rfl
@[simp] theorem setEcc_held : (setEcc a v e).held = e.held := rfl
@[simp] theorem setEcc_free : (setEcc a v e).free = e.free := rfl
@[simp] theorem setEcc_getF (g : Fld) (j : Nat) : getF g j (setEcc a v e) = getF g j e := rfl
end

section
variable (v : Nat) (e : Engine)
@[simp] theorem fireMsi_regs : (fireMsi v e).regs = e.regs := rfl
@[simp] theorem fireMsi_regsNext : (fireMsi v e).regsNext = e.regsNext := rfl
@[simp] theorem fireMsi_latch : (fireMsi v e).latch = e.latch := rfl
@[simp] theorem fireMsi_mem : (fireMsi v e).mem = e.mem := rfl
@[simp] theorem fireMsi_ecc : (fireMsi v e).ecc = e.ecc := rfl
@[simp] theorem fireMsi_cells : (fireMsi v e).cells = e.cells := rfl
@[simp] theorem fireMsi_sched : (fireMsi v e).sched = e.sched := rfl
@[simp] theorem fireMsi_health : (fireMsi v e).health = e.health := rfl
@[simp] theorem fireMsi_mix : (fireMsi v e).mix = e.mix := rfl
@[simp] theorem fireMsi_ports : (fireMsi v e).ports = e.ports := rfl
@[simp] theorem fireMsi_clk : (fireMsi v e).clk = e.clk := rfl
@[simp] theorem fireMsi_net : (fireMsi v e).net = e.net := rfl
@[simp] theorem fireMsi_ptp : (fireMsi v e).ptp = e.ptp := rfl
@[simp] theorem fireMsi_fab : (fireMsi v e).fab = e.fab := rfl
@[simp] theorem fireMsi_pair : (fireMsi v e).pair = e.pair := rfl
@[simp] theorem fireMsi_xmem : (fireMsi v e).xmem = e.xmem := rfl
@[simp] theorem fireMsi_host : (fireMsi v e).host = e.host := rfl
@[simp] theorem fireMsi_sample : (fireMsi v e).sample = e.sample := rfl
@[simp] theorem fireMsi_held : (fireMsi v e).held = e.held := rfl
@[simp] theorem fireMsi_free : (fireMsi v e).free = e.free := rfl
@[simp] theorem fireMsi_getF (g : Fld) (j : Nat) : getF g j (fireMsi v e) = getF g j e := rfl
end

section
variable  (e : Engine)
@[simp] theorem markFault_regs : (markFault e).regs = e.regs := rfl
@[simp] theorem markFault_regsNext : (markFault e).regsNext = e.regsNext := rfl
@[simp] theorem markFault_latch : (markFault e).latch = e.latch := rfl
@[simp] theorem markFault_mem : (markFault e).mem = e.mem := rfl
@[simp] theorem markFault_ecc : (markFault e).ecc = e.ecc := rfl
@[simp] theorem markFault_cells : (markFault e).cells = e.cells := rfl
@[simp] theorem markFault_sched : (markFault e).sched = e.sched := rfl
@[simp] theorem markFault_health : (markFault e).health = e.health := rfl
@[simp] theorem markFault_mix : (markFault e).mix = e.mix := rfl
@[simp] theorem markFault_ports : (markFault e).ports = e.ports := rfl
@[simp] theorem markFault_clk : (markFault e).clk = e.clk := rfl
@[simp] theorem markFault_net : (markFault e).net = e.net := rfl
@[simp] theorem markFault_ptp : (markFault e).ptp = e.ptp := rfl
@[simp] theorem markFault_fab : (markFault e).fab = e.fab := rfl
@[simp] theorem markFault_ctl : (markFault e).ctl = e.ctl := rfl
@[simp] theorem markFault_xmem : (markFault e).xmem = e.xmem := rfl
@[simp] theorem markFault_host : (markFault e).host = e.host := rfl
@[simp] theorem markFault_sample : (markFault e).sample = e.sample := rfl
@[simp] theorem markFault_held : (markFault e).held = e.held := rfl
@[simp] theorem markFault_free : (markFault e).free = e.free := rfl
@[simp] theorem markFault_getF (g : Fld) (j : Nat) : getF g j (markFault e) = getF g j e := rfl
end

section
variable (c : Nat) (v : Cell) (e : Engine)
@[simp] theorem setCell_regs : (setCell c v e).regs = e.regs := rfl
@[simp] theorem setCell_regsNext : (setCell c v e).regsNext = e.regsNext := rfl
@[simp] theorem setCell_latch : (setCell c v e).latch = e.latch := rfl
@[simp] theorem setCell_mem : (setCell c v e).mem = e.mem := rfl
@[simp] theorem setCell_ecc : (setCell c v e).ecc = e.ecc := rfl
@[simp] theorem setCell_sched : (setCell c v e).sched = e.sched := rfl
@[simp] theorem setCell_health : (setCell c v e).health = e.health := rfl
@[simp] theorem setCell_mix : (setCell c v e).mix = e.mix := rfl
@[simp] theorem setCell_ports : (setCell c v e).ports = e.ports := rfl
@[simp] theorem setCell_clk : (setCell c v e).clk = e.clk := rfl
@[simp] theorem setCell_net : (setCell c v e).net = e.net := rfl
@[simp] theorem setCell_ptp : (setCell c v e).ptp = e.ptp := rfl
@[simp] theorem setCell_fab : (setCell c v e).fab = e.fab := rfl
@[simp] theorem setCell_pair : (setCell c v e).pair = e.pair := rfl
@[simp] theorem setCell_ctl : (setCell c v e).ctl = e.ctl := rfl
@[simp] theorem setCell_xmem : (setCell c v e).xmem = e.xmem := rfl
@[simp] theorem setCell_host : (setCell c v e).host = e.host := rfl
@[simp] theorem setCell_sample : (setCell c v e).sample = e.sample := rfl
@[simp] theorem setCell_held : (setCell c v e).held = e.held := rfl
@[simp] theorem setCell_free : (setCell c v e).free = e.free := rfl
@[simp] theorem setCell_getF (g : Fld) (j : Nat) : getF g j (setCell c v e) = getF g j e := rfl
end

section
variable (i : Nat) (r : ItemRun) (e : Engine)
@[simp] theorem setRun_regs : (setRun i r e).regs = e.regs := rfl
@[simp] theorem setRun_regsNext : (setRun i r e).regsNext = e.regsNext := rfl
@[simp] theorem setRun_latch : (setRun i r e).latch = e.latch := rfl
@[simp] theorem setRun_mem : (setRun i r e).mem = e.mem := rfl
@[simp] theorem setRun_ecc : (setRun i r e).ecc = e.ecc := rfl
@[simp] theorem setRun_cells : (setRun i r e).cells = e.cells := rfl
@[simp] theorem setRun_health : (setRun i r e).health = e.health := rfl
@[simp] theorem setRun_mix : (setRun i r e).mix = e.mix := rfl
@[simp] theorem setRun_ports : (setRun i r e).ports = e.ports := rfl
@[simp] theorem setRun_clk : (setRun i r e).clk = e.clk := rfl
@[simp] theorem setRun_net : (setRun i r e).net = e.net := rfl
@[simp] theorem setRun_ptp : (setRun i r e).ptp = e.ptp := rfl
@[simp] theorem setRun_fab : (setRun i r e).fab = e.fab := rfl
@[simp] theorem setRun_pair : (setRun i r e).pair = e.pair := rfl
@[simp] theorem setRun_ctl : (setRun i r e).ctl = e.ctl := rfl
@[simp] theorem setRun_xmem : (setRun i r e).xmem = e.xmem := rfl
@[simp] theorem setRun_host : (setRun i r e).host = e.host := rfl
@[simp] theorem setRun_sample : (setRun i r e).sample = e.sample := rfl
@[simp] theorem setRun_held : (setRun i r e).held = e.held := rfl
@[simp] theorem setRun_free : (setRun i r e).free = e.free := rfl
@[simp] theorem setRun_getF (g : Fld) (j : Nat) : getF g j (setRun i r e) = getF g j e := rfl
end

section
variable (s : Nat) (c : Conceal) (e : Engine)
@[simp] theorem setConc_regs : (setConc s c e).regs = e.regs := rfl
@[simp] theorem setConc_regsNext : (setConc s c e).regsNext = e.regsNext := rfl
@[simp] theorem setConc_latch : (setConc s c e).latch = e.latch := rfl
@[simp] theorem setConc_mem : (setConc s c e).mem = e.mem := rfl
@[simp] theorem setConc_ecc : (setConc s c e).ecc = e.ecc := rfl
@[simp] theorem setConc_cells : (setConc s c e).cells = e.cells := rfl
@[simp] theorem setConc_health : (setConc s c e).health = e.health := rfl
@[simp] theorem setConc_mix : (setConc s c e).mix = e.mix := rfl
@[simp] theorem setConc_ports : (setConc s c e).ports = e.ports := rfl
@[simp] theorem setConc_clk : (setConc s c e).clk = e.clk := rfl
@[simp] theorem setConc_net : (setConc s c e).net = e.net := rfl
@[simp] theorem setConc_ptp : (setConc s c e).ptp = e.ptp := rfl
@[simp] theorem setConc_fab : (setConc s c e).fab = e.fab := rfl
@[simp] theorem setConc_pair : (setConc s c e).pair = e.pair := rfl
@[simp] theorem setConc_ctl : (setConc s c e).ctl = e.ctl := rfl
@[simp] theorem setConc_xmem : (setConc s c e).xmem = e.xmem := rfl
@[simp] theorem setConc_host : (setConc s c e).host = e.host := rfl
@[simp] theorem setConc_sample : (setConc s c e).sample = e.sample := rfl
@[simp] theorem setConc_held : (setConc s c e).held = e.held := rfl
@[simp] theorem setConc_free : (setConc s c e).free = e.free := rfl
@[simp] theorem setConc_getF (g : Fld) (j : Nat) : getF g j (setConc s c e) = getF g j e := rfl
end

section
variable (s : Nat) (ys : List Int) (e : Engine)
@[simp] theorem setSig_regs : (setSig s ys e).regs = e.regs := rfl
@[simp] theorem setSig_regsNext : (setSig s ys e).regsNext = e.regsNext := rfl
@[simp] theorem setSig_latch : (setSig s ys e).latch = e.latch := rfl
@[simp] theorem setSig_mem : (setSig s ys e).mem = e.mem := rfl
@[simp] theorem setSig_ecc : (setSig s ys e).ecc = e.ecc := rfl
@[simp] theorem setSig_cells : (setSig s ys e).cells = e.cells := rfl
@[simp] theorem setSig_sched : (setSig s ys e).sched = e.sched := rfl
@[simp] theorem setSig_health : (setSig s ys e).health = e.health := rfl
@[simp] theorem setSig_ports : (setSig s ys e).ports = e.ports := rfl
@[simp] theorem setSig_clk : (setSig s ys e).clk = e.clk := rfl
@[simp] theorem setSig_net : (setSig s ys e).net = e.net := rfl
@[simp] theorem setSig_ptp : (setSig s ys e).ptp = e.ptp := rfl
@[simp] theorem setSig_fab : (setSig s ys e).fab = e.fab := rfl
@[simp] theorem setSig_pair : (setSig s ys e).pair = e.pair := rfl
@[simp] theorem setSig_ctl : (setSig s ys e).ctl = e.ctl := rfl
@[simp] theorem setSig_xmem : (setSig s ys e).xmem = e.xmem := rfl
@[simp] theorem setSig_host : (setSig s ys e).host = e.host := rfl
@[simp] theorem setSig_sample : (setSig s ys e).sample = e.sample := rfl
@[simp] theorem setSig_held : (setSig s ys e).held = e.held := rfl
@[simp] theorem setSig_free : (setSig s ys e).free = e.free := rfl
@[simp] theorem setSig_getF (g : Fld) (j : Nat) : getF g j (setSig s ys e) = getF g j e := rfl
end

section
variable (t : Nat) (k : Sink) (e : Engine)
@[simp] theorem setSink_regs : (setSink t k e).regs = e.regs := rfl
@[simp] theorem setSink_regsNext : (setSink t k e).regsNext = e.regsNext := rfl
@[simp] theorem setSink_latch : (setSink t k e).latch = e.latch := rfl
@[simp] theorem setSink_mem : (setSink t k e).mem = e.mem := rfl
@[simp] theorem setSink_ecc : (setSink t k e).ecc = e.ecc := rfl
@[simp] theorem setSink_cells : (setSink t k e).cells = e.cells := rfl
@[simp] theorem setSink_sched : (setSink t k e).sched = e.sched := rfl
@[simp] theorem setSink_health : (setSink t k e).health = e.health := rfl
@[simp] theorem setSink_ports : (setSink t k e).ports = e.ports := rfl
@[simp] theorem setSink_clk : (setSink t k e).clk = e.clk := rfl
@[simp] theorem setSink_net : (setSink t k e).net = e.net := rfl
@[simp] theorem setSink_ptp : (setSink t k e).ptp = e.ptp := rfl
@[simp] theorem setSink_fab : (setSink t k e).fab = e.fab := rfl
@[simp] theorem setSink_pair : (setSink t k e).pair = e.pair := rfl
@[simp] theorem setSink_ctl : (setSink t k e).ctl = e.ctl := rfl
@[simp] theorem setSink_xmem : (setSink t k e).xmem = e.xmem := rfl
@[simp] theorem setSink_host : (setSink t k e).host = e.host := rfl
@[simp] theorem setSink_sample : (setSink t k e).sample = e.sample := rfl
@[simp] theorem setSink_held : (setSink t k e).held = e.held := rfl
@[simp] theorem setSink_free : (setSink t k e).free = e.free := rfl
@[simp] theorem setSink_getF (g : Fld) (j : Nat) : getF g j (setSink t k e) = getF g j e := rfl
end

section
variable (i : Nat) (p : Gp) (e : Engine)
@[simp] theorem setGp_regs : (setGp i p e).regs = e.regs := rfl
@[simp] theorem setGp_regsNext : (setGp i p e).regsNext = e.regsNext := rfl
@[simp] theorem setGp_latch : (setGp i p e).latch = e.latch := rfl
@[simp] theorem setGp_mem : (setGp i p e).mem = e.mem := rfl
@[simp] theorem setGp_ecc : (setGp i p e).ecc = e.ecc := rfl
@[simp] theorem setGp_cells : (setGp i p e).cells = e.cells := rfl
@[simp] theorem setGp_sched : (setGp i p e).sched = e.sched := rfl
@[simp] theorem setGp_health : (setGp i p e).health = e.health := rfl
@[simp] theorem setGp_ports : (setGp i p e).ports = e.ports := rfl
@[simp] theorem setGp_clk : (setGp i p e).clk = e.clk := rfl
@[simp] theorem setGp_net : (setGp i p e).net = e.net := rfl
@[simp] theorem setGp_ptp : (setGp i p e).ptp = e.ptp := rfl
@[simp] theorem setGp_fab : (setGp i p e).fab = e.fab := rfl
@[simp] theorem setGp_pair : (setGp i p e).pair = e.pair := rfl
@[simp] theorem setGp_ctl : (setGp i p e).ctl = e.ctl := rfl
@[simp] theorem setGp_xmem : (setGp i p e).xmem = e.xmem := rfl
@[simp] theorem setGp_host : (setGp i p e).host = e.host := rfl
@[simp] theorem setGp_sample : (setGp i p e).sample = e.sample := rfl
@[simp] theorem setGp_held : (setGp i p e).held = e.held := rfl
@[simp] theorem setGp_free : (setGp i p e).free = e.free := rfl
@[simp] theorem setGp_getF (g : Fld) (j : Nat) : getF g j (setGp i p e) = getF g j e := rfl
end

section
variable (k : Nat) (r : Ring) (e : Engine)
@[simp] theorem setRing_regs : (setRing k r e).regs = e.regs := rfl
@[simp] theorem setRing_regsNext : (setRing k r e).regsNext = e.regsNext := rfl
@[simp] theorem setRing_latch : (setRing k r e).latch = e.latch := rfl
@[simp] theorem setRing_mem : (setRing k r e).mem = e.mem := rfl
@[simp] theorem setRing_ecc : (setRing k r e).ecc = e.ecc := rfl
@[simp] theorem setRing_cells : (setRing k r e).cells = e.cells := rfl
@[simp] theorem setRing_sched : (setRing k r e).sched = e.sched := rfl
@[simp] theorem setRing_health : (setRing k r e).health = e.health := rfl
@[simp] theorem setRing_mix : (setRing k r e).mix = e.mix := rfl
@[simp] theorem setRing_ports : (setRing k r e).ports = e.ports := rfl
@[simp] theorem setRing_clk : (setRing k r e).clk = e.clk := rfl
@[simp] theorem setRing_net : (setRing k r e).net = e.net := rfl
@[simp] theorem setRing_ptp : (setRing k r e).ptp = e.ptp := rfl
@[simp] theorem setRing_fab : (setRing k r e).fab = e.fab := rfl
@[simp] theorem setRing_pair : (setRing k r e).pair = e.pair := rfl
@[simp] theorem setRing_xmem : (setRing k r e).xmem = e.xmem := rfl
@[simp] theorem setRing_host : (setRing k r e).host = e.host := rfl
@[simp] theorem setRing_sample : (setRing k r e).sample = e.sample := rfl
@[simp] theorem setRing_held : (setRing k r e).held = e.held := rfl
@[simp] theorem setRing_free : (setRing k r e).free = e.free := rfl
@[simp] theorem setRing_getF (g : Fld) (j : Nat) : getF g j (setRing k r e) = getF g j e := rfl
end

section
variable (p : Nat) (v : Port) (e : Engine)
@[simp] theorem setPort_regs : (setPort p v e).regs = e.regs := rfl
@[simp] theorem setPort_regsNext : (setPort p v e).regsNext = e.regsNext := rfl
@[simp] theorem setPort_latch : (setPort p v e).latch = e.latch := rfl
@[simp] theorem setPort_mem : (setPort p v e).mem = e.mem := rfl
@[simp] theorem setPort_ecc : (setPort p v e).ecc = e.ecc := rfl
@[simp] theorem setPort_cells : (setPort p v e).cells = e.cells := rfl
@[simp] theorem setPort_sched : (setPort p v e).sched = e.sched := rfl
@[simp] theorem setPort_health : (setPort p v e).health = e.health := rfl
@[simp] theorem setPort_mix : (setPort p v e).mix = e.mix := rfl
@[simp] theorem setPort_clk : (setPort p v e).clk = e.clk := rfl
@[simp] theorem setPort_net : (setPort p v e).net = e.net := rfl
@[simp] theorem setPort_ptp : (setPort p v e).ptp = e.ptp := rfl
@[simp] theorem setPort_fab : (setPort p v e).fab = e.fab := rfl
@[simp] theorem setPort_pair : (setPort p v e).pair = e.pair := rfl
@[simp] theorem setPort_ctl : (setPort p v e).ctl = e.ctl := rfl
@[simp] theorem setPort_xmem : (setPort p v e).xmem = e.xmem := rfl
@[simp] theorem setPort_host : (setPort p v e).host = e.host := rfl
@[simp] theorem setPort_sample : (setPort p v e).sample = e.sample := rfl
@[simp] theorem setPort_held : (setPort p v e).held = e.held := rfl
@[simp] theorem setPort_free : (setPort p v e).free = e.free := rfl
@[simp] theorem setPort_getF (g : Fld) (j : Nat) : getF g j (setPort p v e) = getF g j e := rfl
end

section
variable (n : Nat) (v : Group) (e : Engine)
@[simp] theorem setGroup_regs : (setGroup n v e).regs = e.regs := rfl
@[simp] theorem setGroup_regsNext : (setGroup n v e).regsNext = e.regsNext := rfl
@[simp] theorem setGroup_latch : (setGroup n v e).latch = e.latch := rfl
@[simp] theorem setGroup_mem : (setGroup n v e).mem = e.mem := rfl
@[simp] theorem setGroup_ecc : (setGroup n v e).ecc = e.ecc := rfl
@[simp] theorem setGroup_cells : (setGroup n v e).cells = e.cells := rfl
@[simp] theorem setGroup_sched : (setGroup n v e).sched = e.sched := rfl
@[simp] theorem setGroup_health : (setGroup n v e).health = e.health := rfl
@[simp] theorem setGroup_mix : (setGroup n v e).mix = e.mix := rfl
@[simp] theorem setGroup_clk : (setGroup n v e).clk = e.clk := rfl
@[simp] theorem setGroup_net : (setGroup n v e).net = e.net := rfl
@[simp] theorem setGroup_ptp : (setGroup n v e).ptp = e.ptp := rfl
@[simp] theorem setGroup_fab : (setGroup n v e).fab = e.fab := rfl
@[simp] theorem setGroup_pair : (setGroup n v e).pair = e.pair := rfl
@[simp] theorem setGroup_ctl : (setGroup n v e).ctl = e.ctl := rfl
@[simp] theorem setGroup_xmem : (setGroup n v e).xmem = e.xmem := rfl
@[simp] theorem setGroup_host : (setGroup n v e).host = e.host := rfl
@[simp] theorem setGroup_sample : (setGroup n v e).sample = e.sample := rfl
@[simp] theorem setGroup_held : (setGroup n v e).held = e.held := rfl
@[simp] theorem setGroup_free : (setGroup n v e).free = e.free := rfl
@[simp] theorem setGroup_getF (g : Fld) (j : Nat) : getF g j (setGroup n v e) = getF g j e := rfl
end

section
variable (n : Nat) (v : RefSlot) (e : Engine)
@[simp] theorem setSlot_regs : (setSlot n v e).regs = e.regs := rfl
@[simp] theorem setSlot_regsNext : (setSlot n v e).regsNext = e.regsNext := rfl
@[simp] theorem setSlot_latch : (setSlot n v e).latch = e.latch := rfl
@[simp] theorem setSlot_mem : (setSlot n v e).mem = e.mem := rfl
@[simp] theorem setSlot_ecc : (setSlot n v e).ecc = e.ecc := rfl
@[simp] theorem setSlot_cells : (setSlot n v e).cells = e.cells := rfl
@[simp] theorem setSlot_sched : (setSlot n v e).sched = e.sched := rfl
@[simp] theorem setSlot_health : (setSlot n v e).health = e.health := rfl
@[simp] theorem setSlot_mix : (setSlot n v e).mix = e.mix := rfl
@[simp] theorem setSlot_ports : (setSlot n v e).ports = e.ports := rfl
@[simp] theorem setSlot_net : (setSlot n v e).net = e.net := rfl
@[simp] theorem setSlot_ptp : (setSlot n v e).ptp = e.ptp := rfl
@[simp] theorem setSlot_fab : (setSlot n v e).fab = e.fab := rfl
@[simp] theorem setSlot_pair : (setSlot n v e).pair = e.pair := rfl
@[simp] theorem setSlot_ctl : (setSlot n v e).ctl = e.ctl := rfl
@[simp] theorem setSlot_xmem : (setSlot n v e).xmem = e.xmem := rfl
@[simp] theorem setSlot_host : (setSlot n v e).host = e.host := rfl
@[simp] theorem setSlot_sample : (setSlot n v e).sample = e.sample := rfl
@[simp] theorem setSlot_held : (setSlot n v e).held = e.held := rfl
@[simp] theorem setSlot_free : (setSlot n v e).free = e.free := rfl
@[simp] theorem setSlot_getF (g : Fld) (j : Nat) : getF g j (setSlot n v e) = getF g j e := rfl
end

section
variable (i : Nat) (v : PtpInst) (e : Engine)
@[simp] theorem setInst_regs : (setInst i v e).regs = e.regs := rfl
@[simp] theorem setInst_regsNext : (setInst i v e).regsNext = e.regsNext := rfl
@[simp] theorem setInst_latch : (setInst i v e).latch = e.latch := rfl
@[simp] theorem setInst_mem : (setInst i v e).mem = e.mem := rfl
@[simp] theorem setInst_ecc : (setInst i v e).ecc = e.ecc := rfl
@[simp] theorem setInst_cells : (setInst i v e).cells = e.cells := rfl
@[simp] theorem setInst_sched : (setInst i v e).sched = e.sched := rfl
@[simp] theorem setInst_health : (setInst i v e).health = e.health := rfl
@[simp] theorem setInst_mix : (setInst i v e).mix = e.mix := rfl
@[simp] theorem setInst_ports : (setInst i v e).ports = e.ports := rfl
@[simp] theorem setInst_clk : (setInst i v e).clk = e.clk := rfl
@[simp] theorem setInst_net : (setInst i v e).net = e.net := rfl
@[simp] theorem setInst_fab : (setInst i v e).fab = e.fab := rfl
@[simp] theorem setInst_pair : (setInst i v e).pair = e.pair := rfl
@[simp] theorem setInst_ctl : (setInst i v e).ctl = e.ctl := rfl
@[simp] theorem setInst_xmem : (setInst i v e).xmem = e.xmem := rfl
@[simp] theorem setInst_host : (setInst i v e).host = e.host := rfl
@[simp] theorem setInst_sample : (setInst i v e).sample = e.sample := rfl
@[simp] theorem setInst_held : (setInst i v e).held = e.held := rfl
@[simp] theorem setInst_free : (setInst i v e).free = e.free := rfl
@[simp] theorem setInst_getF (g : Fld) (j : Nat) : getF g j (setInst i v e) = getF g j e := rfl
end

section
variable (s : Nat) (v : Option RxS) (e : Engine)
@[simp] theorem setRx_regs : (setRx s v e).regs = e.regs := rfl
@[simp] theorem setRx_regsNext : (setRx s v e).regsNext = e.regsNext := rfl
@[simp] theorem setRx_latch : (setRx s v e).latch = e.latch := rfl
@[simp] theorem setRx_mem : (setRx s v e).mem = e.mem := rfl
@[simp] theorem setRx_ecc : (setRx s v e).ecc = e.ecc := rfl
@[simp] theorem setRx_cells : (setRx s v e).cells = e.cells := rfl
@[simp] theorem setRx_sched : (setRx s v e).sched = e.sched := rfl
@[simp] theorem setRx_health : (setRx s v e).health = e.health := rfl
@[simp] theorem setRx_mix : (setRx s v e).mix = e.mix := rfl
@[simp] theorem setRx_ports : (setRx s v e).ports = e.ports := rfl
@[simp] theorem setRx_clk : (setRx s v e).clk = e.clk := rfl
@[simp] theorem setRx_ptp : (setRx s v e).ptp = e.ptp := rfl
@[simp] theorem setRx_fab : (setRx s v e).fab = e.fab := rfl
@[simp] theorem setRx_pair : (setRx s v e).pair = e.pair := rfl
@[simp] theorem setRx_ctl : (setRx s v e).ctl = e.ctl := rfl
@[simp] theorem setRx_xmem : (setRx s v e).xmem = e.xmem := rfl
@[simp] theorem setRx_host : (setRx s v e).host = e.host := rfl
@[simp] theorem setRx_sample : (setRx s v e).sample = e.sample := rfl
@[simp] theorem setRx_held : (setRx s v e).held = e.held := rfl
@[simp] theorem setRx_free : (setRx s v e).free = e.free := rfl
@[simp] theorem setRx_getF (g : Fld) (j : Nat) : getF g j (setRx s v e) = getF g j e := rfl
end

section
variable (s : Nat) (v : Option TxS) (e : Engine)
@[simp] theorem setTx_regs : (setTx s v e).regs = e.regs := rfl
@[simp] theorem setTx_regsNext : (setTx s v e).regsNext = e.regsNext := rfl
@[simp] theorem setTx_latch : (setTx s v e).latch = e.latch := rfl
@[simp] theorem setTx_mem : (setTx s v e).mem = e.mem := rfl
@[simp] theorem setTx_ecc : (setTx s v e).ecc = e.ecc := rfl
@[simp] theorem setTx_cells : (setTx s v e).cells = e.cells := rfl
@[simp] theorem setTx_sched : (setTx s v e).sched = e.sched := rfl
@[simp] theorem setTx_health : (setTx s v e).health = e.health := rfl
@[simp] theorem setTx_mix : (setTx s v e).mix = e.mix := rfl
@[simp] theorem setTx_ports : (setTx s v e).ports = e.ports := rfl
@[simp] theorem setTx_clk : (setTx s v e).clk = e.clk := rfl
@[simp] theorem setTx_ptp : (setTx s v e).ptp = e.ptp := rfl
@[simp] theorem setTx_fab : (setTx s v e).fab = e.fab := rfl
@[simp] theorem setTx_pair : (setTx s v e).pair = e.pair := rfl
@[simp] theorem setTx_ctl : (setTx s v e).ctl = e.ctl := rfl
@[simp] theorem setTx_xmem : (setTx s v e).xmem = e.xmem := rfl
@[simp] theorem setTx_host : (setTx s v e).host = e.host := rfl
@[simp] theorem setTx_sample : (setTx s v e).sample = e.sample := rfl
@[simp] theorem setTx_held : (setTx s v e).held = e.held := rfl
@[simp] theorem setTx_free : (setTx s v e).free = e.free := rfl
@[simp] theorem setTx_getF (g : Fld) (j : Nat) : getF g j (setTx s v e) = getF g j e := rfl
end

section
variable (t : Nat) (p : Option TxPath) (e : Engine)
@[simp] theorem setPath_regs : (setPath t p e).regs = e.regs := rfl
@[simp] theorem setPath_regsNext : (setPath t p e).regsNext = e.regsNext := rfl
@[simp] theorem setPath_latch : (setPath t p e).latch = e.latch := rfl
@[simp] theorem setPath_mem : (setPath t p e).mem = e.mem := rfl
@[simp] theorem setPath_ecc : (setPath t p e).ecc = e.ecc := rfl
@[simp] theorem setPath_cells : (setPath t p e).cells = e.cells := rfl
@[simp] theorem setPath_sched : (setPath t p e).sched = e.sched := rfl
@[simp] theorem setPath_health : (setPath t p e).health = e.health := rfl
@[simp] theorem setPath_mix : (setPath t p e).mix = e.mix := rfl
@[simp] theorem setPath_ports : (setPath t p e).ports = e.ports := rfl
@[simp] theorem setPath_clk : (setPath t p e).clk = e.clk := rfl
@[simp] theorem setPath_net : (setPath t p e).net = e.net := rfl
@[simp] theorem setPath_ptp : (setPath t p e).ptp = e.ptp := rfl
@[simp] theorem setPath_pair : (setPath t p e).pair = e.pair := rfl
@[simp] theorem setPath_ctl : (setPath t p e).ctl = e.ctl := rfl
@[simp] theorem setPath_xmem : (setPath t p e).xmem = e.xmem := rfl
@[simp] theorem setPath_host : (setPath t p e).host = e.host := rfl
@[simp] theorem setPath_sample : (setPath t p e).sample = e.sample := rfl
@[simp] theorem setPath_held : (setPath t p e).held = e.held := rfl
@[simp] theorem setPath_free : (setPath t p e).free = e.free := rfl
@[simp] theorem setPath_getF (g : Fld) (j : Nat) : getF g j (setPath t p e) = getF g j e := rfl
end

section
variable (m : PairSt → PairSt) (e : Engine)
@[simp] theorem setPair_regs : (setPair m e).regs = e.regs := rfl
@[simp] theorem setPair_regsNext : (setPair m e).regsNext = e.regsNext := rfl
@[simp] theorem setPair_latch : (setPair m e).latch = e.latch := rfl
@[simp] theorem setPair_mem : (setPair m e).mem = e.mem := rfl
@[simp] theorem setPair_ecc : (setPair m e).ecc = e.ecc := rfl
@[simp] theorem setPair_cells : (setPair m e).cells = e.cells := rfl
@[simp] theorem setPair_sched : (setPair m e).sched = e.sched := rfl
@[simp] theorem setPair_health : (setPair m e).health = e.health := rfl
@[simp] theorem setPair_mix : (setPair m e).mix = e.mix := rfl
@[simp] theorem setPair_ports : (setPair m e).ports = e.ports := rfl
@[simp] theorem setPair_clk : (setPair m e).clk = e.clk := rfl
@[simp] theorem setPair_net : (setPair m e).net = e.net := rfl
@[simp] theorem setPair_ptp : (setPair m e).ptp = e.ptp := rfl
@[simp] theorem setPair_fab : (setPair m e).fab = e.fab := rfl
@[simp] theorem setPair_ctl : (setPair m e).ctl = e.ctl := rfl
@[simp] theorem setPair_xmem : (setPair m e).xmem = e.xmem := rfl
@[simp] theorem setPair_host : (setPair m e).host = e.host := rfl
@[simp] theorem setPair_sample : (setPair m e).sample = e.sample := rfl
@[simp] theorem setPair_held : (setPair m e).held = e.held := rfl
@[simp] theorem setPair_free : (setPair m e).free = e.free := rfl
@[simp] theorem setPair_getF (g : Fld) (j : Nat) : getF g j (setPair m e) = getF g j e := rfl
end

section
variable (t : Nat) (l : List XReq) (e : Engine)
@[simp] theorem setOpen_regs : (setOpen t l e).regs = e.regs := rfl
@[simp] theorem setOpen_regsNext : (setOpen t l e).regsNext = e.regsNext := rfl
@[simp] theorem setOpen_latch : (setOpen t l e).latch = e.latch := rfl
@[simp] theorem setOpen_mem : (setOpen t l e).mem = e.mem := rfl
@[simp] theorem setOpen_ecc : (setOpen t l e).ecc = e.ecc := rfl
@[simp] theorem setOpen_cells : (setOpen t l e).cells = e.cells := rfl
@[simp] theorem setOpen_sched : (setOpen t l e).sched = e.sched := rfl
@[simp] theorem setOpen_health : (setOpen t l e).health = e.health := rfl
@[simp] theorem setOpen_mix : (setOpen t l e).mix = e.mix := rfl
@[simp] theorem setOpen_ports : (setOpen t l e).ports = e.ports := rfl
@[simp] theorem setOpen_clk : (setOpen t l e).clk = e.clk := rfl
@[simp] theorem setOpen_net : (setOpen t l e).net = e.net := rfl
@[simp] theorem setOpen_ptp : (setOpen t l e).ptp = e.ptp := rfl
@[simp] theorem setOpen_fab : (setOpen t l e).fab = e.fab := rfl
@[simp] theorem setOpen_pair : (setOpen t l e).pair = e.pair := rfl
@[simp] theorem setOpen_ctl : (setOpen t l e).ctl = e.ctl := rfl
@[simp] theorem setOpen_host : (setOpen t l e).host = e.host := rfl
@[simp] theorem setOpen_sample : (setOpen t l e).sample = e.sample := rfl
@[simp] theorem setOpen_held : (setOpen t l e).held = e.held := rfl
@[simp] theorem setOpen_free : (setOpen t l e).free = e.free := rfl
@[simp] theorem setOpen_getF (g : Fld) (j : Nat) : getF g j (setOpen t l e) = getF g j e := rfl
end

section
variable  (e : Engine)
@[simp] theorem needReadmit_regs : (needReadmit e).regs = e.regs := rfl
@[simp] theorem needReadmit_regsNext : (needReadmit e).regsNext = e.regsNext := rfl
@[simp] theorem needReadmit_latch : (needReadmit e).latch = e.latch := rfl
@[simp] theorem needReadmit_mem : (needReadmit e).mem = e.mem := rfl
@[simp] theorem needReadmit_ecc : (needReadmit e).ecc = e.ecc := rfl
@[simp] theorem needReadmit_cells : (needReadmit e).cells = e.cells := rfl
@[simp] theorem needReadmit_sched : (needReadmit e).sched = e.sched := rfl
@[simp] theorem needReadmit_mix : (needReadmit e).mix = e.mix := rfl
@[simp] theorem needReadmit_ports : (needReadmit e).ports = e.ports := rfl
@[simp] theorem needReadmit_clk : (needReadmit e).clk = e.clk := rfl
@[simp] theorem needReadmit_net : (needReadmit e).net = e.net := rfl
@[simp] theorem needReadmit_ptp : (needReadmit e).ptp = e.ptp := rfl
@[simp] theorem needReadmit_fab : (needReadmit e).fab = e.fab := rfl
@[simp] theorem needReadmit_pair : (needReadmit e).pair = e.pair := rfl
@[simp] theorem needReadmit_ctl : (needReadmit e).ctl = e.ctl := rfl
@[simp] theorem needReadmit_xmem : (needReadmit e).xmem = e.xmem := rfl
@[simp] theorem needReadmit_host : (needReadmit e).host = e.host := rfl
@[simp] theorem needReadmit_sample : (needReadmit e).sample = e.sample := rfl
@[simp] theorem needReadmit_held : (needReadmit e).held = e.held := rfl
@[simp] theorem needReadmit_free : (needReadmit e).free = e.free := rfl
@[simp] theorem needReadmit_getF (g : Fld) (j : Nat) : getF g j (needReadmit e) = getF g j e := rfl
end

/-! ### Entries that an update writes, and those that it leaves -/

@[simp] theorem getCell_setCell_self (i : Nat) (v : Cell) (e : Engine) : getCell (setCell i v e) i = v := tget_tput_self ..
theorem getCell_setCell_ne {i j : Nat} (v : Cell) (e : Engine) (h : i ≠ j) : getCell (setCell i v e) j = getCell e j := tget_tput_ne _ _ _ h

@[simp] theorem getCell_setRun (i j : Nat) (v : ItemRun) (e : Engine) : getCell (setRun i v e) j = getCell e j := rfl
@[simp] theorem getCell_setConc (i j : Nat) (v : Conceal) (e : Engine) : getCell (setConc i v e) j = getCell e j := rfl
@[simp] theorem getCell_setSig (i j : Nat) (v : List Int) (e : Engine) : getCell (setSig i v e) j = getCell e j := rfl
@[simp] theorem getCell_setSink (i j : Nat) (v : Sink) (e : Engine) : getCell (setSink i v e) j = getCell e j := rfl
@[simp] theorem getCell_setGp (i j : Nat) (v : Gp) (e : Engine) : getCell (setGp i v e) j = getCell e j := rfl
@[simp] theorem getCell_setRing (i j : Nat) (v : Ring) (e : Engine) : getCell (setRing i v e) j = getCell e j := rfl
@[simp] theorem getCell_setPort (i j : Nat) (v : Port) (e : Engine) : getCell (setPort i v e) j = getCell e j := rfl
@[simp] theorem getCell_setGroup (i j : Nat) (v : Group) (e : Engine) : getCell (setGroup i v e) j = getCell e j := rfl
@[simp] theorem getCell_setSlot (i j : Nat) (v : RefSlot) (e : Engine) : getCell (setSlot i v e) j = getCell e j := rfl
@[simp] theorem getCell_setInst (i j : Nat) (v : PtpInst) (e : Engine) : getCell (setInst i v e) j = getCell e j := rfl
@[simp] theorem getCell_setRx (i j : Nat) (v : Option RxS) (e : Engine) : getCell (setRx i v e) j = getCell e j := rfl
@[simp] theorem getCell_setTx (i j : Nat) (v : Option TxS) (e : Engine) : getCell (setTx i v e) j = getCell e j := rfl
@[simp] theorem getCell_setPath (i j : Nat) (v : Option TxPath) (e : Engine) : getCell (setPath i v e) j = getCell e j := rfl
@[simp] theorem getCell_setF (f : Fld) (i v j : Nat) (e : Engine) : getCell (setF f i v e) j = getCell e j := rfl

@[simp] theorem getRun_setRun_self (i : Nat) (v : ItemRun) (e : Engine) : getRun (setRun i v e) i = v := tget_tput_self ..
theorem getRun_setRun_ne {i j : Nat} (v : ItemRun) (e : Engine) (h : i ≠ j) : getRun (setRun i v e) j = getRun e j := tget_tput_ne _ _ _ h

@[simp] theorem getRun_setCell (i j : Nat) (v : Cell) (e : Engine) : getRun (setCell i v e) j = getRun e j := rfl
@[simp] theorem getRun_setConc (i j : Nat) (v : Conceal) (e : Engine) : getRun (setConc i v e) j = getRun e j := rfl
@[simp] theorem getRun_setSig (i j : Nat) (v : List Int) (e : Engine) : getRun (setSig i v e) j = getRun e j := rfl
@[simp] theorem getRun_setSink (i j : Nat) (v : Sink) (e : Engine) : getRun (setSink i v e) j = getRun e j := rfl
@[simp] theorem getRun_setGp (i j : Nat) (v : Gp) (e : Engine) : getRun (setGp i v e) j = getRun e j := rfl
@[simp] theorem getRun_setRing (i j : Nat) (v : Ring) (e : Engine) : getRun (setRing i v e) j = getRun e j := rfl
@[simp] theorem getRun_setPort (i j : Nat) (v : Port) (e : Engine) : getRun (setPort i v e) j = getRun e j := rfl
@[simp] theorem getRun_setGroup (i j : Nat) (v : Group) (e : Engine) : getRun (setGroup i v e) j = getRun e j := rfl
@[simp] theorem getRun_setSlot (i j : Nat) (v : RefSlot) (e : Engine) : getRun (setSlot i v e) j = getRun e j := rfl
@[simp] theorem getRun_setInst (i j : Nat) (v : PtpInst) (e : Engine) : getRun (setInst i v e) j = getRun e j := rfl
@[simp] theorem getRun_setRx (i j : Nat) (v : Option RxS) (e : Engine) : getRun (setRx i v e) j = getRun e j := rfl
@[simp] theorem getRun_setTx (i j : Nat) (v : Option TxS) (e : Engine) : getRun (setTx i v e) j = getRun e j := rfl
@[simp] theorem getRun_setPath (i j : Nat) (v : Option TxPath) (e : Engine) : getRun (setPath i v e) j = getRun e j := rfl
@[simp] theorem getRun_setF (f : Fld) (i v j : Nat) (e : Engine) : getRun (setF f i v e) j = getRun e j := rfl

@[simp] theorem getConc_setConc_self (i : Nat) (v : Conceal) (e : Engine) : getConc (setConc i v e) i = v := tget_tput_self ..
theorem getConc_setConc_ne {i j : Nat} (v : Conceal) (e : Engine) (h : i ≠ j) : getConc (setConc i v e) j = getConc e j := tget_tput_ne _ _ _ h

@[simp] theorem getConc_setCell (i j : Nat) (v : Cell) (e : Engine) : getConc (setCell i v e) j = getConc e j := rfl
@[simp] theorem getConc_setRun (i j : Nat) (v : ItemRun) (e : Engine) : getConc (setRun i v e) j = getConc e j := rfl
@[simp] theorem getConc_setSig (i j : Nat) (v : List Int) (e : Engine) : getConc (setSig i v e) j = getConc e j := rfl
@[simp] theorem getConc_setSink (i j : Nat) (v : Sink) (e : Engine) : getConc (setSink i v e) j = getConc e j := rfl
@[simp] theorem getConc_setGp (i j : Nat) (v : Gp) (e : Engine) : getConc (setGp i v e) j = getConc e j := rfl
@[simp] theorem getConc_setRing (i j : Nat) (v : Ring) (e : Engine) : getConc (setRing i v e) j = getConc e j := rfl
@[simp] theorem getConc_setPort (i j : Nat) (v : Port) (e : Engine) : getConc (setPort i v e) j = getConc e j := rfl
@[simp] theorem getConc_setGroup (i j : Nat) (v : Group) (e : Engine) : getConc (setGroup i v e) j = getConc e j := rfl
@[simp] theorem getConc_setSlot (i j : Nat) (v : RefSlot) (e : Engine) : getConc (setSlot i v e) j = getConc e j := rfl
@[simp] theorem getConc_setInst (i j : Nat) (v : PtpInst) (e : Engine) : getConc (setInst i v e) j = getConc e j := rfl
@[simp] theorem getConc_setRx (i j : Nat) (v : Option RxS) (e : Engine) : getConc (setRx i v e) j = getConc e j := rfl
@[simp] theorem getConc_setTx (i j : Nat) (v : Option TxS) (e : Engine) : getConc (setTx i v e) j = getConc e j := rfl
@[simp] theorem getConc_setPath (i j : Nat) (v : Option TxPath) (e : Engine) : getConc (setPath i v e) j = getConc e j := rfl
@[simp] theorem getConc_setF (f : Fld) (i v j : Nat) (e : Engine) : getConc (setF f i v e) j = getConc e j := rfl

@[simp] theorem getSig_setSig_self (i : Nat) (v : List Int) (e : Engine) : getSig (setSig i v e) i = v := tget_tput_self ..
theorem getSig_setSig_ne {i j : Nat} (v : List Int) (e : Engine) (h : i ≠ j) : getSig (setSig i v e) j = getSig e j := tget_tput_ne _ _ _ h

@[simp] theorem getSig_setCell (i j : Nat) (v : Cell) (e : Engine) : getSig (setCell i v e) j = getSig e j := rfl
@[simp] theorem getSig_setRun (i j : Nat) (v : ItemRun) (e : Engine) : getSig (setRun i v e) j = getSig e j := rfl
@[simp] theorem getSig_setConc (i j : Nat) (v : Conceal) (e : Engine) : getSig (setConc i v e) j = getSig e j := rfl
@[simp] theorem getSig_setSink (i j : Nat) (v : Sink) (e : Engine) : getSig (setSink i v e) j = getSig e j := rfl
@[simp] theorem getSig_setGp (i j : Nat) (v : Gp) (e : Engine) : getSig (setGp i v e) j = getSig e j := rfl
@[simp] theorem getSig_setRing (i j : Nat) (v : Ring) (e : Engine) : getSig (setRing i v e) j = getSig e j := rfl
@[simp] theorem getSig_setPort (i j : Nat) (v : Port) (e : Engine) : getSig (setPort i v e) j = getSig e j := rfl
@[simp] theorem getSig_setGroup (i j : Nat) (v : Group) (e : Engine) : getSig (setGroup i v e) j = getSig e j := rfl
@[simp] theorem getSig_setSlot (i j : Nat) (v : RefSlot) (e : Engine) : getSig (setSlot i v e) j = getSig e j := rfl
@[simp] theorem getSig_setInst (i j : Nat) (v : PtpInst) (e : Engine) : getSig (setInst i v e) j = getSig e j := rfl
@[simp] theorem getSig_setRx (i j : Nat) (v : Option RxS) (e : Engine) : getSig (setRx i v e) j = getSig e j := rfl
@[simp] theorem getSig_setTx (i j : Nat) (v : Option TxS) (e : Engine) : getSig (setTx i v e) j = getSig e j := rfl
@[simp] theorem getSig_setPath (i j : Nat) (v : Option TxPath) (e : Engine) : getSig (setPath i v e) j = getSig e j := rfl
@[simp] theorem getSig_setF (f : Fld) (i v j : Nat) (e : Engine) : getSig (setF f i v e) j = getSig e j := rfl

@[simp] theorem getSink_setSink_self (i : Nat) (v : Sink) (e : Engine) : getSink (setSink i v e) i = v := tget_tput_self ..
theorem getSink_setSink_ne {i j : Nat} (v : Sink) (e : Engine) (h : i ≠ j) : getSink (setSink i v e) j = getSink e j := tget_tput_ne _ _ _ h

@[simp] theorem getSink_setCell (i j : Nat) (v : Cell) (e : Engine) : getSink (setCell i v e) j = getSink e j := rfl
@[simp] theorem getSink_setRun (i j : Nat) (v : ItemRun) (e : Engine) : getSink (setRun i v e) j = getSink e j := rfl
@[simp] theorem getSink_setConc (i j : Nat) (v : Conceal) (e : Engine) : getSink (setConc i v e) j = getSink e j := rfl
@[simp] theorem getSink_setSig (i j : Nat) (v : List Int) (e : Engine) : getSink (setSig i v e) j = getSink e j := rfl
@[simp] theorem getSink_setGp (i j : Nat) (v : Gp) (e : Engine) : getSink (setGp i v e) j = getSink e j := rfl
@[simp] theorem getSink_setRing (i j : Nat) (v : Ring) (e : Engine) : getSink (setRing i v e) j = getSink e j := rfl
@[simp] theorem getSink_setPort (i j : Nat) (v : Port) (e : Engine) : getSink (setPort i v e) j = getSink e j := rfl
@[simp] theorem getSink_setGroup (i j : Nat) (v : Group) (e : Engine) : getSink (setGroup i v e) j = getSink e j := rfl
@[simp] theorem getSink_setSlot (i j : Nat) (v : RefSlot) (e : Engine) : getSink (setSlot i v e) j = getSink e j := rfl
@[simp] theorem getSink_setInst (i j : Nat) (v : PtpInst) (e : Engine) : getSink (setInst i v e) j = getSink e j := rfl
@[simp] theorem getSink_setRx (i j : Nat) (v : Option RxS) (e : Engine) : getSink (setRx i v e) j = getSink e j := rfl
@[simp] theorem getSink_setTx (i j : Nat) (v : Option TxS) (e : Engine) : getSink (setTx i v e) j = getSink e j := rfl
@[simp] theorem getSink_setPath (i j : Nat) (v : Option TxPath) (e : Engine) : getSink (setPath i v e) j = getSink e j := rfl
@[simp] theorem getSink_setF (f : Fld) (i v j : Nat) (e : Engine) : getSink (setF f i v e) j = getSink e j := rfl

@[simp] theorem getGp_setGp_self (i : Nat) (v : Gp) (e : Engine) : getGp (setGp i v e) i = v := tget_tput_self ..
theorem getGp_setGp_ne {i j : Nat} (v : Gp) (e : Engine) (h : i ≠ j) : getGp (setGp i v e) j = getGp e j := tget_tput_ne _ _ _ h

@[simp] theorem getGp_setCell (i j : Nat) (v : Cell) (e : Engine) : getGp (setCell i v e) j = getGp e j := rfl
@[simp] theorem getGp_setRun (i j : Nat) (v : ItemRun) (e : Engine) : getGp (setRun i v e) j = getGp e j := rfl
@[simp] theorem getGp_setConc (i j : Nat) (v : Conceal) (e : Engine) : getGp (setConc i v e) j = getGp e j := rfl
@[simp] theorem getGp_setSig (i j : Nat) (v : List Int) (e : Engine) : getGp (setSig i v e) j = getGp e j := rfl
@[simp] theorem getGp_setSink (i j : Nat) (v : Sink) (e : Engine) : getGp (setSink i v e) j = getGp e j := rfl
@[simp] theorem getGp_setRing (i j : Nat) (v : Ring) (e : Engine) : getGp (setRing i v e) j = getGp e j := rfl
@[simp] theorem getGp_setPort (i j : Nat) (v : Port) (e : Engine) : getGp (setPort i v e) j = getGp e j := rfl
@[simp] theorem getGp_setGroup (i j : Nat) (v : Group) (e : Engine) : getGp (setGroup i v e) j = getGp e j := rfl
@[simp] theorem getGp_setSlot (i j : Nat) (v : RefSlot) (e : Engine) : getGp (setSlot i v e) j = getGp e j := rfl
@[simp] theorem getGp_setInst (i j : Nat) (v : PtpInst) (e : Engine) : getGp (setInst i v e) j = getGp e j := rfl
@[simp] theorem getGp_setRx (i j : Nat) (v : Option RxS) (e : Engine) : getGp (setRx i v e) j = getGp e j := rfl
@[simp] theorem getGp_setTx (i j : Nat) (v : Option TxS) (e : Engine) : getGp (setTx i v e) j = getGp e j := rfl
@[simp] theorem getGp_setPath (i j : Nat) (v : Option TxPath) (e : Engine) : getGp (setPath i v e) j = getGp e j := rfl
@[simp] theorem getGp_setF (f : Fld) (i v j : Nat) (e : Engine) : getGp (setF f i v e) j = getGp e j := rfl

@[simp] theorem getRing_setRing_self (i : Nat) (v : Ring) (e : Engine) : getRing (setRing i v e) i = v := tget_tput_self ..
theorem getRing_setRing_ne {i j : Nat} (v : Ring) (e : Engine) (h : i ≠ j) : getRing (setRing i v e) j = getRing e j := tget_tput_ne _ _ _ h

@[simp] theorem getRing_setCell (i j : Nat) (v : Cell) (e : Engine) : getRing (setCell i v e) j = getRing e j := rfl
@[simp] theorem getRing_setRun (i j : Nat) (v : ItemRun) (e : Engine) : getRing (setRun i v e) j = getRing e j := rfl
@[simp] theorem getRing_setConc (i j : Nat) (v : Conceal) (e : Engine) : getRing (setConc i v e) j = getRing e j := rfl
@[simp] theorem getRing_setSig (i j : Nat) (v : List Int) (e : Engine) : getRing (setSig i v e) j = getRing e j := rfl
@[simp] theorem getRing_setSink (i j : Nat) (v : Sink) (e : Engine) : getRing (setSink i v e) j = getRing e j := rfl
@[simp] theorem getRing_setGp (i j : Nat) (v : Gp) (e : Engine) : getRing (setGp i v e) j = getRing e j := rfl
@[simp] theorem getRing_setPort (i j : Nat) (v : Port) (e : Engine) : getRing (setPort i v e) j = getRing e j := rfl
@[simp] theorem getRing_setGroup (i j : Nat) (v : Group) (e : Engine) : getRing (setGroup i v e) j = getRing e j := rfl
@[simp] theorem getRing_setSlot (i j : Nat) (v : RefSlot) (e : Engine) : getRing (setSlot i v e) j = getRing e j := rfl
@[simp] theorem getRing_setInst (i j : Nat) (v : PtpInst) (e : Engine) : getRing (setInst i v e) j = getRing e j := rfl
@[simp] theorem getRing_setRx (i j : Nat) (v : Option RxS) (e : Engine) : getRing (setRx i v e) j = getRing e j := rfl
@[simp] theorem getRing_setTx (i j : Nat) (v : Option TxS) (e : Engine) : getRing (setTx i v e) j = getRing e j := rfl
@[simp] theorem getRing_setPath (i j : Nat) (v : Option TxPath) (e : Engine) : getRing (setPath i v e) j = getRing e j := rfl
@[simp] theorem getRing_setF (f : Fld) (i v j : Nat) (e : Engine) : getRing (setF f i v e) j = getRing e j := rfl

@[simp] theorem getPort_setPort_self (i : Nat) (v : Port) (e : Engine) : getPort (setPort i v e) i = v := tget_tput_self ..
theorem getPort_setPort_ne {i j : Nat} (v : Port) (e : Engine) (h : i ≠ j) : getPort (setPort i v e) j = getPort e j := tget_tput_ne _ _ _ h

@[simp] theorem getPort_setCell (i j : Nat) (v : Cell) (e : Engine) : getPort (setCell i v e) j = getPort e j := rfl
@[simp] theorem getPort_setRun (i j : Nat) (v : ItemRun) (e : Engine) : getPort (setRun i v e) j = getPort e j := rfl
@[simp] theorem getPort_setConc (i j : Nat) (v : Conceal) (e : Engine) : getPort (setConc i v e) j = getPort e j := rfl
@[simp] theorem getPort_setSig (i j : Nat) (v : List Int) (e : Engine) : getPort (setSig i v e) j = getPort e j := rfl
@[simp] theorem getPort_setSink (i j : Nat) (v : Sink) (e : Engine) : getPort (setSink i v e) j = getPort e j := rfl
@[simp] theorem getPort_setGp (i j : Nat) (v : Gp) (e : Engine) : getPort (setGp i v e) j = getPort e j := rfl
@[simp] theorem getPort_setRing (i j : Nat) (v : Ring) (e : Engine) : getPort (setRing i v e) j = getPort e j := rfl
@[simp] theorem getPort_setGroup (i j : Nat) (v : Group) (e : Engine) : getPort (setGroup i v e) j = getPort e j := rfl
@[simp] theorem getPort_setSlot (i j : Nat) (v : RefSlot) (e : Engine) : getPort (setSlot i v e) j = getPort e j := rfl
@[simp] theorem getPort_setInst (i j : Nat) (v : PtpInst) (e : Engine) : getPort (setInst i v e) j = getPort e j := rfl
@[simp] theorem getPort_setRx (i j : Nat) (v : Option RxS) (e : Engine) : getPort (setRx i v e) j = getPort e j := rfl
@[simp] theorem getPort_setTx (i j : Nat) (v : Option TxS) (e : Engine) : getPort (setTx i v e) j = getPort e j := rfl
@[simp] theorem getPort_setPath (i j : Nat) (v : Option TxPath) (e : Engine) : getPort (setPath i v e) j = getPort e j := rfl
@[simp] theorem getPort_setF (f : Fld) (i v j : Nat) (e : Engine) : getPort (setF f i v e) j = getPort e j := rfl

@[simp] theorem getGroup_setGroup_self (i : Nat) (v : Group) (e : Engine) : getGroup (setGroup i v e) i = v := tget_tput_self ..
theorem getGroup_setGroup_ne {i j : Nat} (v : Group) (e : Engine) (h : i ≠ j) : getGroup (setGroup i v e) j = getGroup e j := tget_tput_ne _ _ _ h

@[simp] theorem getGroup_setCell (i j : Nat) (v : Cell) (e : Engine) : getGroup (setCell i v e) j = getGroup e j := rfl
@[simp] theorem getGroup_setRun (i j : Nat) (v : ItemRun) (e : Engine) : getGroup (setRun i v e) j = getGroup e j := rfl
@[simp] theorem getGroup_setConc (i j : Nat) (v : Conceal) (e : Engine) : getGroup (setConc i v e) j = getGroup e j := rfl
@[simp] theorem getGroup_setSig (i j : Nat) (v : List Int) (e : Engine) : getGroup (setSig i v e) j = getGroup e j := rfl
@[simp] theorem getGroup_setSink (i j : Nat) (v : Sink) (e : Engine) : getGroup (setSink i v e) j = getGroup e j := rfl
@[simp] theorem getGroup_setGp (i j : Nat) (v : Gp) (e : Engine) : getGroup (setGp i v e) j = getGroup e j := rfl
@[simp] theorem getGroup_setRing (i j : Nat) (v : Ring) (e : Engine) : getGroup (setRing i v e) j = getGroup e j := rfl
@[simp] theorem getGroup_setPort (i j : Nat) (v : Port) (e : Engine) : getGroup (setPort i v e) j = getGroup e j := rfl
@[simp] theorem getGroup_setSlot (i j : Nat) (v : RefSlot) (e : Engine) : getGroup (setSlot i v e) j = getGroup e j := rfl
@[simp] theorem getGroup_setInst (i j : Nat) (v : PtpInst) (e : Engine) : getGroup (setInst i v e) j = getGroup e j := rfl
@[simp] theorem getGroup_setRx (i j : Nat) (v : Option RxS) (e : Engine) : getGroup (setRx i v e) j = getGroup e j := rfl
@[simp] theorem getGroup_setTx (i j : Nat) (v : Option TxS) (e : Engine) : getGroup (setTx i v e) j = getGroup e j := rfl
@[simp] theorem getGroup_setPath (i j : Nat) (v : Option TxPath) (e : Engine) : getGroup (setPath i v e) j = getGroup e j := rfl
@[simp] theorem getGroup_setF (f : Fld) (i v j : Nat) (e : Engine) : getGroup (setF f i v e) j = getGroup e j := rfl

@[simp] theorem getSlot_setSlot_self (i : Nat) (v : RefSlot) (e : Engine) : getSlot (setSlot i v e) i = v := tget_tput_self ..
theorem getSlot_setSlot_ne {i j : Nat} (v : RefSlot) (e : Engine) (h : i ≠ j) : getSlot (setSlot i v e) j = getSlot e j := tget_tput_ne _ _ _ h

@[simp] theorem getSlot_setCell (i j : Nat) (v : Cell) (e : Engine) : getSlot (setCell i v e) j = getSlot e j := rfl
@[simp] theorem getSlot_setRun (i j : Nat) (v : ItemRun) (e : Engine) : getSlot (setRun i v e) j = getSlot e j := rfl
@[simp] theorem getSlot_setConc (i j : Nat) (v : Conceal) (e : Engine) : getSlot (setConc i v e) j = getSlot e j := rfl
@[simp] theorem getSlot_setSig (i j : Nat) (v : List Int) (e : Engine) : getSlot (setSig i v e) j = getSlot e j := rfl
@[simp] theorem getSlot_setSink (i j : Nat) (v : Sink) (e : Engine) : getSlot (setSink i v e) j = getSlot e j := rfl
@[simp] theorem getSlot_setGp (i j : Nat) (v : Gp) (e : Engine) : getSlot (setGp i v e) j = getSlot e j := rfl
@[simp] theorem getSlot_setRing (i j : Nat) (v : Ring) (e : Engine) : getSlot (setRing i v e) j = getSlot e j := rfl
@[simp] theorem getSlot_setPort (i j : Nat) (v : Port) (e : Engine) : getSlot (setPort i v e) j = getSlot e j := rfl
@[simp] theorem getSlot_setGroup (i j : Nat) (v : Group) (e : Engine) : getSlot (setGroup i v e) j = getSlot e j := rfl
@[simp] theorem getSlot_setInst (i j : Nat) (v : PtpInst) (e : Engine) : getSlot (setInst i v e) j = getSlot e j := rfl
@[simp] theorem getSlot_setRx (i j : Nat) (v : Option RxS) (e : Engine) : getSlot (setRx i v e) j = getSlot e j := rfl
@[simp] theorem getSlot_setTx (i j : Nat) (v : Option TxS) (e : Engine) : getSlot (setTx i v e) j = getSlot e j := rfl
@[simp] theorem getSlot_setPath (i j : Nat) (v : Option TxPath) (e : Engine) : getSlot (setPath i v e) j = getSlot e j := rfl
@[simp] theorem getSlot_setF (f : Fld) (i v j : Nat) (e : Engine) : getSlot (setF f i v e) j = getSlot e j := rfl

@[simp] theorem getInst_setInst_self (i : Nat) (v : PtpInst) (e : Engine) : getInst (setInst i v e) i = v := tget_tput_self ..
theorem getInst_setInst_ne {i j : Nat} (v : PtpInst) (e : Engine) (h : i ≠ j) : getInst (setInst i v e) j = getInst e j := tget_tput_ne _ _ _ h

@[simp] theorem getInst_setCell (i j : Nat) (v : Cell) (e : Engine) : getInst (setCell i v e) j = getInst e j := rfl
@[simp] theorem getInst_setRun (i j : Nat) (v : ItemRun) (e : Engine) : getInst (setRun i v e) j = getInst e j := rfl
@[simp] theorem getInst_setConc (i j : Nat) (v : Conceal) (e : Engine) : getInst (setConc i v e) j = getInst e j := rfl
@[simp] theorem getInst_setSig (i j : Nat) (v : List Int) (e : Engine) : getInst (setSig i v e) j = getInst e j := rfl
@[simp] theorem getInst_setSink (i j : Nat) (v : Sink) (e : Engine) : getInst (setSink i v e) j = getInst e j := rfl
@[simp] theorem getInst_setGp (i j : Nat) (v : Gp) (e : Engine) : getInst (setGp i v e) j = getInst e j := rfl
@[simp] theorem getInst_setRing (i j : Nat) (v : Ring) (e : Engine) : getInst (setRing i v e) j = getInst e j := rfl
@[simp] theorem getInst_setPort (i j : Nat) (v : Port) (e : Engine) : getInst (setPort i v e) j = getInst e j := rfl
@[simp] theorem getInst_setGroup (i j : Nat) (v : Group) (e : Engine) : getInst (setGroup i v e) j = getInst e j := rfl
@[simp] theorem getInst_setSlot (i j : Nat) (v : RefSlot) (e : Engine) : getInst (setSlot i v e) j = getInst e j := rfl
@[simp] theorem getInst_setRx (i j : Nat) (v : Option RxS) (e : Engine) : getInst (setRx i v e) j = getInst e j := rfl
@[simp] theorem getInst_setTx (i j : Nat) (v : Option TxS) (e : Engine) : getInst (setTx i v e) j = getInst e j := rfl
@[simp] theorem getInst_setPath (i j : Nat) (v : Option TxPath) (e : Engine) : getInst (setPath i v e) j = getInst e j := rfl
@[simp] theorem getInst_setF (f : Fld) (i v j : Nat) (e : Engine) : getInst (setF f i v e) j = getInst e j := rfl

@[simp] theorem getRx_setRx_self (i : Nat) (v : Option RxS) (e : Engine) : getRx (setRx i v e) i = v := tget_tput_self ..
theorem getRx_setRx_ne {i j : Nat} (v : Option RxS) (e : Engine) (h : i ≠ j) : getRx (setRx i v e) j = getRx e j := tget_tput_ne _ _ _ h

@[simp] theorem getRx_setCell (i j : Nat) (v : Cell) (e : Engine) : getRx (setCell i v e) j = getRx e j := rfl
@[simp] theorem getRx_setRun (i j : Nat) (v : ItemRun) (e : Engine) : getRx (setRun i v e) j = getRx e j := rfl
@[simp] theorem getRx_setConc (i j : Nat) (v : Conceal) (e : Engine) : getRx (setConc i v e) j = getRx e j := rfl
@[simp] theorem getRx_setSig (i j : Nat) (v : List Int) (e : Engine) : getRx (setSig i v e) j = getRx e j := rfl
@[simp] theorem getRx_setSink (i j : Nat) (v : Sink) (e : Engine) : getRx (setSink i v e) j = getRx e j := rfl
@[simp] theorem getRx_setGp (i j : Nat) (v : Gp) (e : Engine) : getRx (setGp i v e) j = getRx e j := rfl
@[simp] theorem getRx_setRing (i j : Nat) (v : Ring) (e : Engine) : getRx (setRing i v e) j = getRx e j := rfl
@[simp] theorem getRx_setPort (i j : Nat) (v : Port) (e : Engine) : getRx (setPort i v e) j = getRx e j := rfl
@[simp] theorem getRx_setGroup (i j : Nat) (v : Group) (e : Engine) : getRx (setGroup i v e) j = getRx e j := rfl
@[simp] theorem getRx_setSlot (i j : Nat) (v : RefSlot) (e : Engine) : getRx (setSlot i v e) j = getRx e j := rfl
@[simp] theorem getRx_setInst (i j : Nat) (v : PtpInst) (e : Engine) : getRx (setInst i v e) j = getRx e j := rfl
@[simp] theorem getRx_setTx (i j : Nat) (v : Option TxS) (e : Engine) : getRx (setTx i v e) j = getRx e j := rfl
@[simp] theorem getRx_setPath (i j : Nat) (v : Option TxPath) (e : Engine) : getRx (setPath i v e) j = getRx e j := rfl
@[simp] theorem getRx_setF (f : Fld) (i v j : Nat) (e : Engine) : getRx (setF f i v e) j = getRx e j := rfl

@[simp] theorem getTx_setTx_self (i : Nat) (v : Option TxS) (e : Engine) : getTx (setTx i v e) i = v := tget_tput_self ..
theorem getTx_setTx_ne {i j : Nat} (v : Option TxS) (e : Engine) (h : i ≠ j) : getTx (setTx i v e) j = getTx e j := tget_tput_ne _ _ _ h

@[simp] theorem getTx_setCell (i j : Nat) (v : Cell) (e : Engine) : getTx (setCell i v e) j = getTx e j := rfl
@[simp] theorem getTx_setRun (i j : Nat) (v : ItemRun) (e : Engine) : getTx (setRun i v e) j = getTx e j := rfl
@[simp] theorem getTx_setConc (i j : Nat) (v : Conceal) (e : Engine) : getTx (setConc i v e) j = getTx e j := rfl
@[simp] theorem getTx_setSig (i j : Nat) (v : List Int) (e : Engine) : getTx (setSig i v e) j = getTx e j := rfl
@[simp] theorem getTx_setSink (i j : Nat) (v : Sink) (e : Engine) : getTx (setSink i v e) j = getTx e j := rfl
@[simp] theorem getTx_setGp (i j : Nat) (v : Gp) (e : Engine) : getTx (setGp i v e) j = getTx e j := rfl
@[simp] theorem getTx_setRing (i j : Nat) (v : Ring) (e : Engine) : getTx (setRing i v e) j = getTx e j := rfl
@[simp] theorem getTx_setPort (i j : Nat) (v : Port) (e : Engine) : getTx (setPort i v e) j = getTx e j := rfl
@[simp] theorem getTx_setGroup (i j : Nat) (v : Group) (e : Engine) : getTx (setGroup i v e) j = getTx e j := rfl
@[simp] theorem getTx_setSlot (i j : Nat) (v : RefSlot) (e : Engine) : getTx (setSlot i v e) j = getTx e j := rfl
@[simp] theorem getTx_setInst (i j : Nat) (v : PtpInst) (e : Engine) : getTx (setInst i v e) j = getTx e j := rfl
@[simp] theorem getTx_setRx (i j : Nat) (v : Option RxS) (e : Engine) : getTx (setRx i v e) j = getTx e j := rfl
@[simp] theorem getTx_setPath (i j : Nat) (v : Option TxPath) (e : Engine) : getTx (setPath i v e) j = getTx e j := rfl
@[simp] theorem getTx_setF (f : Fld) (i v j : Nat) (e : Engine) : getTx (setF f i v e) j = getTx e j := rfl

@[simp] theorem getPath_setPath_self (i : Nat) (v : Option TxPath) (e : Engine) : getPath (setPath i v e) i = v := tget_tput_self ..
theorem getPath_setPath_ne {i j : Nat} (v : Option TxPath) (e : Engine) (h : i ≠ j) : getPath (setPath i v e) j = getPath e j := tget_tput_ne _ _ _ h

@[simp] theorem getPath_setCell (i j : Nat) (v : Cell) (e : Engine) : getPath (setCell i v e) j = getPath e j := rfl
@[simp] theorem getPath_setRun (i j : Nat) (v : ItemRun) (e : Engine) : getPath (setRun i v e) j = getPath e j := rfl
@[simp] theorem getPath_setConc (i j : Nat) (v : Conceal) (e : Engine) : getPath (setConc i v e) j = getPath e j := rfl
@[simp] theorem getPath_setSig (i j : Nat) (v : List Int) (e : Engine) : getPath (setSig i v e) j = getPath e j := rfl
@[simp] theorem getPath_setSink (i j : Nat) (v : Sink) (e : Engine) : getPath (setSink i v e) j = getPath e j := rfl
@[simp] theorem getPath_setGp (i j : Nat) (v : Gp) (e : Engine) : getPath (setGp i v e) j = getPath e j := rfl
@[simp] theorem getPath_setRing (i j : Nat) (v : Ring) (e : Engine) : getPath (setRing i v e) j = getPath e j := rfl
@[simp] theorem getPath_setPort (i j : Nat) (v : Port) (e : Engine) : getPath (setPort i v e) j = getPath e j := rfl
@[simp] theorem getPath_setGroup (i j : Nat) (v : Group) (e : Engine) : getPath (setGroup i v e) j = getPath e j := rfl
@[simp] theorem getPath_setSlot (i j : Nat) (v : RefSlot) (e : Engine) : getPath (setSlot i v e) j = getPath e j := rfl
@[simp] theorem getPath_setInst (i j : Nat) (v : PtpInst) (e : Engine) : getPath (setInst i v e) j = getPath e j := rfl
@[simp] theorem getPath_setRx (i j : Nat) (v : Option RxS) (e : Engine) : getPath (setRx i v e) j = getPath e j := rfl
@[simp] theorem getPath_setTx (i j : Nat) (v : Option TxS) (e : Engine) : getPath (setTx i v e) j = getPath e j := rfl
@[simp] theorem getPath_setF (f : Fld) (i v j : Nat) (e : Engine) : getPath (setF f i v e) j = getPath e j := rfl

/-! ### Register fields -/

theorem Fld.ctorIdx_lt (f : Fld) : f.ctorIdx < 1024 := by cases f <;> decide

theorem Fld.ctorIdx_inj {f g : Fld} (h : f.ctorIdx = g.ctorIdx) : f = g := by
  have hf := Fld.ofNat_ctorIdx f
  rw [h, Fld.ofNat_ctorIdx] at hf
  exact hf.symm

theorem fkey_inj {f g : Fld} {i j : Nat} (h : fkey f i = fkey g j) : f = g ∧ i = j := by
  have hf := Fld.ctorIdx_lt f
  have hg := Fld.ctorIdx_lt g
  unfold fkey at h
  exact ⟨Fld.ctorIdx_inj (by omega), by omega⟩

/-- A field reads as it was written, at its width. -/
@[simp] theorem getF_setF_self (f : Fld) (i v : Nat) (e : Engine) : getF f i (setF f i v e) = v % 2 ^ f.width :=
  tget_tput_self ..

/-- A write leaves every other field. -/
theorem getF_setF_of_ne {f g : Fld} (h : f ≠ g) (i j v : Nat) (e : Engine) : getF g j (setF f i v e) = getF g j e :=
  tget_tput_ne' (f.reset i) _ _ _ fun hk => h (fkey_inj hk).1

/-- A write leaves every other instance of the field. -/
theorem getF_setF_of_idx_ne {i j : Nat} (h : i ≠ j) (f g : Fld) (v : Nat) (e : Engine) : getF g j (setF f i v e) = getF g j e :=
  tget_tput_ne' (f.reset i) _ _ _ fun hk => h (fkey_inj hk).2

/-- The field that a read of any instance gives after a write. -/
@[simp] theorem getF_setF (f g : Fld) (i j v : Nat) (e : Engine) :
    getF g j (setF f i v e) = if f = g ∧ i = j then v % 2 ^ f.width else getF g j e := by
  split
  · next h => obtain ⟨rfl, rfl⟩ := h; exact getF_setF_self ..
  · next h => exact tget_tput_ne' (f.reset i) _ _ _ fun hk => h (fkey_inj hk)

end Sys2Proof.Machine
end

