-- ==== Sys2Proof/Laws/Memory.lean ====
section
/-! SUPPORT. The laws of memory: a byte reads as it was written, a write leaves every other byte, and every operation over memory keeps
its canonical form. -/
namespace Sys2Proof.Machine

set_option Elab.async false

@[simp] theorem readByte_writeByte_self (a : Nat) (v : Byte) (e : Engine) : readByte (writeByte a v e) a = v := tget_tput_self ..

theorem readByte_writeByte_ne {a b : Nat} (v : Byte) (e : Engine) (h : a ≠ b) : readByte (writeByte a v e) b = readByte e b :=
  tget_tput_ne _ _ _ h

@[simp] theorem readByte_setF (f : Fld) (i v a : Nat) (e : Engine) : readByte (setF f i v e) a = readByte e a := rfl
@[simp] theorem readByte_setEcc (g v a : Nat) (e : Engine) : readByte (setEcc g v e) a = readByte e a := rfl

/-- A write of several bytes leaves every byte outside them. -/
theorem readByte_writeBytes_of_outside (a b : Nat) (bs : List Byte) (e : Engine) (h : b < a ∨ a + bs.length ≤ b) :
    readByte (writeBytes a bs e) b = readByte e b := by
  induction bs generalizing a e with
  | nil => rfl
  | cons v bs ih =>
    have h' : b < a + 1 ∨ a + 1 + bs.length ≤ b := by simp only [List.length_cons] at h; omega
    rw [writeBytes, ih (a + 1) _ h']
    exact readByte_writeByte_ne v e (by simp only [List.length_cons] at h; omega)

/-- A byte of a write reads as it was written. -/
theorem readByte_writeBytes_of_inside (a k : Nat) (bs : List Byte) (e : Engine) (h : k < bs.length) :
    readByte (writeBytes a bs e) (a + k) = bs[k] := by
  induction bs generalizing a k e with
  | nil => simp at h
  | cons v bs ih =>
    cases k with
    | zero =>
      rw [writeBytes, readByte_writeBytes_of_outside _ _ _ _ (by omega)]
      simp
    | succ k =>
      have hk : k < bs.length := by simpa using h
      have := ih (a + 1) k (writeByte a v e) hk
      rw [writeBytes, show a + (k + 1) = a + 1 + k by omega, this]
      simp

/-- Check bits say nothing of the bytes. -/
@[simp] theorem clearEcc_mem (a n k : Nat) (e : Engine) : (clearEcc a n k e).mem = e.mem := by
  induction k generalizing e with
  | zero => rfl
  | succ k ih => simp only [clearEcc, ih]; split <;> rfl

@[simp] theorem readByte_clearEcc (a n k b : Nat) (e : Engine) : readByte (clearEcc a n k e) b = readByte e b := by
  simp only [readByte, clearEcc_mem]

theorem readByte_store_of_outside (a b : Nat) (bs : List Byte) (e : Engine) (h : b < a ∨ a + bs.length ≤ b) :
    readByte (store a bs e) b = readByte e b := by
  rw [store, readByte_clearEcc, readByte_writeBytes_of_outside _ _ _ _ h]

theorem readByte_store_of_inside (a k : Nat) (bs : List Byte) (e : Engine) (h : k < bs.length) :
    readByte (store a bs e) (a + k) = bs[k] := by
  rw [store, readByte_clearEcc, readByte_writeBytes_of_inside _ _ _ _ h]

/-! ### What an operation reads depends on -/

/-- Fields are read from the register table alone. -/
theorem getF_of_regs {e e' : Engine} (h : e'.regs = e.regs) (f : Fld) (i : Nat) : getF f i e' = getF f i e := by simp only [getF, h]

theorem isF_of_regs {e e' : Engine} (h : e'.regs = e.regs) (f : Fld) (i : Nat) : isF f i e' = isF f i e := by simp only [isF, getF, h]

theorem frameNo_of_regs {e e' : Engine} (h : e'.regs = e.regs) : frameNo e' = frameNo e := by simp only [frameNo, getF, h]

/-- Bytes are read from memory alone. -/
theorem readByte_of_mem {e e' : Engine} (h : e'.mem = e.mem) (a : Nat) : readByte e' a = readByte e a := by simp only [readByte, h]

theorem readBytes_of_mem {e e' : Engine} (h : e'.mem = e.mem) (a n : Nat) : readBytes e' a n = readBytes e a n := by
  induction n generalizing a with
  | zero => rfl
  | succ n ih => simp only [readBytes, ih, readByte_of_mem h]

theorem bundleAt_of_mem {e e' : Engine} (h : e'.mem = e.mem) (c pc : Nat) : bundleAt e' c pc = bundleAt e c pc := by
  simp only [bundleAt, readBytes_of_mem h]

theorem eccAt_of_ecc {e e' : Engine} (h : e'.ecc = e.ecc) (a : Nat) : eccAt e' a = eccAt e a := by simp only [eccAt, h]

/-! ### The canonical form -/

theorem Memory.wf_writeByte (a : Nat) (v : Byte) (e : Engine) (h : Memory.wf e.mem = true) : Memory.wf (writeByte a v e).mem = true :=
  twf_tput a v h

theorem Memory.wf_writeBytes (a : Nat) (bs : List Byte) (e : Engine) (h : Memory.wf e.mem = true) :
    Memory.wf (writeBytes a bs e).mem = true := by
  induction bs generalizing a e with
  | nil => exact h
  | cons b bs ih => exact ih _ _ (wf_writeByte a b e h)

theorem Memory.wf_write64 (a : Nat) (v : Word64) (e : Engine) (h : Memory.wf e.mem = true) : Memory.wf (write64 a v e).mem = true :=
  wf_writeBytes _ _ _ h

theorem Memory.wf_write32 (a v : Nat) (e : Engine) (h : Memory.wf e.mem = true) : Memory.wf (write32 a v e).mem = true :=
  wf_writeBytes _ _ _ h

theorem Memory.wf_writeWords (a : Nat) (ws : List Word64) (e : Engine) (h : Memory.wf e.mem = true) :
    Memory.wf (writeWords a ws e).mem = true := by
  induction ws generalizing a e with
  | nil => exact h
  | cons w ws ih => exact ih _ _ (wf_write64 a w e h)

theorem Memory.wf_store (a : Nat) (bs : List Byte) (e : Engine) (h : Memory.wf e.mem = true) : Memory.wf (store a bs e).mem = true := by
  rw [store, clearEcc_mem]
  exact wf_writeBytes _ _ _ h

/-- Removing bytes keeps the form. -/
theorem Memory.wf_filter (p : Host.Cell → Bool) (m : List Host.Cell) (h : Memory.wf m = true) : Memory.wf (m.filter p) = true := by
  suffices H : ∀ lo, tsortedFrom lo m = true → tdense 0 m = true → tsortedFrom lo (m.filter p) = true ∧ tdense 0 (m.filter p) = true by
    simp only [Memory.wf, twf, Bool.and_eq_true] at h ⊢
    exact H 0 h.1 h.2
  clear h
  induction m with
  | nil => intro _ _ _; exact ⟨rfl, rfl⟩
  | cons c m ih =>
    intro lo hs hd
    simp only [tsortedFrom, tdense, Bool.and_eq_true, decide_eq_true_eq] at hs hd
    have hm := ih (c.1 + 1) hs.2 hd.2
    by_cases hp : p c = true
    · simp only [List.filter_cons, hp, if_true, tsortedFrom, tdense, Bool.and_eq_true, decide_eq_true_eq]
      exact ⟨⟨hs.1, hm.1⟩, hd.1, hm.2⟩
    · simp only [List.filter_cons, hp]
      exact ⟨tsortedFrom_mono (by omega) hm.1, hm.2⟩

/-- Reset memory lists nothing. -/
theorem Memory.wf_reset : Memory.wf State.reset.e.mem = true := rfl

end Sys2Proof.Machine
end

