-- ==== Sys2Proof/Laws/Ops.lean ====
section
/-! SUPPORT. What each shared operation of the engine can do: the fields that it leaves, and the registers that it writes. -/
namespace Sys2Proof.Machine

set_option Elab.async false

/-! ### Counters, extremes and bits -/

section
variable (f : Fld) (i n : Nat) (e : Engine)
@[simp] theorem bumpF_regsNext : (bumpF f i n e).regsNext = e.regsNext := rfl
@[simp] theorem bumpF_latch : (bumpF f i n e).latch = e.latch := rfl
@[simp] theorem bumpF_mem : (bumpF f i n e).mem = e.mem := rfl
@[simp] theorem bumpF_ecc : (bumpF f i n e).ecc = e.ecc := rfl
@[simp] theorem bumpF_cells : (bumpF f i n e).cells = e.cells := rfl
@[simp] theorem bumpF_sched : (bumpF f i n e).sched = e.sched := rfl
@[simp] theorem bumpF_health : (bumpF f i n e).health = e.health := rfl
@[simp] theorem bumpF_mix : (bumpF f i n e).mix = e.mix := rfl
@[simp] theorem bumpF_ports : (bumpF f i n e).ports = e.ports := rfl
@[simp] theorem bumpF_clk : (bumpF f i n e).clk = e.clk := rfl
@[simp] theorem bumpF_net : (bumpF f i n e).net = e.net := rfl
@[simp] theorem bumpF_ptp : (bumpF f i n e).ptp = e.ptp := rfl
@[simp] theorem bumpF_fab : (bumpF f i n e).fab = e.fab := rfl
@[simp] theorem bumpF_pair : (bumpF f i n e).pair = e.pair := rfl
@[simp] theorem bumpF_ctl : (bumpF f i n e).ctl = e.ctl := rfl
@[simp] theorem bumpF_xmem : (bumpF f i n e).xmem = e.xmem := rfl
@[simp] theorem bumpF_host : (bumpF f i n e).host = e.host := rfl
@[simp] theorem bumpF_sample : (bumpF f i n e).sample = e.sample := rfl
@[simp] theorem bumpF_held : (bumpF f i n e).held = e.held := rfl
@[simp] theorem bumpF_free : (bumpF f i n e).free = e.free := rfl
end

section
variable (f : Fld) (i n : Nat) (e : Engine)
@[simp] theorem wrapF_regsNext : (wrapF f i n e).regsNext = e.regsNext := rfl
@[simp] theorem wrapF_latch : (wrapF f i n e).latch = e.latch := rfl
@[simp] theorem wrapF_mem : (wrapF f i n e).mem = e.mem := rfl
@[simp] theorem wrapF_ecc : (wrapF f i n e).ecc = e.ecc := rfl
@[simp] theorem wrapF_cells : (wrapF f i n e).cells = e.cells := rfl
@[simp] theorem wrapF_sched : (wrapF f i n e).sched = e.sched := rfl
@[simp] theorem wrapF_health : (wrapF f i n e).health = e.health := rfl
@[simp] theorem wrapF_mix : (wrapF f i n e).mix = e.mix := rfl
@[simp] theorem wrapF_ports : (wrapF f i n e).ports = e.ports := rfl
@[simp] theorem wrapF_clk : (wrapF f i n e).clk = e.clk := rfl
@[simp] theorem wrapF_net : (wrapF f i n e).net = e.net := rfl
@[simp] theorem wrapF_ptp : (wrapF f i n e).ptp = e.ptp := rfl
@[simp] theorem wrapF_fab : (wrapF f i n e).fab = e.fab := rfl
@[simp] theorem wrapF_pair : (wrapF f i n e).pair = e.pair := rfl
@[simp] theorem wrapF_ctl : (wrapF f i n e).ctl = e.ctl := rfl
@[simp] theorem wrapF_xmem : (wrapF f i n e).xmem = e.xmem := rfl
@[simp] theorem wrapF_host : (wrapF f i n e).host = e.host := rfl
@[simp] theorem wrapF_sample : (wrapF f i n e).sample = e.sample := rfl
@[simp] theorem wrapF_held : (wrapF f i n e).held = e.held := rfl
@[simp] theorem wrapF_free : (wrapF f i n e).free = e.free := rfl
end

section
variable (f : Fld) (i b : Nat) (on : Bool) (e : Engine)
@[simp] theorem setBitF_regsNext : (setBitF f i b on e).regsNext = e.regsNext := rfl
@[simp] theorem setBitF_latch : (setBitF f i b on e).latch = e.latch := rfl
@[simp] theorem setBitF_mem : (setBitF f i b on e).mem = e.mem := rfl
@[simp] theorem setBitF_ecc : (setBitF f i b on e).ecc = e.ecc := rfl
@[simp] theorem setBitF_cells : (setBitF f i b on e).cells = e.cells := rfl
@[simp] theorem setBitF_sched : (setBitF f i b on e).sched = e.sched := rfl
@[simp] theorem setBitF_health : (setBitF f i b on e).health = e.health := rfl
@[simp] theorem setBitF_mix : (setBitF f i b on e).mix = e.mix := rfl
@[simp] theorem setBitF_ports : (setBitF f i b on e).ports = e.ports := rfl
@[simp] theorem setBitF_clk : (setBitF f i b on e).clk = e.clk := rfl
@[simp] theorem setBitF_net : (setBitF f i b on e).net = e.net := rfl
@[simp] theorem setBitF_ptp : (setBitF f i b on e).ptp = e.ptp := rfl
@[simp] theorem setBitF_fab : (setBitF f i b on e).fab = e.fab := rfl
@[simp] theorem setBitF_pair : (setBitF f i b on e).pair = e.pair := rfl
@[simp] theorem setBitF_ctl : (setBitF f i b on e).ctl = e.ctl := rfl
@[simp] theorem setBitF_xmem : (setBitF f i b on e).xmem = e.xmem := rfl
@[simp] theorem setBitF_host : (setBitF f i b on e).host = e.host := rfl
@[simp] theorem setBitF_sample : (setBitF f i b on e).sample = e.sample := rfl
@[simp] theorem setBitF_held : (setBitF f i b on e).held = e.held := rfl
@[simp] theorem setBitF_free : (setBitF f i b on e).free = e.free := rfl
end

section
variable (f : Fld) (i v : Nat) (e : Engine)
@[simp] theorem maxF_regsNext : (maxF f i v e).regsNext = e.regsNext := by unfold maxF; split <;> rfl
@[simp] theorem maxF_latch : (maxF f i v e).latch = e.latch := by unfold maxF; split <;> rfl
@[simp] theorem maxF_mem : (maxF f i v e).mem = e.mem := by unfold maxF; split <;> rfl
@[simp] theorem maxF_ecc : (maxF f i v e).ecc = e.ecc := by unfold maxF; split <;> rfl
@[simp] theorem maxF_cells : (maxF f i v e).cells = e.cells := by unfold maxF; split <;> rfl
@[simp] theorem maxF_sched : (maxF f i v e).sched = e.sched := by unfold maxF; split <;> rfl
@[simp] theorem maxF_health : (maxF f i v e).health = e.health := by unfold maxF; split <;> rfl
@[simp] theorem maxF_mix : (maxF f i v e).mix = e.mix := by unfold maxF; split <;> rfl
@[simp] theorem maxF_ports : (maxF f i v e).ports = e.ports := by unfold maxF; split <;> rfl
@[simp] theorem maxF_clk : (maxF f i v e).clk = e.clk := by unfold maxF; split <;> rfl
@[simp] theorem maxF_net : (maxF f i v e).net = e.net := by unfold maxF; split <;> rfl
@[simp] theorem maxF_ptp : (maxF f i v e).ptp = e.ptp := by unfold maxF; split <;> rfl
@[simp] theorem maxF_fab : (maxF f i v e).fab = e.fab := by unfold maxF; split <;> rfl
@[simp] theorem maxF_pair : (maxF f i v e).pair = e.pair := by unfold maxF; split <;> rfl
@[simp] theorem maxF_ctl : (maxF f i v e).ctl = e.ctl := by unfold maxF; split <;> rfl
@[simp] theorem maxF_xmem : (maxF f i v e).xmem = e.xmem := by unfold maxF; split <;> rfl
@[simp] theorem maxF_host : (maxF f i v e).host = e.host := by unfold maxF; split <;> rfl
@[simp] theorem maxF_sample : (maxF f i v e).sample = e.sample := by unfold maxF; split <;> rfl
@[simp] theorem maxF_held : (maxF f i v e).held = e.held := by unfold maxF; split <;> rfl
@[simp] theorem maxF_free : (maxF f i v e).free = e.free := by unfold maxF; split <;> rfl
end

/-- A counter rises by what is added, up to its maximum. -/
theorem getF_bumpF_self (f : Fld) (i n : Nat) (e : Engine) :
    getF f i (bumpF f i n e) = min (getF f i e + n) (2 ^ f.width - 1) := by
  rw [bumpF, getF_setF_self]
  exact Nat.mod_eq_of_lt (by have := Nat.two_pow_pos f.width; omega)

@[simp] theorem getF_bumpF (f g : Fld) (i j n : Nat) (e : Engine) :
    getF g j (bumpF f i n e) = if f = g ∧ i = j then min (getF f i e + n) (2 ^ f.width - 1) else getF g j e := by
  split
  · next h => obtain ⟨rfl, rfl⟩ := h; exact getF_bumpF_self ..
  · next h => rw [bumpF, getF_setF, if_neg h]

@[simp] theorem getF_setBitF (f g : Fld) (i j b : Nat) (on : Bool) (e : Engine) :
    getF g j (setBitF f i b on e) = if f = g ∧ i = j then setBit (getF f i e) b on % 2 ^ f.width else getF g j e := by
  rw [setBitF, getF_setF]

@[simp] theorem getF_maxF_of_ne {f g : Fld} (h : f ≠ g) (i j v : Nat) (e : Engine) : getF g j (maxF f i v e) = getF g j e := by
  unfold maxF
  split
  · exact getF_setF_of_ne h ..
  · rfl

/-! ### Memory -/

@[simp] theorem writeBytes_regs (a : Nat) (bs : List Byte) (e : Engine) : (writeBytes a bs e).regs = e.regs := by
  induction bs generalizing a e with
  | nil => rfl
  | cons b bs ih => rw [writeBytes, ih]; rfl
@[simp] theorem writeBytes_regsNext (a : Nat) (bs : List Byte) (e : Engine) : (writeBytes a bs e).regsNext = e.regsNext := by
  induction bs generalizing a e with
  | nil => rfl
  | cons b bs ih => rw [writeBytes, ih]; rfl
@[simp] theorem writeBytes_latch (a : Nat) (bs : List Byte) (e : Engine) : (writeBytes a bs e).latch = e.latch := by
  induction bs generalizing a e with
  | nil => rfl
  | cons b bs ih => rw [writeBytes, ih]; rfl
@[simp] theorem writeBytes_ecc (a : Nat) (bs : List Byte) (e : Engine) : (writeBytes a bs e).ecc = e.ecc := by
  induction bs generalizing a e with
  | nil => rfl
  | cons b bs ih => rw [writeBytes, ih]; rfl
@[simp] theorem writeBytes_cells (a : Nat) (bs : List Byte) (e : Engine) : (writeBytes a bs e).cells = e.cells := by
  induction bs generalizing a e with
  | nil => rfl
  | cons b bs ih => rw [writeBytes, ih]; rfl
@[simp] theorem writeBytes_sched (a : Nat) (bs : List Byte) (e : Engine) : (writeBytes a bs e).sched = e.sched := by
  induction bs generalizing a e with
  | nil => rfl
  | cons b bs ih => rw [writeBytes, ih]; rfl
@[simp] theorem writeBytes_health (a : Nat) (bs : List Byte) (e : Engine) : (writeBytes a bs e).health = e.health := by
  induction bs generalizing a e with
  | nil => rfl
  | cons b bs ih => rw [writeBytes, ih]; rfl
@[simp] theorem writeBytes_mix (a : Nat) (bs : List Byte) (e : Engine) : (writeBytes a bs e).mix = e.mix := by
  induction bs generalizing a e with
  | nil => rfl
  | cons b bs ih => rw [writeBytes, ih]; rfl
@[simp] theorem writeBytes_ports (a : Nat) (bs : List Byte) (e : Engine) : (writeBytes a bs e).ports = e.ports := by
  induction bs generalizing a e with
  | nil => rfl
  | cons b bs ih => rw [writeBytes, ih]; rfl
@[simp] theorem writeBytes_clk (a : Nat) (bs : List Byte) (e : Engine) : (writeBytes a bs e).clk = e.clk := by
  induction bs generalizing a e with
  | nil => rfl
  | cons b bs ih => rw [writeBytes, ih]; rfl
@[simp] theorem writeBytes_net (a : Nat) (bs : List Byte) (e : Engine) : (writeBytes a bs e).net = e.net := by
  induction bs generalizing a e with
  | nil => rfl
  | cons b bs ih => rw [writeBytes, ih]; rfl
@[simp] theorem writeBytes_ptp (a : Nat) (bs : List Byte) (e : Engine) : (writeBytes a bs e).ptp = e.ptp := by
  induction bs generalizing a e with
  | nil => rfl
  | cons b bs ih => rw [writeBytes, ih]; rfl
@[simp] theorem writeBytes_fab (a : Nat) (bs : List Byte) (e : Engine) : (writeBytes a bs e).fab = e.fab := by
  induction bs generalizing a e with
  | nil => rfl
  | cons b bs ih => rw [writeBytes, ih]; rfl
@[simp] theorem writeBytes_pair (a : Nat) (bs : List Byte) (e : Engine) : (writeBytes a bs e).pair = e.pair := by
  induction bs generalizing a e with
  | nil => rfl
  | cons b bs ih => rw [writeBytes, ih]; rfl
@[simp] theorem writeBytes_ctl (a : Nat) (bs : List Byte) (e : Engine) : (writeBytes a bs e).ctl = e.ctl := by
  induction bs generalizing a e with
  | nil => rfl
  | cons b bs ih => rw [writeBytes, ih]; rfl
@[simp] theorem writeBytes_xmem (a : Nat) (bs : List Byte) (e : Engine) : (writeBytes a bs e).xmem = e.xmem := by
  induction bs generalizing a e with
  | nil => rfl
  | cons b bs ih => rw [writeBytes, ih]; rfl
@[simp] theorem writeBytes_host (a : Nat) (bs : List Byte) (e : Engine) : (writeBytes a bs e).host = e.host := by
  induction bs generalizing a e with
  | nil => rfl
  | cons b bs ih => rw [writeBytes, ih]; rfl
@[simp] theorem writeBytes_sample (a : Nat) (bs : List Byte) (e : Engine) : (writeBytes a bs e).sample = e.sample := by
  induction bs generalizing a e with
  | nil => rfl
  | cons b bs ih => rw [writeBytes, ih]; rfl
@[simp] theorem writeBytes_held (a : Nat) (bs : List Byte) (e : Engine) : (writeBytes a bs e).held = e.held := by
  induction bs generalizing a e with
  | nil => rfl
  | cons b bs ih => rw [writeBytes, ih]; rfl
@[simp] theorem writeBytes_free (a : Nat) (bs : List Byte) (e : Engine) : (writeBytes a bs e).free = e.free := by
  induction bs generalizing a e with
  | nil => rfl
  | cons b bs ih => rw [writeBytes, ih]; rfl

@[simp] theorem writeWords_regs (a : Nat) (ws : List Word64) (e : Engine) : (writeWords a ws e).regs = e.regs := by
  induction ws generalizing a e with
  | nil => rfl
  | cons w ws ih => rw [writeWords, ih, write64, writeBytes_regs]
@[simp] theorem writeWords_regsNext (a : Nat) (ws : List Word64) (e : Engine) : (writeWords a ws e).regsNext = e.regsNext := by
  induction ws generalizing a e with
  | nil => rfl
  | cons w ws ih => rw [writeWords, ih, write64, writeBytes_regsNext]
@[simp] theorem writeWords_latch (a : Nat) (ws : List Word64) (e : Engine) : (writeWords a ws e).latch = e.latch := by
  induction ws generalizing a e with
  | nil => rfl
  | cons w ws ih => rw [writeWords, ih, write64, writeBytes_latch]
@[simp] theorem writeWords_ecc (a : Nat) (ws : List Word64) (e : Engine) : (writeWords a ws e).ecc = e.ecc := by
  induction ws generalizing a e with
  | nil => rfl
  | cons w ws ih => rw [writeWords, ih, write64, writeBytes_ecc]
@[simp] theorem writeWords_cells (a : Nat) (ws : List Word64) (e : Engine) : (writeWords a ws e).cells = e.cells := by
  induction ws generalizing a e with
  | nil => rfl
  | cons w ws ih => rw [writeWords, ih, write64, writeBytes_cells]
@[simp] theorem writeWords_sched (a : Nat) (ws : List Word64) (e : Engine) : (writeWords a ws e).sched = e.sched := by
  induction ws generalizing a e with
  | nil => rfl
  | cons w ws ih => rw [writeWords, ih, write64, writeBytes_sched]
@[simp] theorem writeWords_health (a : Nat) (ws : List Word64) (e : Engine) : (writeWords a ws e).health = e.health := by
  induction ws generalizing a e with
  | nil => rfl
  | cons w ws ih => rw [writeWords, ih, write64, writeBytes_health]
@[simp] theorem writeWords_mix (a : Nat) (ws : List Word64) (e : Engine) : (writeWords a ws e).mix = e.mix := by
  induction ws generalizing a e with
  | nil => rfl
  | cons w ws ih => rw [writeWords, ih, write64, writeBytes_mix]
@[simp] theorem writeWords_ports (a : Nat) (ws : List Word64) (e : Engine) : (writeWords a ws e).ports = e.ports := by
  induction ws generalizing a e with
  | nil => rfl
  | cons w ws ih => rw [writeWords, ih, write64, writeBytes_ports]
@[simp] theorem writeWords_clk (a : Nat) (ws : List Word64) (e : Engine) : (writeWords a ws e).clk = e.clk := by
  induction ws generalizing a e with
  | nil => rfl
  | cons w ws ih => rw [writeWords, ih, write64, writeBytes_clk]
@[simp] theorem writeWords_net (a : Nat) (ws : List Word64) (e : Engine) : (writeWords a ws e).net = e.net := by
  induction ws generalizing a e with
  | nil => rfl
  | cons w ws ih => rw [writeWords, ih, write64, writeBytes_net]
@[simp] theorem writeWords_ptp (a : Nat) (ws : List Word64) (e : Engine) : (writeWords a ws e).ptp = e.ptp := by
  induction ws generalizing a e with
  | nil => rfl
  | cons w ws ih => rw [writeWords, ih, write64, writeBytes_ptp]
@[simp] theorem writeWords_fab (a : Nat) (ws : List Word64) (e : Engine) : (writeWords a ws e).fab = e.fab := by
  induction ws generalizing a e with
  | nil => rfl
  | cons w ws ih => rw [writeWords, ih, write64, writeBytes_fab]
@[simp] theorem writeWords_pair (a : Nat) (ws : List Word64) (e : Engine) : (writeWords a ws e).pair = e.pair := by
  induction ws generalizing a e with
  | nil => rfl
  | cons w ws ih => rw [writeWords, ih, write64, writeBytes_pair]
@[simp] theorem writeWords_ctl (a : Nat) (ws : List Word64) (e : Engine) : (writeWords a ws e).ctl = e.ctl := by
  induction ws generalizing a e with
  | nil => rfl
  | cons w ws ih => rw [writeWords, ih, write64, writeBytes_ctl]
@[simp] theorem writeWords_xmem (a : Nat) (ws : List Word64) (e : Engine) : (writeWords a ws e).xmem = e.xmem := by
  induction ws generalizing a e with
  | nil => rfl
  | cons w ws ih => rw [writeWords, ih, write64, writeBytes_xmem]
@[simp] theorem writeWords_host (a : Nat) (ws : List Word64) (e : Engine) : (writeWords a ws e).host = e.host := by
  induction ws generalizing a e with
  | nil => rfl
  | cons w ws ih => rw [writeWords, ih, write64, writeBytes_host]
@[simp] theorem writeWords_sample (a : Nat) (ws : List Word64) (e : Engine) : (writeWords a ws e).sample = e.sample := by
  induction ws generalizing a e with
  | nil => rfl
  | cons w ws ih => rw [writeWords, ih, write64, writeBytes_sample]
@[simp] theorem writeWords_held (a : Nat) (ws : List Word64) (e : Engine) : (writeWords a ws e).held = e.held := by
  induction ws generalizing a e with
  | nil => rfl
  | cons w ws ih => rw [writeWords, ih, write64, writeBytes_held]
@[simp] theorem writeWords_free (a : Nat) (ws : List Word64) (e : Engine) : (writeWords a ws e).free = e.free := by
  induction ws generalizing a e with
  | nil => rfl
  | cons w ws ih => rw [writeWords, ih, write64, writeBytes_free]

@[simp] theorem clearEcc_regs (a n k : Nat) (e : Engine) : (clearEcc a n k e).regs = e.regs := by
  induction k generalizing e with
  | zero => rfl
  | succ k ih => simp only [clearEcc, ih]; split <;> rfl
@[simp] theorem store_regs (a : Nat) (bs : List Byte) (e : Engine) : (store a bs e).regs = e.regs := by rw [store, clearEcc_regs, writeBytes_regs]
@[simp] theorem clearEcc_regsNext (a n k : Nat) (e : Engine) : (clearEcc a n k e).regsNext = e.regsNext := by
  induction k generalizing e with
  | zero => rfl
  | succ k ih => simp only [clearEcc, ih]; split <;> rfl
@[simp] theorem store_regsNext (a : Nat) (bs : List Byte) (e : Engine) : (store a bs e).regsNext = e.regsNext := by rw [store, clearEcc_regsNext, writeBytes_regsNext]
@[simp] theorem clearEcc_latch (a n k : Nat) (e : Engine) : (clearEcc a n k e).latch = e.latch := by
  induction k generalizing e with
  | zero => rfl
  | succ k ih => simp only [clearEcc, ih]; split <;> rfl
@[simp] theorem store_latch (a : Nat) (bs : List Byte) (e : Engine) : (store a bs e).latch = e.latch := by rw [store, clearEcc_latch, writeBytes_latch]
@[simp] theorem clearEcc_cells (a n k : Nat) (e : Engine) : (clearEcc a n k e).cells = e.cells := by
  induction k generalizing e with
  | zero => rfl
  | succ k ih => simp only [clearEcc, ih]; split <;> rfl
@[simp] theorem store_cells (a : Nat) (bs : List Byte) (e : Engine) : (store a bs e).cells = e.cells := by rw [store, clearEcc_cells, writeBytes_cells]
@[simp] theorem clearEcc_sched (a n k : Nat) (e : Engine) : (clearEcc a n k e).sched = e.sched := by
  induction k generalizing e with
  | zero => rfl
  | succ k ih => simp only [clearEcc, ih]; split <;> rfl
@[simp] theorem store_sched (a : Nat) (bs : List Byte) (e : Engine) : (store a bs e).sched = e.sched := by rw [store, clearEcc_sched, writeBytes_sched]
@[simp] theorem clearEcc_health (a n k : Nat) (e : Engine) : (clearEcc a n k e).health = e.health := by
  induction k generalizing e with
  | zero => rfl
  | succ k ih => simp only [clearEcc, ih]; split <;> rfl
@[simp] theorem store_health (a : Nat) (bs : List Byte) (e : Engine) : (store a bs e).health = e.health := by rw [store, clearEcc_health, writeBytes_health]
@[simp] theorem clearEcc_mix (a n k : Nat) (e : Engine) : (clearEcc a n k e).mix = e.mix := by
  induction k generalizing e with
  | zero => rfl
  | succ k ih => simp only [clearEcc, ih]; split <;> rfl
@[simp] theorem store_mix (a : Nat) (bs : List Byte) (e : Engine) : (store a bs e).mix = e.mix := by rw [store, clearEcc_mix, writeBytes_mix]
@[simp] theorem clearEcc_ports (a n k : Nat) (e : Engine) : (clearEcc a n k e).ports = e.ports := by
  induction k generalizing e with
  | zero => rfl
  | succ k ih => simp only [clearEcc, ih]; split <;> rfl
@[simp] theorem store_ports (a : Nat) (bs : List Byte) (e : Engine) : (store a bs e).ports = e.ports := by rw [store, clearEcc_ports, writeBytes_ports]
@[simp] theorem clearEcc_clk (a n k : Nat) (e : Engine) : (clearEcc a n k e).clk = e.clk := by
  induction k generalizing e with
  | zero => rfl
  | succ k ih => simp only [clearEcc, ih]; split <;> rfl
@[simp] theorem store_clk (a : Nat) (bs : List Byte) (e : Engine) : (store a bs e).clk = e.clk := by rw [store, clearEcc_clk, writeBytes_clk]
@[simp] theorem clearEcc_net (a n k : Nat) (e : Engine) : (clearEcc a n k e).net = e.net := by
  induction k generalizing e with
  | zero => rfl
  | succ k ih => simp only [clearEcc, ih]; split <;> rfl
@[simp] theorem store_net (a : Nat) (bs : List Byte) (e : Engine) : (store a bs e).net = e.net := by rw [store, clearEcc_net, writeBytes_net]
@[simp] theorem clearEcc_ptp (a n k : Nat) (e : Engine) : (clearEcc a n k e).ptp = e.ptp := by
  induction k generalizing e with
  | zero => rfl
  | succ k ih => simp only [clearEcc, ih]; split <;> rfl
@[simp] theorem store_ptp (a : Nat) (bs : List Byte) (e : Engine) : (store a bs e).ptp = e.ptp := by rw [store, clearEcc_ptp, writeBytes_ptp]
@[simp] theorem clearEcc_fab (a n k : Nat) (e : Engine) : (clearEcc a n k e).fab = e.fab := by
  induction k generalizing e with
  | zero => rfl
  | succ k ih => simp only [clearEcc, ih]; split <;> rfl
@[simp] theorem store_fab (a : Nat) (bs : List Byte) (e : Engine) : (store a bs e).fab = e.fab := by rw [store, clearEcc_fab, writeBytes_fab]
@[simp] theorem clearEcc_pair (a n k : Nat) (e : Engine) : (clearEcc a n k e).pair = e.pair := by
  induction k generalizing e with
  | zero => rfl
  | succ k ih => simp only [clearEcc, ih]; split <;> rfl
@[simp] theorem store_pair (a : Nat) (bs : List Byte) (e : Engine) : (store a bs e).pair = e.pair := by rw [store, clearEcc_pair, writeBytes_pair]
@[simp] theorem clearEcc_ctl (a n k : Nat) (e : Engine) : (clearEcc a n k e).ctl = e.ctl := by
  induction k generalizing e with
  | zero => rfl
  | succ k ih => simp only [clearEcc, ih]; split <;> rfl
@[simp] theorem store_ctl (a : Nat) (bs : List Byte) (e : Engine) : (store a bs e).ctl = e.ctl := by rw [store, clearEcc_ctl, writeBytes_ctl]
@[simp] theorem clearEcc_xmem (a n k : Nat) (e : Engine) : (clearEcc a n k e).xmem = e.xmem := by
  induction k generalizing e with
  | zero => rfl
  | succ k ih => simp only [clearEcc, ih]; split <;> rfl
@[simp] theorem store_xmem (a : Nat) (bs : List Byte) (e : Engine) : (store a bs e).xmem = e.xmem := by rw [store, clearEcc_xmem, writeBytes_xmem]
@[simp] theorem clearEcc_host (a n k : Nat) (e : Engine) : (clearEcc a n k e).host = e.host := by
  induction k generalizing e with
  | zero => rfl
  | succ k ih => simp only [clearEcc, ih]; split <;> rfl
@[simp] theorem store_host (a : Nat) (bs : List Byte) (e : Engine) : (store a bs e).host = e.host := by rw [store, clearEcc_host, writeBytes_host]
@[simp] theorem clearEcc_sample (a n k : Nat) (e : Engine) : (clearEcc a n k e).sample = e.sample := by
  induction k generalizing e with
  | zero => rfl
  | succ k ih => simp only [clearEcc, ih]; split <;> rfl
@[simp] theorem store_sample (a : Nat) (bs : List Byte) (e : Engine) : (store a bs e).sample = e.sample := by rw [store, clearEcc_sample, writeBytes_sample]
@[simp] theorem clearEcc_held (a n k : Nat) (e : Engine) : (clearEcc a n k e).held = e.held := by
  induction k generalizing e with
  | zero => rfl
  | succ k ih => simp only [clearEcc, ih]; split <;> rfl
@[simp] theorem store_held (a : Nat) (bs : List Byte) (e : Engine) : (store a bs e).held = e.held := by rw [store, clearEcc_held, writeBytes_held]
@[simp] theorem clearEcc_free (a n k : Nat) (e : Engine) : (clearEcc a n k e).free = e.free := by
  induction k generalizing e with
  | zero => rfl
  | succ k ih => simp only [clearEcc, ih]; split <;> rfl
@[simp] theorem store_free (a : Nat) (bs : List Byte) (e : Engine) : (store a bs e).free = e.free := by rw [store, clearEcc_free, writeBytes_free]

@[simp] theorem getF_writeBytes (g : Fld) (j a : Nat) (bs : List Byte) (e : Engine) : getF g j (writeBytes a bs e) = getF g j e := by
  simp only [getF, writeBytes_regs]
@[simp] theorem getF_writeWords (g : Fld) (j a : Nat) (ws : List Word64) (e : Engine) : getF g j (writeWords a ws e) = getF g j e := by
  simp only [getF, writeWords_regs]
@[simp] theorem getF_store (g : Fld) (j a : Nat) (bs : List Byte) (e : Engine) : getF g j (store a bs e) = getF g j e := by
  simp only [getF, store_regs]

/-! ### Free values -/

@[simp] theorem takeFree_regs (e : Engine) : (takeFree e).2.regs = e.regs := rfl
@[simp] theorem takeFree_regsNext (e : Engine) : (takeFree e).2.regsNext = e.regsNext := rfl
@[simp] theorem takeFree_latch (e : Engine) : (takeFree e).2.latch = e.latch := rfl
@[simp] theorem takeFree_mem (e : Engine) : (takeFree e).2.mem = e.mem := rfl
@[simp] theorem takeFree_ecc (e : Engine) : (takeFree e).2.ecc = e.ecc := rfl
@[simp] theorem takeFree_cells (e : Engine) : (takeFree e).2.cells = e.cells := rfl
@[simp] theorem takeFree_sched (e : Engine) : (takeFree e).2.sched = e.sched := rfl
@[simp] theorem takeFree_health (e : Engine) : (takeFree e).2.health = e.health := rfl
@[simp] theorem takeFree_mix (e : Engine) : (takeFree e).2.mix = e.mix := rfl
@[simp] theorem takeFree_ports (e : Engine) : (takeFree e).2.ports = e.ports := rfl
@[simp] theorem takeFree_clk (e : Engine) : (takeFree e).2.clk = e.clk := rfl
@[simp] theorem takeFree_net (e : Engine) : (takeFree e).2.net = e.net := rfl
@[simp] theorem takeFree_ptp (e : Engine) : (takeFree e).2.ptp = e.ptp := rfl
@[simp] theorem takeFree_fab (e : Engine) : (takeFree e).2.fab = e.fab := rfl
@[simp] theorem takeFree_pair (e : Engine) : (takeFree e).2.pair = e.pair := rfl
@[simp] theorem takeFree_ctl (e : Engine) : (takeFree e).2.ctl = e.ctl := rfl
@[simp] theorem takeFree_xmem (e : Engine) : (takeFree e).2.xmem = e.xmem := rfl
@[simp] theorem takeFree_host (e : Engine) : (takeFree e).2.host = e.host := rfl
@[simp] theorem takeFree_sample (e : Engine) : (takeFree e).2.sample = e.sample := rfl
@[simp] theorem takeFree_held (e : Engine) : (takeFree e).2.held = e.held := rfl
@[simp] theorem getF_takeFree (g : Fld) (j : Nat) (e : Engine) : getF g j (takeFree e).2 = getF g j e := rfl

/-! ### Events and completions -/

section
variable (h n : Nat) (ws : List Word64) (e : Engine)
@[simp] theorem putEntry_regsNext : (putEntry h n ws e).regsNext = e.regsNext := by unfold putEntry; cases hostAt e h n <;> simp only [writeWords_regsNext, bumpF_regsNext]
@[simp] theorem putEntry_latch : (putEntry h n ws e).latch = e.latch := by unfold putEntry; cases hostAt e h n <;> simp only [writeWords_latch, bumpF_latch]
@[simp] theorem putEntry_ecc : (putEntry h n ws e).ecc = e.ecc := by unfold putEntry; cases hostAt e h n <;> simp only [writeWords_ecc, bumpF_ecc]
@[simp] theorem putEntry_cells : (putEntry h n ws e).cells = e.cells := by unfold putEntry; cases hostAt e h n <;> simp only [writeWords_cells, bumpF_cells]
@[simp] theorem putEntry_sched : (putEntry h n ws e).sched = e.sched := by unfold putEntry; cases hostAt e h n <;> simp only [writeWords_sched, bumpF_sched]
@[simp] theorem putEntry_health : (putEntry h n ws e).health = e.health := by unfold putEntry; cases hostAt e h n <;> simp only [writeWords_health, bumpF_health]
@[simp] theorem putEntry_mix : (putEntry h n ws e).mix = e.mix := by unfold putEntry; cases hostAt e h n <;> simp only [writeWords_mix, bumpF_mix]
@[simp] theorem putEntry_ports : (putEntry h n ws e).ports = e.ports := by unfold putEntry; cases hostAt e h n <;> simp only [writeWords_ports, bumpF_ports]
@[simp] theorem putEntry_clk : (putEntry h n ws e).clk = e.clk := by unfold putEntry; cases hostAt e h n <;> simp only [writeWords_clk, bumpF_clk]
@[simp] theorem putEntry_net : (putEntry h n ws e).net = e.net := by unfold putEntry; cases hostAt e h n <;> simp only [writeWords_net, bumpF_net]
@[simp] theorem putEntry_ptp : (putEntry h n ws e).ptp = e.ptp := by unfold putEntry; cases hostAt e h n <;> simp only [writeWords_ptp, bumpF_ptp]
@[simp] theorem putEntry_fab : (putEntry h n ws e).fab = e.fab := by unfold putEntry; cases hostAt e h n <;> simp only [writeWords_fab, bumpF_fab]
@[simp] theorem putEntry_pair : (putEntry h n ws e).pair = e.pair := by unfold putEntry; cases hostAt e h n <;> simp only [writeWords_pair, bumpF_pair]
@[simp] theorem putEntry_xmem : (putEntry h n ws e).xmem = e.xmem := by unfold putEntry; cases hostAt e h n <;> simp only [writeWords_xmem, bumpF_xmem]
@[simp] theorem putEntry_host : (putEntry h n ws e).host = e.host := by unfold putEntry; cases hostAt e h n <;> simp only [writeWords_host, bumpF_host]
@[simp] theorem putEntry_sample : (putEntry h n ws e).sample = e.sample := by unfold putEntry; cases hostAt e h n <;> simp only [writeWords_sample, bumpF_sample]
@[simp] theorem putEntry_held : (putEntry h n ws e).held = e.held := by unfold putEntry; cases hostAt e h n <;> simp only [writeWords_held, bumpF_held]
@[simp] theorem putEntry_free : (putEntry h n ws e).free = e.free := by unfold putEntry; cases hostAt e h n <;> simp only [writeWords_free, bumpF_free]
end

section
variable (k tail size : Nat) (e : Engine)
@[simp] theorem useEntry_regsNext : (useEntry k tail size e).regsNext = e.regsNext := by rfl
@[simp] theorem useEntry_latch : (useEntry k tail size e).latch = e.latch := by rfl
@[simp] theorem useEntry_ecc : (useEntry k tail size e).ecc = e.ecc := by rfl
@[simp] theorem useEntry_cells : (useEntry k tail size e).cells = e.cells := by rfl
@[simp] theorem useEntry_sched : (useEntry k tail size e).sched = e.sched := by rfl
@[simp] theorem useEntry_health : (useEntry k tail size e).health = e.health := by rfl
@[simp] theorem useEntry_mix : (useEntry k tail size e).mix = e.mix := by rfl
@[simp] theorem useEntry_ports : (useEntry k tail size e).ports = e.ports := by rfl
@[simp] theorem useEntry_clk : (useEntry k tail size e).clk = e.clk := by rfl
@[simp] theorem useEntry_net : (useEntry k tail size e).net = e.net := by rfl
@[simp] theorem useEntry_ptp : (useEntry k tail size e).ptp = e.ptp := by rfl
@[simp] theorem useEntry_fab : (useEntry k tail size e).fab = e.fab := by rfl
@[simp] theorem useEntry_pair : (useEntry k tail size e).pair = e.pair := by rfl
@[simp] theorem useEntry_xmem : (useEntry k tail size e).xmem = e.xmem := by rfl
@[simp] theorem useEntry_host : (useEntry k tail size e).host = e.host := by rfl
@[simp] theorem useEntry_sample : (useEntry k tail size e).sample = e.sample := by rfl
@[simp] theorem useEntry_held : (useEntry k tail size e).held = e.held := by rfl
@[simp] theorem useEntry_free : (useEntry k tail size e).free = e.free := by rfl
end

section
variable (on : Bool) (v : Nat) (e : Engine)
@[simp] theorem fireIf_regsNext : (fireIf on v e).regsNext = e.regsNext := by unfold fireIf; split <;> rfl
@[simp] theorem fireIf_latch : (fireIf on v e).latch = e.latch := by unfold fireIf; split <;> rfl
@[simp] theorem fireIf_ecc : (fireIf on v e).ecc = e.ecc := by unfold fireIf; split <;> rfl
@[simp] theorem fireIf_cells : (fireIf on v e).cells = e.cells := by unfold fireIf; split <;> rfl
@[simp] theorem fireIf_sched : (fireIf on v e).sched = e.sched := by unfold fireIf; split <;> rfl
@[simp] theorem fireIf_health : (fireIf on v e).health = e.health := by unfold fireIf; split <;> rfl
@[simp] theorem fireIf_mix : (fireIf on v e).mix = e.mix := by unfold fireIf; split <;> rfl
@[simp] theorem fireIf_ports : (fireIf on v e).ports = e.ports := by unfold fireIf; split <;> rfl
@[simp] theorem fireIf_clk : (fireIf on v e).clk = e.clk := by unfold fireIf; split <;> rfl
@[simp] theorem fireIf_net : (fireIf on v e).net = e.net := by unfold fireIf; split <;> rfl
@[simp] theorem fireIf_ptp : (fireIf on v e).ptp = e.ptp := by unfold fireIf; split <;> rfl
@[simp] theorem fireIf_fab : (fireIf on v e).fab = e.fab := by unfold fireIf; split <;> rfl
@[simp] theorem fireIf_pair : (fireIf on v e).pair = e.pair := by unfold fireIf; split <;> rfl
@[simp] theorem fireIf_xmem : (fireIf on v e).xmem = e.xmem := by unfold fireIf; split <;> rfl
@[simp] theorem fireIf_host : (fireIf on v e).host = e.host := by unfold fireIf; split <;> rfl
@[simp] theorem fireIf_sample : (fireIf on v e).sample = e.sample := by unfold fireIf; split <;> rfl
@[simp] theorem fireIf_held : (fireIf on v e).held = e.held := by unfold fireIf; split <;> rfl
@[simp] theorem fireIf_free : (fireIf on v e).free = e.free := by unfold fireIf; split <;> rfl
end

@[simp] theorem useEntry_getF (g : Fld) (j k tail size : Nat) (e : Engine) : getF g j (useEntry k tail size e) = getF g j e := rfl
@[simp] theorem fireIf_getF (g : Fld) (j v : Nat) (on : Bool) (e : Engine) : getF g j (fireIf on v e) = getF g j e := by
  unfold fireIf; split <;> rfl
@[simp] theorem useEntry_mem (k tail size : Nat) (e : Engine) : (useEntry k tail size e).mem = e.mem := rfl
@[simp] theorem fireIf_mem (on : Bool) (v : Nat) (e : Engine) : (fireIf on v e).mem = e.mem := by unfold fireIf; split <;> rfl

section
variable (code : Nat) (payload : List Nat) (e : Engine)
@[simp] theorem writeEvent_regsNext : (writeEvent code payload e).regsNext = e.regsNext := by simp only [writeEvent, fireIf_regsNext, setF_regsNext, useEntry_regsNext, putEntry_regsNext]
@[simp] theorem writeEvent_latch : (writeEvent code payload e).latch = e.latch := by simp only [writeEvent, fireIf_latch, setF_latch, useEntry_latch, putEntry_latch]
@[simp] theorem writeEvent_ecc : (writeEvent code payload e).ecc = e.ecc := by simp only [writeEvent, fireIf_ecc, setF_ecc, useEntry_ecc, putEntry_ecc]
@[simp] theorem writeEvent_cells : (writeEvent code payload e).cells = e.cells := by simp only [writeEvent, fireIf_cells, setF_cells, useEntry_cells, putEntry_cells]
@[simp] theorem writeEvent_sched : (writeEvent code payload e).sched = e.sched := by simp only [writeEvent, fireIf_sched, setF_sched, useEntry_sched, putEntry_sched]
@[simp] theorem writeEvent_health : (writeEvent code payload e).health = e.health := by simp only [writeEvent, fireIf_health, setF_health, useEntry_health, putEntry_health]
@[simp] theorem writeEvent_mix : (writeEvent code payload e).mix = e.mix := by simp only [writeEvent, fireIf_mix, setF_mix, useEntry_mix, putEntry_mix]
@[simp] theorem writeEvent_ports : (writeEvent code payload e).ports = e.ports := by simp only [writeEvent, fireIf_ports, setF_ports, useEntry_ports, putEntry_ports]
@[simp] theorem writeEvent_clk : (writeEvent code payload e).clk = e.clk := by simp only [writeEvent, fireIf_clk, setF_clk, useEntry_clk, putEntry_clk]
@[simp] theorem writeEvent_net : (writeEvent code payload e).net = e.net := by simp only [writeEvent, fireIf_net, setF_net, useEntry_net, putEntry_net]
@[simp] theorem writeEvent_ptp : (writeEvent code payload e).ptp = e.ptp := by simp only [writeEvent, fireIf_ptp, setF_ptp, useEntry_ptp, putEntry_ptp]
@[simp] theorem writeEvent_fab : (writeEvent code payload e).fab = e.fab := by simp only [writeEvent, fireIf_fab, setF_fab, useEntry_fab, putEntry_fab]
@[simp] theorem writeEvent_pair : (writeEvent code payload e).pair = e.pair := by simp only [writeEvent, fireIf_pair, setF_pair, useEntry_pair, putEntry_pair]
@[simp] theorem writeEvent_xmem : (writeEvent code payload e).xmem = e.xmem := by simp only [writeEvent, fireIf_xmem, setF_xmem, useEntry_xmem, putEntry_xmem]
@[simp] theorem writeEvent_host : (writeEvent code payload e).host = e.host := by simp only [writeEvent, fireIf_host, setF_host, useEntry_host, putEntry_host]
@[simp] theorem writeEvent_sample : (writeEvent code payload e).sample = e.sample := by simp only [writeEvent, fireIf_sample, setF_sample, useEntry_sample, putEntry_sample]
@[simp] theorem writeEvent_held : (writeEvent code payload e).held = e.held := by simp only [writeEvent, fireIf_held, setF_held, useEntry_held, putEntry_held]
@[simp] theorem writeEvent_free : (writeEvent code payload e).free = e.free := by simp only [writeEvent, fireIf_free, setF_free, useEntry_free, putEntry_free]
end

section
variable  (e : Engine)
@[simp] theorem reportLost_regsNext : (reportLost  e).regsNext = e.regsNext := by unfold reportLost; split <;> simp only [writeEvent_regsNext]
@[simp] theorem reportLost_latch : (reportLost  e).latch = e.latch := by unfold reportLost; split <;> simp only [writeEvent_latch]
@[simp] theorem reportLost_ecc : (reportLost  e).ecc = e.ecc := by unfold reportLost; split <;> simp only [writeEvent_ecc]
@[simp] theorem reportLost_cells : (reportLost  e).cells = e.cells := by unfold reportLost; split <;> simp only [writeEvent_cells]
@[simp] theorem reportLost_sched : (reportLost  e).sched = e.sched := by unfold reportLost; split <;> simp only [writeEvent_sched]
@[simp] theorem reportLost_health : (reportLost  e).health = e.health := by unfold reportLost; split <;> simp only [writeEvent_health]
@[simp] theorem reportLost_mix : (reportLost  e).mix = e.mix := by unfold reportLost; split <;> simp only [writeEvent_mix]
@[simp] theorem reportLost_ports : (reportLost  e).ports = e.ports := by unfold reportLost; split <;> simp only [writeEvent_ports]
@[simp] theorem reportLost_clk : (reportLost  e).clk = e.clk := by unfold reportLost; split <;> simp only [writeEvent_clk]
@[simp] theorem reportLost_net : (reportLost  e).net = e.net := by unfold reportLost; split <;> simp only [writeEvent_net]
@[simp] theorem reportLost_ptp : (reportLost  e).ptp = e.ptp := by unfold reportLost; split <;> simp only [writeEvent_ptp]
@[simp] theorem reportLost_fab : (reportLost  e).fab = e.fab := by unfold reportLost; split <;> simp only [writeEvent_fab]
@[simp] theorem reportLost_pair : (reportLost  e).pair = e.pair := by unfold reportLost; split <;> simp only [writeEvent_pair]
@[simp] theorem reportLost_xmem : (reportLost  e).xmem = e.xmem := by unfold reportLost; split <;> simp only [writeEvent_xmem]
@[simp] theorem reportLost_host : (reportLost  e).host = e.host := by unfold reportLost; split <;> simp only [writeEvent_host]
@[simp] theorem reportLost_sample : (reportLost  e).sample = e.sample := by unfold reportLost; split <;> simp only [writeEvent_sample]
@[simp] theorem reportLost_held : (reportLost  e).held = e.held := by unfold reportLost; split <;> simp only [writeEvent_held]
@[simp] theorem reportLost_free : (reportLost  e).free = e.free := by unfold reportLost; split <;> simp only [writeEvent_free]
end

section
variable (code : Nat) (payload : List Nat) (e : Engine)
@[simp] theorem postEvent_regsNext : (postEvent code payload e).regsNext = e.regsNext := by unfold postEvent; dsimp only; split <;> simp only [writeEvent_regsNext, reportLost_regsNext, bumpF_regsNext]
@[simp] theorem postEvent_latch : (postEvent code payload e).latch = e.latch := by unfold postEvent; dsimp only; split <;> simp only [writeEvent_latch, reportLost_latch, bumpF_latch]
@[simp] theorem postEvent_ecc : (postEvent code payload e).ecc = e.ecc := by unfold postEvent; dsimp only; split <;> simp only [writeEvent_ecc, reportLost_ecc, bumpF_ecc]
@[simp] theorem postEvent_cells : (postEvent code payload e).cells = e.cells := by unfold postEvent; dsimp only; split <;> simp only [writeEvent_cells, reportLost_cells, bumpF_cells]
@[simp] theorem postEvent_sched : (postEvent code payload e).sched = e.sched := by unfold postEvent; dsimp only; split <;> simp only [writeEvent_sched, reportLost_sched, bumpF_sched]
@[simp] theorem postEvent_health : (postEvent code payload e).health = e.health := by unfold postEvent; dsimp only; split <;> simp only [writeEvent_health, reportLost_health, bumpF_health]
@[simp] theorem postEvent_mix : (postEvent code payload e).mix = e.mix := by unfold postEvent; dsimp only; split <;> simp only [writeEvent_mix, reportLost_mix, bumpF_mix]
@[simp] theorem postEvent_ports : (postEvent code payload e).ports = e.ports := by unfold postEvent; dsimp only; split <;> simp only [writeEvent_ports, reportLost_ports, bumpF_ports]
@[simp] theorem postEvent_clk : (postEvent code payload e).clk = e.clk := by unfold postEvent; dsimp only; split <;> simp only [writeEvent_clk, reportLost_clk, bumpF_clk]
@[simp] theorem postEvent_net : (postEvent code payload e).net = e.net := by unfold postEvent; dsimp only; split <;> simp only [writeEvent_net, reportLost_net, bumpF_net]
@[simp] theorem postEvent_ptp : (postEvent code payload e).ptp = e.ptp := by unfold postEvent; dsimp only; split <;> simp only [writeEvent_ptp, reportLost_ptp, bumpF_ptp]
@[simp] theorem postEvent_fab : (postEvent code payload e).fab = e.fab := by unfold postEvent; dsimp only; split <;> simp only [writeEvent_fab, reportLost_fab, bumpF_fab]
@[simp] theorem postEvent_pair : (postEvent code payload e).pair = e.pair := by unfold postEvent; dsimp only; split <;> simp only [writeEvent_pair, reportLost_pair, bumpF_pair]
@[simp] theorem postEvent_xmem : (postEvent code payload e).xmem = e.xmem := by unfold postEvent; dsimp only; split <;> simp only [writeEvent_xmem, reportLost_xmem, bumpF_xmem]
@[simp] theorem postEvent_host : (postEvent code payload e).host = e.host := by unfold postEvent; dsimp only; split <;> simp only [writeEvent_host, reportLost_host, bumpF_host]
@[simp] theorem postEvent_sample : (postEvent code payload e).sample = e.sample := by unfold postEvent; dsimp only; split <;> simp only [writeEvent_sample, reportLost_sample, bumpF_sample]
@[simp] theorem postEvent_held : (postEvent code payload e).held = e.held := by unfold postEvent; dsimp only; split <;> simp only [writeEvent_held, reportLost_held, bumpF_held]
@[simp] theorem postEvent_free : (postEvent code payload e).free = e.free := by unfold postEvent; dsimp only; split <;> simp only [writeEvent_free, reportLost_free, bumpF_free]
end

section
variable (k : Nat) (w0 w1 : Word64) (e : Engine)
@[simp] theorem writeComp_regsNext : (writeComp k w0 w1 e).regsNext = e.regsNext := by simp only [writeComp, fireIf_regsNext, setF_regsNext, useEntry_regsNext, putEntry_regsNext]
@[simp] theorem writeComp_latch : (writeComp k w0 w1 e).latch = e.latch := by simp only [writeComp, fireIf_latch, setF_latch, useEntry_latch, putEntry_latch]
@[simp] theorem writeComp_ecc : (writeComp k w0 w1 e).ecc = e.ecc := by simp only [writeComp, fireIf_ecc, setF_ecc, useEntry_ecc, putEntry_ecc]
@[simp] theorem writeComp_cells : (writeComp k w0 w1 e).cells = e.cells := by simp only [writeComp, fireIf_cells, setF_cells, useEntry_cells, putEntry_cells]
@[simp] theorem writeComp_sched : (writeComp k w0 w1 e).sched = e.sched := by simp only [writeComp, fireIf_sched, setF_sched, useEntry_sched, putEntry_sched]
@[simp] theorem writeComp_health : (writeComp k w0 w1 e).health = e.health := by simp only [writeComp, fireIf_health, setF_health, useEntry_health, putEntry_health]
@[simp] theorem writeComp_mix : (writeComp k w0 w1 e).mix = e.mix := by simp only [writeComp, fireIf_mix, setF_mix, useEntry_mix, putEntry_mix]
@[simp] theorem writeComp_ports : (writeComp k w0 w1 e).ports = e.ports := by simp only [writeComp, fireIf_ports, setF_ports, useEntry_ports, putEntry_ports]
@[simp] theorem writeComp_clk : (writeComp k w0 w1 e).clk = e.clk := by simp only [writeComp, fireIf_clk, setF_clk, useEntry_clk, putEntry_clk]
@[simp] theorem writeComp_net : (writeComp k w0 w1 e).net = e.net := by simp only [writeComp, fireIf_net, setF_net, useEntry_net, putEntry_net]
@[simp] theorem writeComp_ptp : (writeComp k w0 w1 e).ptp = e.ptp := by simp only [writeComp, fireIf_ptp, setF_ptp, useEntry_ptp, putEntry_ptp]
@[simp] theorem writeComp_fab : (writeComp k w0 w1 e).fab = e.fab := by simp only [writeComp, fireIf_fab, setF_fab, useEntry_fab, putEntry_fab]
@[simp] theorem writeComp_pair : (writeComp k w0 w1 e).pair = e.pair := by simp only [writeComp, fireIf_pair, setF_pair, useEntry_pair, putEntry_pair]
@[simp] theorem writeComp_xmem : (writeComp k w0 w1 e).xmem = e.xmem := by simp only [writeComp, fireIf_xmem, setF_xmem, useEntry_xmem, putEntry_xmem]
@[simp] theorem writeComp_host : (writeComp k w0 w1 e).host = e.host := by simp only [writeComp, fireIf_host, setF_host, useEntry_host, putEntry_host]
@[simp] theorem writeComp_sample : (writeComp k w0 w1 e).sample = e.sample := by simp only [writeComp, fireIf_sample, setF_sample, useEntry_sample, putEntry_sample]
@[simp] theorem writeComp_held : (writeComp k w0 w1 e).held = e.held := by simp only [writeComp, fireIf_held, setF_held, useEntry_held, putEntry_held]
@[simp] theorem writeComp_free : (writeComp k w0 w1 e).free = e.free := by simp only [writeComp, fireIf_free, setF_free, useEntry_free, putEntry_free]
end

section
variable (k : Nat) (w0 w1 : Word64) (e : Engine)
@[simp] theorem pushComp_regsNext : (pushComp k w0 w1 e).regsNext = e.regsNext := by unfold pushComp; split <;> simp only [writeComp_regsNext]
@[simp] theorem pushComp_latch : (pushComp k w0 w1 e).latch = e.latch := by unfold pushComp; split <;> simp only [writeComp_latch]
@[simp] theorem pushComp_ecc : (pushComp k w0 w1 e).ecc = e.ecc := by unfold pushComp; split <;> simp only [writeComp_ecc]
@[simp] theorem pushComp_cells : (pushComp k w0 w1 e).cells = e.cells := by unfold pushComp; split <;> simp only [writeComp_cells]
@[simp] theorem pushComp_sched : (pushComp k w0 w1 e).sched = e.sched := by unfold pushComp; split <;> simp only [writeComp_sched]
@[simp] theorem pushComp_health : (pushComp k w0 w1 e).health = e.health := by unfold pushComp; split <;> simp only [writeComp_health]
@[simp] theorem pushComp_mix : (pushComp k w0 w1 e).mix = e.mix := by unfold pushComp; split <;> simp only [writeComp_mix]
@[simp] theorem pushComp_ports : (pushComp k w0 w1 e).ports = e.ports := by unfold pushComp; split <;> simp only [writeComp_ports]
@[simp] theorem pushComp_clk : (pushComp k w0 w1 e).clk = e.clk := by unfold pushComp; split <;> simp only [writeComp_clk]
@[simp] theorem pushComp_net : (pushComp k w0 w1 e).net = e.net := by unfold pushComp; split <;> simp only [writeComp_net]
@[simp] theorem pushComp_ptp : (pushComp k w0 w1 e).ptp = e.ptp := by unfold pushComp; split <;> simp only [writeComp_ptp]
@[simp] theorem pushComp_fab : (pushComp k w0 w1 e).fab = e.fab := by unfold pushComp; split <;> simp only [writeComp_fab]
@[simp] theorem pushComp_pair : (pushComp k w0 w1 e).pair = e.pair := by unfold pushComp; split <;> simp only [writeComp_pair]
@[simp] theorem pushComp_xmem : (pushComp k w0 w1 e).xmem = e.xmem := by unfold pushComp; split <;> simp only [writeComp_xmem]
@[simp] theorem pushComp_host : (pushComp k w0 w1 e).host = e.host := by unfold pushComp; split <;> simp only [writeComp_host]
@[simp] theorem pushComp_sample : (pushComp k w0 w1 e).sample = e.sample := by unfold pushComp; split <;> simp only [writeComp_sample]
@[simp] theorem pushComp_held : (pushComp k w0 w1 e).held = e.held := by unfold pushComp; split <;> simp only [writeComp_held]
@[simp] theorem pushComp_free : (pushComp k w0 w1 e).free = e.free := by unfold pushComp; split <;> simp only [writeComp_free]
end

/-- The registers that the posting of an event may write: the ring's tail and two counters. -/
def eventFlds : List Fld := [.HOST_EV_TAIL_TAIL, .HOST_EV_LOST_LOST, .HOST_PCIE_STAT_OUTRNG]

theorem getF_putEntry {g : Fld} (h : Fld.HOST_PCIE_STAT_OUTRNG ≠ g) (j a n : Nat) (ws : List Word64) (e : Engine) :
    getF g j (putEntry a n ws e) = getF g j e := by
  unfold putEntry
  cases hostAt e a n with
  | some b => exact getF_writeWords ..
  | none => exact getF_setF_of_ne h ..

theorem getF_writeEvent {g : Fld} (h : eventFlds.contains g = false) (j code : Nat) (payload : List Nat) (e : Engine) :
    getF g j (writeEvent code payload e) = getF g j e := by
  have h1 : Fld.HOST_EV_TAIL_TAIL ≠ g := by rintro rfl; exact absurd h (by decide)
  have h2 : Fld.HOST_PCIE_STAT_OUTRNG ≠ g := by rintro rfl; exact absurd h (by decide)
  unfold writeEvent
  simp only [fireIf_getF]
  rw [getF_setF_of_ne h1]
  exact getF_putEntry h2 ..

theorem getF_reportLost {g : Fld} (h : eventFlds.contains g = false) (j : Nat) (e : Engine) : getF g j (reportLost e) = getF g j e := by
  unfold reportLost
  split
  · exact getF_writeEvent h ..
  · rfl

theorem getF_postEvent {g : Fld} (h : eventFlds.contains g = false) (j code : Nat) (payload : List Nat) (e : Engine) :
    getF g j (postEvent code payload e) = getF g j e := by
  have h3 : Fld.HOST_EV_LOST_LOST ≠ g := by rintro rfl; exact absurd h (by decide)
  unfold postEvent
  dsimp only
  split
  · rw [getF_writeEvent h, getF_reportLost h]
  · rw [bumpF, getF_setF_of_ne h3]
    exact getF_reportLost h ..

theorem getF_writeComp {g : Fld} (h : Fld.HOST_PCIE_STAT_OUTRNG ≠ g) (h' : Fld.HOST_CQ_TAIL_TAIL ≠ g) (j k : Nat) (w0 w1 : Word64)
    (e : Engine) : getF g j (writeComp k w0 w1 e) = getF g j e := by
  unfold writeComp
  simp only [fireIf_getF]
  rw [getF_setF_of_ne h']
  exact getF_putEntry h ..

theorem getF_pushComp {g : Fld} (h : Fld.HOST_PCIE_STAT_OUTRNG ≠ g) (h' : Fld.HOST_CQ_TAIL_TAIL ≠ g) (j k : Nat) (w0 w1 : Word64)
    (e : Engine) : getF g j (pushComp k w0 w1 e) = getF g j e := by
  unfold pushComp
  split
  · exact getF_writeComp h h' ..
  · rfl

/-! ### Memory keeps its canonical form -/

theorem Memory.wf_putEntry (a n : Nat) (ws : List Word64) (e : Engine) (h : Memory.wf e.mem = true) :
    Memory.wf (putEntry a n ws e).mem = true := by
  unfold putEntry
  cases hostAt e a n with
  | some b => exact wf_writeWords _ _ _ h
  | none => exact h

theorem Memory.wf_writeEvent (code : Nat) (payload : List Nat) (e : Engine) (h : Memory.wf e.mem = true) :
    Memory.wf (writeEvent code payload e).mem = true := by
  unfold writeEvent
  simp only [fireIf_mem]
  exact wf_putEntry _ _ _ _ h

theorem Memory.wf_reportLost (e : Engine) (h : Memory.wf e.mem = true) : Memory.wf (reportLost e).mem = true := by
  unfold reportLost
  split
  · exact wf_writeEvent _ _ _ h
  · exact h

theorem Memory.wf_postEvent (code : Nat) (payload : List Nat) (e : Engine) (h : Memory.wf e.mem = true) :
    Memory.wf (postEvent code payload e).mem = true := by
  unfold postEvent
  dsimp only
  split
  · exact wf_writeEvent _ _ _ (wf_reportLost _ h)
  · exact wf_reportLost _ h

theorem Memory.wf_writeComp (k : Nat) (w0 w1 : Word64) (e : Engine) (h : Memory.wf e.mem = true) :
    Memory.wf (writeComp k w0 w1 e).mem = true := by
  unfold writeComp
  simp only [fireIf_mem]
  exact wf_putEntry _ _ _ _ h

theorem Memory.wf_pushComp (k : Nat) (w0 w1 : Word64) (e : Engine) (h : Memory.wf e.mem = true) :
    Memory.wf (pushComp k w0 w1 e).mem = true := by
  unfold pushComp
  split
  · exact wf_writeComp _ _ _ _ h
  · exact h

/-! ### Containment records -/

@[simp] theorem showContain_mem (l c i n : Nat) (e : Engine) : (showContain l c i n e).mem = e.mem := rfl

@[simp] theorem showContain_regsNext (l c i n : Nat) (e : Engine) : (showContain l c i n e).regsNext = e.regsNext := rfl
@[simp] theorem contain_regsNext (l c i : Nat) (b : Bool) (e : Engine) : (contain l c i b e).regsNext = e.regsNext := by unfold contain; dsimp only; split <;> simp only [postEvent_regsNext, setF_regsNext, showContain_regsNext]
@[simp] theorem containNow_regsNext (l c i : Nat) (e : Engine) : (containNow l c i e).regsNext = e.regsNext := by unfold containNow; simp only [postEvent_regsNext]
@[simp] theorem showContain_latch (l c i n : Nat) (e : Engine) : (showContain l c i n e).latch = e.latch := rfl
@[simp] theorem contain_latch (l c i : Nat) (b : Bool) (e : Engine) : (contain l c i b e).latch = e.latch := by unfold contain; dsimp only; split <;> simp only [postEvent_latch, setF_latch, showContain_latch]
@[simp] theorem containNow_latch (l c i : Nat) (e : Engine) : (containNow l c i e).latch = e.latch := by unfold containNow; simp only [postEvent_latch]
@[simp] theorem showContain_ecc (l c i n : Nat) (e : Engine) : (showContain l c i n e).ecc = e.ecc := rfl
@[simp] theorem contain_ecc (l c i : Nat) (b : Bool) (e : Engine) : (contain l c i b e).ecc = e.ecc := by unfold contain; dsimp only; split <;> simp only [postEvent_ecc, setF_ecc, showContain_ecc]
@[simp] theorem containNow_ecc (l c i : Nat) (e : Engine) : (containNow l c i e).ecc = e.ecc := by unfold containNow; simp only [postEvent_ecc]
@[simp] theorem showContain_cells (l c i n : Nat) (e : Engine) : (showContain l c i n e).cells = e.cells := rfl
@[simp] theorem contain_cells (l c i : Nat) (b : Bool) (e : Engine) : (contain l c i b e).cells = e.cells := by unfold contain; dsimp only; split <;> simp only [postEvent_cells, setF_cells, showContain_cells]
@[simp] theorem containNow_cells (l c i : Nat) (e : Engine) : (containNow l c i e).cells = e.cells := by unfold containNow; simp only [postEvent_cells]
@[simp] theorem showContain_sched (l c i n : Nat) (e : Engine) : (showContain l c i n e).sched = e.sched := rfl
@[simp] theorem contain_sched (l c i : Nat) (b : Bool) (e : Engine) : (contain l c i b e).sched = e.sched := by unfold contain; dsimp only; split <;> simp only [postEvent_sched, setF_sched, showContain_sched]
@[simp] theorem containNow_sched (l c i : Nat) (e : Engine) : (containNow l c i e).sched = e.sched := by unfold containNow; simp only [postEvent_sched]
@[simp] theorem showContain_health (l c i n : Nat) (e : Engine) : (showContain l c i n e).health = e.health := rfl
@[simp] theorem contain_health (l c i : Nat) (b : Bool) (e : Engine) : (contain l c i b e).health = e.health := by unfold contain; dsimp only; split <;> simp only [postEvent_health, setF_health, showContain_health]
@[simp] theorem showContain_mix (l c i n : Nat) (e : Engine) : (showContain l c i n e).mix = e.mix := rfl
@[simp] theorem contain_mix (l c i : Nat) (b : Bool) (e : Engine) : (contain l c i b e).mix = e.mix := by unfold contain; dsimp only; split <;> simp only [postEvent_mix, setF_mix, showContain_mix]
@[simp] theorem containNow_mix (l c i : Nat) (e : Engine) : (containNow l c i e).mix = e.mix := by unfold containNow; simp only [postEvent_mix]
@[simp] theorem showContain_ports (l c i n : Nat) (e : Engine) : (showContain l c i n e).ports = e.ports := rfl
@[simp] theorem contain_ports (l c i : Nat) (b : Bool) (e : Engine) : (contain l c i b e).ports = e.ports := by unfold contain; dsimp only; split <;> simp only [postEvent_ports, setF_ports, showContain_ports]
@[simp] theorem containNow_ports (l c i : Nat) (e : Engine) : (containNow l c i e).ports = e.ports := by unfold containNow; simp only [postEvent_ports]
@[simp] theorem showContain_clk (l c i n : Nat) (e : Engine) : (showContain l c i n e).clk = e.clk := rfl
@[simp] theorem contain_clk (l c i : Nat) (b : Bool) (e : Engine) : (contain l c i b e).clk = e.clk := by unfold contain; dsimp only; split <;> simp only [postEvent_clk, setF_clk, showContain_clk]
@[simp] theorem containNow_clk (l c i : Nat) (e : Engine) : (containNow l c i e).clk = e.clk := by unfold containNow; simp only [postEvent_clk]
@[simp] theorem showContain_net (l c i n : Nat) (e : Engine) : (showContain l c i n e).net = e.net := rfl
@[simp] theorem contain_net (l c i : Nat) (b : Bool) (e : Engine) : (contain l c i b e).net = e.net := by unfold contain; dsimp only; split <;> simp only [postEvent_net, setF_net, showContain_net]
@[simp] theorem containNow_net (l c i : Nat) (e : Engine) : (containNow l c i e).net = e.net := by unfold containNow; simp only [postEvent_net]
@[simp] theorem showContain_ptp (l c i n : Nat) (e : Engine) : (showContain l c i n e).ptp = e.ptp := rfl
@[simp] theorem contain_ptp (l c i : Nat) (b : Bool) (e : Engine) : (contain l c i b e).ptp = e.ptp := by unfold contain; dsimp only; split <;> simp only [postEvent_ptp, setF_ptp, showContain_ptp]
@[simp] theorem containNow_ptp (l c i : Nat) (e : Engine) : (containNow l c i e).ptp = e.ptp := by unfold containNow; simp only [postEvent_ptp]
@[simp] theorem showContain_fab (l c i n : Nat) (e : Engine) : (showContain l c i n e).fab = e.fab := rfl
@[simp] theorem contain_fab (l c i : Nat) (b : Bool) (e : Engine) : (contain l c i b e).fab = e.fab := by unfold contain; dsimp only; split <;> simp only [postEvent_fab, setF_fab, showContain_fab]
@[simp] theorem containNow_fab (l c i : Nat) (e : Engine) : (containNow l c i e).fab = e.fab := by unfold containNow; simp only [postEvent_fab]
@[simp] theorem showContain_pair (l c i n : Nat) (e : Engine) : (showContain l c i n e).pair = e.pair := rfl
@[simp] theorem contain_pair (l c i : Nat) (b : Bool) (e : Engine) : (contain l c i b e).pair = e.pair := by unfold contain; dsimp only; split <;> simp only [postEvent_pair, setF_pair, showContain_pair]
@[simp] theorem containNow_pair (l c i : Nat) (e : Engine) : (containNow l c i e).pair = e.pair := by unfold containNow; simp only [postEvent_pair]
@[simp] theorem showContain_xmem (l c i n : Nat) (e : Engine) : (showContain l c i n e).xmem = e.xmem := rfl
@[simp] theorem contain_xmem (l c i : Nat) (b : Bool) (e : Engine) : (contain l c i b e).xmem = e.xmem := by unfold contain; dsimp only; split <;> simp only [postEvent_xmem, setF_xmem, showContain_xmem]
@[simp] theorem containNow_xmem (l c i : Nat) (e : Engine) : (containNow l c i e).xmem = e.xmem := by unfold containNow; simp only [postEvent_xmem]
@[simp] theorem showContain_host (l c i n : Nat) (e : Engine) : (showContain l c i n e).host = e.host := rfl
@[simp] theorem contain_host (l c i : Nat) (b : Bool) (e : Engine) : (contain l c i b e).host = e.host := by unfold contain; dsimp only; split <;> simp only [postEvent_host, setF_host, showContain_host]
@[simp] theorem containNow_host (l c i : Nat) (e : Engine) : (containNow l c i e).host = e.host := by unfold containNow; simp only [postEvent_host]
@[simp] theorem showContain_sample (l c i n : Nat) (e : Engine) : (showContain l c i n e).sample = e.sample := rfl
@[simp] theorem contain_sample (l c i : Nat) (b : Bool) (e : Engine) : (contain l c i b e).sample = e.sample := by unfold contain; dsimp only; split <;> simp only [postEvent_sample, setF_sample, showContain_sample]
@[simp] theorem containNow_sample (l c i : Nat) (e : Engine) : (containNow l c i e).sample = e.sample := by unfold containNow; simp only [postEvent_sample]
@[simp] theorem showContain_held (l c i n : Nat) (e : Engine) : (showContain l c i n e).held = e.held := rfl
@[simp] theorem contain_held (l c i : Nat) (b : Bool) (e : Engine) : (contain l c i b e).held = e.held := by unfold contain; dsimp only; split <;> simp only [postEvent_held, setF_held, showContain_held]
@[simp] theorem containNow_held (l c i : Nat) (e : Engine) : (containNow l c i e).held = e.held := by unfold containNow; simp only [postEvent_held]
@[simp] theorem showContain_free (l c i n : Nat) (e : Engine) : (showContain l c i n e).free = e.free := rfl
@[simp] theorem contain_free (l c i : Nat) (b : Bool) (e : Engine) : (contain l c i b e).free = e.free := by unfold contain; dsimp only; split <;> simp only [postEvent_free, setF_free, showContain_free]
@[simp] theorem containNow_free (l c i : Nat) (e : Engine) : (containNow l c i e).free = e.free := by unfold containNow; simp only [postEvent_free]

end Sys2Proof.Machine
end

