-- ==== Sys2Proof/Laws/Run.lean ====
section
/-! SUPPORT. How a command's effect becomes its step: the lemmas that turn a claim about `exec` into one about an effect. -/
namespace Sys2Proof.Machine

set_option Elab.async false

theorem run_of_ok {m : String} {ok : Bool} {eff : Engine → Engine} {s : State} (h : ok = true) :
    run m ok eff s = .next { s with e := eff s.e } := by rw [run, if_pos h]

theorem run_of_not_ok {m : String} {ok : Bool} {eff : Engine → Engine} {s : State} (h : ok = false) :
    run m ok eff s = .refused (.illFormed m) := by rw [run, if_neg (by rw [h]; decide)]

theorem runLive_of_live {m : String} {ok : Bool} {eff : Engine → Engine} {s : State} (h : ok = true) (hl : s.e.held = 0) :
    runLive m ok eff s = .next { s with e := eff s.e } := by rw [runLive, run_of_ok h]; simp only [hl, if_true]

/-- Held in reset, the engine carries nothing out. -/
theorem runLive_of_held {m : String} {ok : Bool} {eff : Engine → Engine} {s : State} (h : ok = true) (hl : s.e.held ≠ 0) :
    runLive m ok eff s = .next s := by rw [runLive, run_of_ok h]; simp only [hl, if_false]

theorem completes_of_run {c : Instr} {s : State} {Q : Engine → Prop} {m : String} {ok : Bool} {eff : Engine → Engine}
    (hx : exec c s = run m ok eff s) (h : ok = true) (hq : Q (eff s.e)) : completes c s Q :=
  ⟨_, hx.trans (run_of_ok h), rfl, hq⟩

theorem completes_of_live {c : Instr} {s : State} {Q : Engine → Prop} {m : String} {ok : Bool} {eff : Engine → Engine}
    (hx : exec c s = runLive m ok eff s) (h : ok = true) (hl : s.e.held = 0) (hq : Q (eff s.e)) : completes c s Q :=
  ⟨_, hx.trans (runLive_of_live h hl), rfl, hq⟩

end Sys2Proof.Machine
end

