-- ==== Sys2Proof/Laws/Exec.lean ====
section
/-! SUPPORT. What `exec` is for each command: its effect, under the check of its operands, and whether the engine carries it out while it
is held in reset. -/
namespace Sys2Proof.Machine

@[simp] theorem exec_frameTick (s : State) :
    exec (.frameTick) s = runLive "FRAME_TICK" Instr.frameTick.wf effFrameTick s := rfl
@[simp] theorem exec_firstDispatch (t : Nat) (s : State) :
    exec (.firstDispatch t) s = runLive "FIRST_DISPATCH" (Instr.firstDispatch t).wf (effFirstDispatch t) s := rfl
@[simp] theorem exec_lateCheck (s : State) :
    exec (.lateCheck) s = runLive "LATE_CHECK" Instr.lateCheck.wf effLateCheck s := rfl
@[simp] theorem exec_itemCompletion (item t : Nat) (out : List (Nat × List Int)) (s : State) :
    exec (.itemCompletion item t out) s = runLive "ITEM_COMPLETION" (Instr.itemCompletion item t out).wf (effItemCompletion item t out) s := rfl
@[simp] theorem exec_dispatch (t : Nat) (s : State) :
    exec (.dispatch t) s = runLive "DISPATCH" (Instr.dispatch t).wf (effDispatch t) s := rfl
@[simp] theorem exec_fedItemStart (cell t : Nat) (s : State) :
    exec (.fedItemStart cell t) s = runLive "FED_ITEM_START" (Instr.fedItemStart cell t).wf (effFedItemStart cell t) s := rfl
@[simp] theorem exec_itemStart (cell t : Nat) (s : State) :
    exec (.itemStart cell t) s = runLive "ITEM_START" (Instr.itemStart cell t).wf (effItemStart cell t) s := rfl
@[simp] theorem exec_bundleIssue (cell t : Nat) (s : State) :
    exec (.bundleIssue cell t) s = runLive "BUNDLE_ISSUE" (Instr.bundleIssue cell t).wf (effBundleIssue cell t) s := rfl
@[simp] theorem exec_resultVisible (cell : Nat) (s : State) :
    exec (.resultVisible cell) s = runLive "RESULT_VISIBLE" (Instr.resultVisible cell).wf (effResultVisible cell) s := rfl
@[simp] theorem exec_storeCommit (cell : Nat) (s : State) :
    exec (.storeCommit cell) s = runLive "STORE_COMMIT" (Instr.storeCommit cell).wf (effStoreCommit cell) s := rfl
@[simp] theorem exec_loopClose (cell : Nat) (s : State) :
    exec (.loopClose cell) s = runLive "LOOP_CLOSE" (Instr.loopClose cell).wf (effLoopClose cell) s := rfl
@[simp] theorem exec_eccDoubleBitInterrupt (cell t : Nat) (s : State) :
    exec (.eccDoubleBitInterrupt cell t) s = runLive "ECC_DOUBLE_BIT_INTERRUPT" (Instr.eccDoubleBitInterrupt cell t).wf (effCause 1 cell t) s := rfl
@[simp] theorem exec_arithmeticTrap (cell t : Nat) (s : State) :
    exec (.arithmeticTrap cell t) s = runLive "ARITHMETIC_TRAP" (Instr.arithmeticTrap cell t).wf (effCause 2 cell t) s := rfl
@[simp] theorem exec_budgetOverrun (cell t : Nat) (s : State) :
    exec (.budgetOverrun cell t) s = runLive "BUDGET_OVERRUN" (Instr.budgetOverrun cell t).wf (effCause 3 cell t) s := rfl
@[simp] theorem exec_debugBreak (cell : Nat) (s : State) :
    exec (.debugBreak cell) s = runLive "DEBUG_BREAK" (Instr.debugBreak cell).wf (effDebugBreak cell) s := rfl
@[simp] theorem exec_hostDebugRequest (cell : Nat) (s : State) :
    exec (.hostDebugRequest cell) s = runLive "HOST_DEBUG_REQUEST" (Instr.hostDebugRequest cell).wf (effHostDebugRequest cell) s := rfl
@[simp] theorem exec_handlerEnd (cell t : Nat) (s : State) :
    exec (.handlerEnd cell t) s = runLive "HANDLER_END" (Instr.handlerEnd cell t).wf (effHandlerEnd cell t) s := rfl
@[simp] theorem exec_retiBankSwitch (cell t : Nat) (s : State) :
    exec (.retiBankSwitch cell t) s = runLive "RETI_BANK_SWITCH" (Instr.retiBankSwitch cell t).wf (effRetiBankSwitch cell t) s := rfl
@[simp] theorem exec_handshakeTimeout (cell t : Nat) (s : State) :
    exec (.handshakeTimeout cell t) s = runLive "HANDSHAKE_TIMEOUT" (Instr.handshakeTimeout cell t).wf (effHandshakeTimeout cell t) s := rfl
@[simp] theorem exec_dmaCellAccess (cell off : Nat) (wr : Bool) (data : List Byte) (len : Nat) (s : State) :
    exec (.dmaCellAccess cell off wr data len) s = runLive "DMA_CELL_ACCESS" (Instr.dmaCellAccess cell off wr data len).wf (effDmaCellAccess cell off wr data len) s := rfl
@[simp] theorem exec_cellScrub (cell off t : Nat) (s : State) :
    exec (.cellScrub cell off t) s = runLive "CELL_SCRUB" (Instr.cellScrub cell off t).wf (effCellScrub cell off t) s := rfl
@[simp] theorem exec_errorWindowRoll (hour : Bool) (s : State) :
    exec (.errorWindowRoll hour) s = run "ERROR_WINDOW_ROLL" (Instr.errorWindowRoll hour).wf (effErrorWindowRoll hour) s := rfl
@[simp] theorem exec_rotatingSelfTest (cell : Nat) (s : State) :
    exec (.rotatingSelfTest cell) s = runLive "ROTATING_SELF_TEST" (Instr.rotatingSelfTest cell).wf (effRotatingSelfTest cell) s := rfl
@[simp] theorem exec_executorStallFence (dma : Bool) (unit t : Nat) (s : State) :
    exec (.executorStallFence dma unit t) s = runLive "EXECUTOR_STALL_FENCE" (Instr.executorStallFence dma unit t).wf (effExecutorStallFence dma unit t) s := rfl
@[simp] theorem exec_executorErrorResponse (item t : Nat) (s : State) :
    exec (.executorErrorResponse item t) s = runLive "EXECUTOR_ERROR_RESPONSE" (Instr.executorErrorResponse item t).wf (effExecutorErrorResponse item t) s := rfl
@[simp] theorem exec_paceMonitorSample (region mon val : Nat) (s : State) :
    exec (.paceMonitorSample region mon val) s = runLive "PACE_MONITOR_SAMPLE" (Instr.paceMonitorSample region mon val).wf (effPaceMonitorSample region mon val) s := rfl
@[simp] theorem exec_avsLoop (s : State) :
    exec (.avsLoop) s = runLive "AVS_LOOP" Instr.avsLoop.wf effAvsLoop s := rfl
@[simp] theorem exec_pmbusWriteComplete (ack : Bool) (s : State) :
    exec (.pmbusWriteComplete ack) s = runLive "PMBUS_WRITE_COMPLETE" (Instr.pmbusWriteComplete ack).wf (effPmbusWriteComplete ack) s := rfl
@[simp] theorem exec_pmbusRetry (s : State) :
    exec (.pmbusRetry) s = runLive "PMBUS_RETRY" Instr.pmbusRetry.wf effPmbusRetry s := rfl
@[simp] theorem exec_paceDecision (s : State) :
    exec (.paceDecision) s = runLive "PACE_DECISION" Instr.paceDecision.wf effPaceDecision s := rfl
@[simp] theorem exec_reinstatement (s : State) :
    exec (.reinstatement) s = runLive "REINSTATEMENT" Instr.reinstatement.wf effReinstatement s := rfl
@[simp] theorem exec_lockstepMismatch (within10s : Bool) (s : State) :
    exec (.lockstepMismatch within10s) s = runLive "LOCKSTEP_MISMATCH" (Instr.lockstepMismatch within10s).wf (effLockstepMismatch within10s) s := rfl
@[simp] theorem exec_supervisorRestartEnd (s : State) :
    exec (.supervisorRestartEnd) s = runLive "SUPERVISOR_RESTART_END" Instr.supervisorRestartEnd.wf effSupervisorRestartEnd s := rfl
@[simp] theorem exec_zeroCrossingCut (sink k : Nat) (s : State) :
    exec (.zeroCrossingCut sink k) s = runLive "ZERO_CROSSING_CUT" (Instr.zeroCrossingCut sink k).wf (effZeroCrossingCut sink k) s := rfl
@[simp] theorem exec_zcTimeout (sink k : Nat) (s : State) :
    exec (.zcTimeout sink k) s = runLive "ZC_TIMEOUT" (Instr.zcTimeout sink k).wf (effZcTimeout sink k) s := rfl
@[simp] theorem exec_fadeEnd (sink k : Nat) (s : State) :
    exec (.fadeEnd sink k) s = runLive "FADE_END" (Instr.fadeEnd sink k).wf (effFadeEnd sink k) s := rfl
@[simp] theorem exec_fallbackReturn (sink : Nat) (s : State) :
    exec (.fallbackReturn sink) s = runLive "FALLBACK_RETURN" (Instr.fallbackReturn sink).wf (effFallbackReturn sink) s := rfl
@[simp] theorem exec_reversion (sink : Nat) (s : State) :
    exec (.reversion sink) s = runLive "REVERSION" (Instr.reversion sink).wf (effReversion sink) s := rfl
@[simp] theorem exec_asrcLock (ch ratio : Nat) (s : State) :
    exec (.asrcLock ch ratio) s = runLive "ASRC_LOCK" (Instr.asrcLock ch ratio).wf (effAsrcLock ch ratio) s := rfl
@[simp] theorem exec_asrcUnlock (ch : Nat) (s : State) :
    exec (.asrcUnlock ch) s = runLive "ASRC_UNLOCK" (Instr.asrcUnlock ch).wf (effAsrcUnlock ch) s := rfl
@[simp] theorem exec_asrcRange (ch ratio : Nat) (s : State) :
    exec (.asrcRange ch ratio) s = runLive "ASRC_RANGE" (Instr.asrcRange ch ratio).wf (effAsrcRange ch ratio) s := rfl
@[simp] theorem exec_gainZeroCrossingStep (gp k : Nat) (s : State) :
    exec (.gainZeroCrossingStep gp k) s = runLive "GAIN_ZERO_CROSSING_STEP" (Instr.gainZeroCrossingStep gp k).wf (effGainZeroCrossingStep gp k) s := rfl
@[simp] theorem exec_gainTimeout (gp k : Nat) (s : State) :
    exec (.gainTimeout gp k) s = runLive "GAIN_TIMEOUT" (Instr.gainTimeout gp k).wf (effGainTimeout gp k) s := rfl
@[simp] theorem exec_rampEnd (gp k : Nat) (s : State) :
    exec (.rampEnd gp k) s = runLive "RAMP_END" (Instr.rampEnd gp k).wf (effRampEnd gp k) s := rfl
@[simp] theorem exec_meterBlockWrite (s : State) :
    exec (.meterBlockWrite) s = runLive "METER_BLOCK_WRITE" Instr.meterBlockWrite.wf effMeterBlockWrite s := rfl
@[simp] theorem exec_loudnessStep (ms : List Nat) (s : State) :
    exec (.loudnessStep ms) s = runLive "LOUDNESS_STEP" (Instr.loudnessStep ms).wf (effLoudnessStep ms) s := rfl
@[simp] theorem exec_automixUpdate (gs : List Nat) (s : State) :
    exec (.automixUpdate gs) s = runLive "AUTOMIX_UPDATE" (Instr.automixUpdate gs).wf (effAutomixUpdate gs) s := rfl
@[simp] theorem exec_duckHoldExpiry (rule : Nat) (s : State) :
    exec (.duckHoldExpiry rule) s = runLive "DUCK_HOLD_EXPIRY" (Instr.duckHoldExpiry rule).wf (effDuckHoldExpiry rule) s := rfl
@[simp] theorem exec_programFetch (s : State) :
    exec (.programFetch) s = runLive "PROGRAM_FETCH" Instr.programFetch.wf effProgramFetch s := rfl
@[simp] theorem exec_eventsLostPost (s : State) :
    exec (.eventsLostPost) s = runLive "EVENTS_LOST_POST" Instr.eventsLostPost.wf effEventsLostPost s := rfl
@[simp] theorem exec_nop (d : Dir) (s : State) :
    exec (.nop d) s = runLive "NOP" (Instr.nop d).wf (effNop d) s := rfl
@[simp] theorem exec_fence (d : Dir) (s : State) :
    exec (.fence d) s = runLive "FENCE" (Instr.fence d).wf (effFence d) s := rfl
@[simp] theorem exec_fenceComplete (ring : Nat) (s : State) :
    exec (.fenceComplete ring) s = runLive "FENCE_COMPLETE" (Instr.fenceComplete ring).wf (effFenceComplete ring) s := rfl
@[simp] theorem exec_query (d : Dir) (s : State) :
    exec (.query d) s = runLive "QUERY" (Instr.query d).wf (effQuery d) s := rfl
@[simp] theorem exec_resetFn (d : Dir) (s : State) :
    exec (.resetFn d) s = runLive "RESET_FN" (Instr.resetFn d).wf (effResetFn d) s := rfl
@[simp] theorem exec_resetFnComplete (fn idx : Nat) (ok : Bool) (s : State) :
    exec (.resetFnComplete fn idx ok) s = runLive "RESET_FN_COMPLETE" (Instr.resetFnComplete fn idx ok).wf (effResetFnComplete fn idx ok) s := rfl
@[simp] theorem exec_txnOpen (d : Dir) (s : State) :
    exec (.txnOpen d) s = runLive "TXN_OPEN" (Instr.txnOpen d).wf (effTxnOpen d) s := rfl
@[simp] theorem exec_staging (op : Nat) (d : Dir) (s : State) :
    exec (.staging op d) s = runLive "STAGING" (Instr.staging op d).wf (effStaging op d) s := rfl
@[simp] theorem exec_txnCommit (d : Dir) (s : State) :
    exec (.txnCommit d) s = runLive "TXN_COMMIT" (Instr.txnCommit d).wf (effTxnCommit d) s := rfl
@[simp] theorem exec_txnAcknowledge (ring : Nat) (s : State) :
    exec (.txnAcknowledge ring) s = runLive "TXN_ACKNOWLEDGE" (Instr.txnAcknowledge ring).wf (effTxnAcknowledge ring) s := rfl
@[simp] theorem exec_txnAbort (d : Dir) (s : State) :
    exec (.txnAbort d) s = runLive "TXN_ABORT" (Instr.txnAbort d).wf (effTxnAbort d) s := rfl
@[simp] theorem exec_transactionIdleAbandon (ring : Nat) (s : State) :
    exec (.transactionIdleAbandon ring) s = runLive "TRANSACTION_IDLE_ABANDON" (Instr.transactionIdleAbandon ring).wf (effTransactionIdleAbandon ring) s := rfl
@[simp] theorem exec_loadProg (d : Dir) (s : State) :
    exec (.loadProg d) s = runLive "LOAD_PROG" (Instr.loadProg d).wf (effLoadProg d) s := rfl
@[simp] theorem exec_defItem (d : Dir) (s : State) :
    exec (.defItem d) s = runLive "DEF_ITEM" (Instr.defItem d).wf (effDefItem d) s := rfl
@[simp] theorem exec_link (d : Dir) (s : State) :
    exec (.link d) s = runLive "LINK" (Instr.link d).wf (effLink d) s := rfl
@[simp] theorem exec_admitGraph (d : Dir) (s : State) :
    exec (.admitGraph d) s = runLive "ADMIT" (Instr.admitGraph d).wf (effAdmitGraph d) s := rfl
@[simp] theorem exec_admissionResult (ring : Nat) (s : State) :
    exec (.admissionResult ring) s = runLive "ADMISSION_RESULT" (Instr.admissionResult ring).wf (effAdmissionResult ring) s := rfl
@[simp] theorem exec_route (d : Dir) (s : State) :
    exec (.route d) s = runLive "ROUTE" (Instr.route d).wf (effRoute d) s := rfl
@[simp] theorem exec_fallback (d : Dir) (s : State) :
    exec (.fallback d) s = runLive "FALLBACK" (Instr.fallback d).wf (effFallback d) s := rfl
@[simp] theorem exec_align (d : Dir) (s : State) :
    exec (.align d) s = runLive "ALIGN" (Instr.align d).wf (effAlign d) s := rfl
@[simp] theorem exec_setGain (d : Dir) (s : State) :
    exec (.setGain d) s = runLive "SET_GAIN" (Instr.setGain d).wf (effSetGain d) s := rfl
@[simp] theorem exec_setGainDb (d : Dir) (s : State) :
    exec (.setGainDb d) s = runLive "SET_GAIN_DB" (Instr.setGainDb d).wf (effSetGainDb d) s := rfl
@[simp] theorem exec_setSend (d : Dir) (s : State) :
    exec (.setSend d) s = runLive "SET_SEND" (Instr.setSend d).wf (effSetSend d) s := rfl
@[simp] theorem exec_writeParam (d : Dir) (s : State) :
    exec (.writeParam d) s = runLive "WRITE_PARAM" (Instr.writeParam d).wf (effWriteParam d) s := rfl
@[simp] theorem exec_parameterMirrorEnd (region : Nat) (s : State) :
    exec (.parameterMirrorEnd region) s = runLive "PARAMETER_MIRROR_END" (Instr.parameterMirrorEnd region).wf (effParameterMirrorEnd region) s := rfl
@[simp] theorem exec_portCfg (d : Dir) (s : State) :
    exec (.portCfg d) s = runLive "PORT_CFG" (Instr.portCfg d).wf (effPortCfg d) s := rfl
@[simp] theorem exec_groupStart (d : Dir) (s : State) :
    exec (.groupStart d) s = runLive "GROUP_START" (Instr.groupStart d).wf (effGroupStart d) s := rfl
@[simp] theorem exec_groupStop (d : Dir) (s : State) :
    exec (.groupStop d) s = runLive "GROUP_STOP" (Instr.groupStop d).wf (effGroupStop d) s := rfl
@[simp] theorem exec_refCfg (d : Dir) (s : State) :
    exec (.refCfg d) s = runLive "REF_CFG" (Instr.refCfg d).wf (effRefCfg d) s := rfl
@[simp] theorem exec_refPrio (d : Dir) (s : State) :
    exec (.refPrio d) s = runLive "REF_PRIO" (Instr.refPrio d).wf (effRefPrio d) s := rfl
@[simp] theorem exec_streamTx (d : Dir) (s : State) :
    exec (.streamTx d) s = runLive "STREAM_TX" (Instr.streamTx d).wf (effStreamTx d) s := rfl
@[simp] theorem exec_streamRx (d : Dir) (s : State) :
    exec (.streamRx d) s = runLive "STREAM_RX" (Instr.streamRx d).wf (effStreamRx d) s := rfl
@[simp] theorem exec_ptpCfgInstance (d : Dir) (s : State) :
    exec (.ptpCfgInstance d) s = runLive "PTP_CFG_INSTANCE" (Instr.ptpCfgInstance d).wf (effPtpCfgInstance d) s := rfl
@[simp] theorem exec_ptpCfgTime (d : Dir) (s : State) :
    exec (.ptpCfgTime d) s = runLive "PTP_CFG_TIME" (Instr.ptpCfgTime d).wf (effPtpCfgTime d) s := rfl
@[simp] theorem exec_ptpCfgServo (d : Dir) (s : State) :
    exec (.ptpCfgServo d) s = runLive "PTP_CFG_SERVO" (Instr.ptpCfgServo d).wf (effPtpCfgServo d) s := rfl
@[simp] theorem exec_ptpCfgRemap (d : Dir) (s : State) :
    exec (.ptpCfgRemap d) s = runLive "PTP_CFG_REMAP" (Instr.ptpCfgRemap d).wf (effPtpCfgRemap d) s := rfl
@[simp] theorem exec_ptpCfgLatency (d : Dir) (s : State) :
    exec (.ptpCfgLatency d) s = runLive "PTP_CFG_LATENCY" (Instr.ptpCfgLatency d).wf (effPtpCfgLatency d) s := rfl
@[simp] theorem exec_ptpCfgPulse (d : Dir) (s : State) :
    exec (.ptpCfgPulse d) s = runLive "PTP_CFG_PULSE" (Instr.ptpCfgPulse d).wf (effPtpCfgPulse d) s := rfl
@[simp] theorem exec_fabCfgNode (d : Dir) (s : State) :
    exec (.fabCfgNode d) s = runLive "FAB_CFG_NODE" (Instr.fabCfgNode d).wf (effFabCfgNode d) s := rfl
@[simp] theorem exec_fabCfgLink (d : Dir) (s : State) :
    exec (.fabCfgLink d) s = runLive "FAB_CFG_LINK" (Instr.fabCfgLink d).wf (effFabCfgLink d) s := rfl
@[simp] theorem exec_fabCfgExclude (d : Dir) (s : State) :
    exec (.fabCfgExclude d) s = runLive "FAB_CFG_EXCLUDE" (Instr.fabCfgExclude d).wf (effFabCfgExclude d) s := rfl
@[simp] theorem exec_fabCfgReadmit (d : Dir) (s : State) :
    exec (.fabCfgReadmit d) s = runLive "FAB_CFG_READMIT" (Instr.fabCfgReadmit d).wf (effFabCfgReadmit d) s := rfl
@[simp] theorem exec_fabSlot (d : Dir) (s : State) :
    exec (.fabSlot d) s = runLive "FAB_SLOT" (Instr.fabSlot d).wf (effFabSlot d) s := rfl
@[simp] theorem exec_pairCfgPair (d : Dir) (s : State) :
    exec (.pairCfgPair d) s = runLive "PAIR_CFG_PAIR" (Instr.pairCfgPair d).wf (effPairCfgPair d) s := rfl
@[simp] theorem exec_pairCfgOutputGroup (d : Dir) (s : State) :
    exec (.pairCfgOutputGroup d) s = runLive "PAIR_CFG_OUTPUT_GROUP" (Instr.pairCfgOutputGroup d).wf (effPairCfgOutputGroup d) s := rfl
@[simp] theorem exec_pairSyncResync (d : Dir) (s : State) :
    exec (.pairSyncResync d) s = runLive "PAIR_SYNC_RESYNC" (Instr.pairSyncResync d).wf (effPairSyncResync d) s := rfl
@[simp] theorem exec_pairSyncHandover (d : Dir) (s : State) :
    exec (.pairSyncHandover d) s = runLive "PAIR_SYNC_HANDOVER" (Instr.pairSyncHandover d).wf (effPairSyncHandover d) s := rfl
@[simp] theorem exec_sceneStore (d : Dir) (s : State) :
    exec (.sceneStore d) s = runLive "SCENE_STORE" (Instr.sceneStore d).wf (effSceneStore d) s := rfl
@[simp] theorem exec_sceneRecall (d : Dir) (s : State) :
    exec (.sceneRecall d) s = runLive "SCENE_RECALL" (Instr.sceneRecall d).wf (effSceneRecall d) s := rfl
@[simp] theorem exec_sceneDelete (d : Dir) (s : State) :
    exec (.sceneDelete d) s = runLive "SCENE_DELETE" (Instr.sceneDelete d).wf (effSceneDelete d) s := rfl
@[simp] theorem exec_meterCfg (d : Dir) (s : State) :
    exec (.meterCfg d) s = runLive "METER_CFG" (Instr.meterCfg d).wf (effMeterCfg d) s := rfl
@[simp] theorem exec_loudCfg (d : Dir) (s : State) :
    exec (.loudCfg d) s = runLive "LOUD_CFG" (Instr.loudCfg d).wf (effLoudCfg d) s := rfl
@[simp] theorem exec_automixCfg (d : Dir) (s : State) :
    exec (.automixCfg d) s = runLive "AUTOMIX_CFG" (Instr.automixCfg d).wf (effAutomixCfg d) s := rfl
@[simp] theorem exec_minusCfg (d : Dir) (s : State) :
    exec (.minusCfg d) s = runLive "MINUS_CFG" (Instr.minusCfg d).wf (effMinusCfg d) s := rfl
@[simp] theorem exec_genCfg (d : Dir) (s : State) :
    exec (.genCfg d) s = runLive "GEN_CFG" (Instr.genCfg d).wf (effGenCfg d) s := rfl
@[simp] theorem exec_replicationLate (s : State) :
    exec (.replicationLate) s = runLive "REPLICATION_LATE" Instr.replicationLate.wf effReplicationLate s := rfl
@[simp] theorem exec_prepare (id p src : Nat) (s : State) :
    exec (.prepare id p src) s = runLive "PREPARE" (Instr.prepare id p src).wf (effPrepare id p src) s := rfl
@[simp] theorem exec_prepared (id node status : Nat) (s : State) :
    exec (.prepared id node status) s = runLive "PREPARED" (Instr.prepared id node status).wf (effPrepared id node status) s := rfl
@[simp] theorem exec_fabricPrepareDeadline (id unreachable : Nat) (s : State) :
    exec (.fabricPrepareDeadline id unreachable) s = runLive "FABRIC_PREPARE_DEADLINE" (Instr.fabricPrepareDeadline id unreachable).wf (effFabricPrepareDeadline id unreachable) s := rfl
@[simp] theorem exec_allPrepared (id : Nat) (s : State) :
    exec (.allPrepared id) s = runLive "ALL_PREPARED" (Instr.allPrepared id).wf (effAllPrepared id) s := rfl
@[simp] theorem exec_abort (id : Nat) (s : State) :
    exec (.abort id) s = runLive "ABORT" (Instr.abort id).wf (effAbort id) s := rfl
@[simp] theorem exec_inDoubtEntry (id : Nat) (s : State) :
    exec (.inDoubtEntry id) s = runLive "IN_DOUBT_ENTRY" (Instr.inDoubtEntry id).wf (effInDoubtEntry id) s := rfl
@[simp] theorem exec_inDoubtTimeout (id : Nat) (applied : Bool) (s : State) :
    exec (.inDoubtTimeout id applied) s = runLive "IN_DOUBT_TIMEOUT" (Instr.inDoubtTimeout id applied).wf (effInDoubtTimeout id applied) s := rfl
@[simp] theorem exec_lateApplyReport (id node k : Nat) (s : State) :
    exec (.lateApplyReport id node k) s = runLive "LATE_APPLY_REPORT" (Instr.lateApplyReport id node k).wf (effLateApplyReport id node k) s := rfl
@[simp] theorem exec_portWordCapture (port ch word : Nat) (theta : Int) (t : Nat) (s : State) :
    exec (.portWordCapture port ch word theta t) s = runLive "PORT_WORD_CAPTURE" (Instr.portWordCapture port ch word theta t).wf (effPortWordCapture port ch word theta t) s := rfl
@[simp] theorem exec_qualification (port : Nat) (ofs : Int) (s : State) :
    exec (.qualification port ofs) s = runLive "QUALIFICATION" (Instr.qualification port ofs).wf (effQualification port ofs) s := rfl
@[simp] theorem exec_clockStopDetect (port : Nat) (s : State) :
    exec (.clockStopDetect port) s = runLive "CLOCK_STOP_DETECT" (Instr.clockStopDetect port).wf (effClockStopDetect port) s := rfl
@[simp] theorem exec_glitch (port : Nat) (s : State) :
    exec (.glitch port) s = runLive "GLITCH" (Instr.glitch port).wf (effGlitch port) s := rfl
@[simp] theorem exec_rateMismatch (port : Nat) (ofs : Int) (s : State) :
    exec (.rateMismatch port ofs) s = runLive "RATE_MISMATCH" (Instr.rateMismatch port ofs).wf (effRateMismatch port ofs) s := rfl
@[simp] theorem exec_elasticOverrun (port : Nat) (ahead : Bool) (s : State) :
    exec (.elasticOverrun port ahead) s = runLive "ELASTIC_OVERRUN" (Instr.elasticOverrun port ahead).wf (effElasticOverrun port ahead) s := rfl
@[simp] theorem exec_aes3Subframe (n sub word : Nat) (parityErr v : Bool) (theta : Int) (t : Nat) (s : State) :
    exec (.aes3Subframe n sub word parityErr v theta t) s = runLive "AES3_SUBFRAME" (Instr.aes3Subframe n sub word parityErr v theta t).wf (effAes3Subframe n sub word parityErr v theta t) s := rfl
@[simp] theorem exec_channelStatusBlock (n sub : Nat) (bytes : List Byte) (crcOk : Bool) (s : State) :
    exec (.channelStatusBlock n sub bytes crcOk) s = runLive "CHANNEL_STATUS_BLOCK" (Instr.channelStatusBlock n sub bytes crcOk).wf (effChannelStatusBlock n sub bytes crcOk) s := rfl
@[simp] theorem exec_startSyncEdge (rising later : Bool) (s : State) :
    exec (.startSyncEdge rising later) s = runLive "START_SYNC_EDGE" (Instr.startSyncEdge rising later).wf (effStartSyncEdge rising later) s := rfl
@[simp] theorem exec_selectionRun (s : State) :
    exec (.selectionRun) s = runLive "SELECTION_RUN" Instr.selectionRun.wf effSelectionRun s := rfl
@[simp] theorem exec_lossOfSignal (slot : Nat) (s : State) :
    exec (.lossOfSignal slot) s = runLive "LOSS_OF_SIGNAL" (Instr.lossOfSignal slot).wf (effLossOfSignal slot) s := rfl
@[simp] theorem exec_frequencyMeasurement (slot : Nat) (ofs : Int) (s : State) :
    exec (.frequencyMeasurement slot ofs) s = runLive "FREQUENCY_MEASUREMENT" (Instr.frequencyMeasurement slot ofs).wf (effFrequencyMeasurement slot ofs) s := rfl
@[simp] theorem exec_softAlarmClear (slot : Nat) (s : State) :
    exec (.softAlarmClear slot) s = runLive "SOFT_ALARM_CLEAR" (Instr.softAlarmClear slot).wf (effSoftAlarmClear slot) s := rfl
@[simp] theorem exec_wtrExpiry (slot : Nat) (s : State) :
    exec (.wtrExpiry slot) s = runLive "WTR_EXPIRY" (Instr.wtrExpiry slot).wf (effWtrExpiry slot) s := rfl
@[simp] theorem exec_holdPhaseEnd (s : State) :
    exec (.holdPhaseEnd) s = runLive "HOLD_PHASE_END" Instr.holdPhaseEnd.wf effHoldPhaseEnd s := rfl
@[simp] theorem exec_acqEnd (phi : Int) (s : State) :
    exec (.acqEnd phi) s = runLive "ACQ_END" (Instr.acqEnd phi).wf (effAcqEnd phi) s := rfl
@[simp] theorem exec_acqTimeout (s : State) :
    exec (.acqTimeout) s = runLive "ACQ_TIMEOUT" Instr.acqTimeout.wf effAcqTimeout s := rfl
@[simp] theorem exec_alignEnd (s : State) :
    exec (.alignEnd) s = runLive "ALIGN_END" Instr.alignEnd.wf effAlignEnd s := rfl
@[simp] theorem exec_dwellEnd (s : State) :
    exec (.dwellEnd) s = runLive "DWELL_END" Instr.dwellEnd.wf effDwellEnd s := rfl
@[simp] theorem exec_holdoverHistoryRecord (freq : Int) (s : State) :
    exec (.holdoverHistoryRecord freq) s = runLive "HOLDOVER_HISTORY_RECORD" (Instr.holdoverHistoryRecord freq).wf (effHoldoverHistoryRecord freq) s := rfl
@[simp] theorem exec_ethFrameReceive (port : Nat) (frame : List Byte) (cor unc t : Nat) (s : State) :
    exec (.ethFrameReceive port frame cor unc t) s = runLive "ETH_FRAME_RECEIVE" (Instr.ethFrameReceive port frame cor unc t).wf (effEthFrameReceive port frame cor unc t) s := rfl
@[simp] theorem exec_streamLoss (s : Nat) (st : State) :
    exec (.streamLoss s) st = runLive "STREAM_LOSS" (Instr.streamLoss s).wf (effStreamLoss s) st := rfl
@[simp] theorem exec_streamRecovery (s : Nat) (st : State) :
    exec (.streamRecovery s) st = runLive "STREAM_RECOVERY" (Instr.streamRecovery s).wf (effStreamRecovery s) st := rfl
@[simp] theorem exec_pathLoss (s path : Nat) (lost : Bool) (st : State) :
    exec (.pathLoss s path lost) st = runLive "PATH_LOSS" (Instr.pathLoss s path lost).wf (effPathLoss s path lost) st := rfl
@[simp] theorem exec_mediaPacketLaunch (w : StreamPath) (st : State) :
    exec (.mediaPacketLaunch w) st = runLive "MEDIA_PACKET_LAUNCH" (Instr.mediaPacketLaunch w).wf (effMediaPacketLaunch w.stream w.path) st := rfl
@[simp] theorem exec_hostTransmitEntry (port t : Nat) (s : State) :
    exec (.hostTransmitEntry port t) s = runLive "HOST_TRANSMIT_ENTRY" (Instr.hostTransmitEntry port t).wf (effHostTransmitEntry port t) s := rfl
@[simp] theorem exec_syncReceived (inst : Nat) (ofs : Int) (locked : Bool) (s : State) :
    exec (.syncReceived inst ofs locked) s = runLive "SYNC_RECEIVED" (Instr.syncReceived inst ofs locked).wf (effSyncReceived inst ofs locked) s := rfl
@[simp] theorem exec_timeStep (t : Nat) (s : State) :
    exec (.timeStep t) s = runLive "TIME_STEP" (Instr.timeStep t).wf (effTimeStep t) s := rfl
@[simp] theorem exec_receiveGraceEnd (s : State) :
    exec (.receiveGraceEnd) s = runLive "RECEIVE_GRACE_END" Instr.receiveGraceEnd.wf effReceiveGraceEnd s := rfl
@[simp] theorem exec_announceReceived (inst : Nat) (a : Announce) (s : State) :
    exec (.announceReceived inst a) s = runLive "ANNOUNCE_RECEIVED" (Instr.announceReceived inst a).wf (effAnnounceReceived inst a) s := rfl
@[simp] theorem exec_delayReqReceived (inst : Nat) (peer : Bool) (seq id t : Nat) (s : State) :
    exec (.delayReqReceived inst peer seq id t) s = runLive "DELAY_REQ_RECEIVED" (Instr.delayReqReceived inst peer seq id t).wf (effDelayReqReceived inst peer seq id t) s := rfl
@[simp] theorem exec_ptpMessageTransmit (inst kind t : Nat) (s : State) :
    exec (.ptpMessageTransmit inst kind t) s = runLive "PTP_MESSAGE_TRANSMIT" (Instr.ptpMessageTransmit inst kind t).wf (effPtpMessageTransmit inst kind t) s := rfl
@[simp] theorem exec_captureEdge (n t : Nat) (s : State) :
    exec (.captureEdge n t) s = runLive "CAPTURE_EDGE" (Instr.captureEdge n t).wf (effCaptureEdge n t) s := rfl
@[simp] theorem exec_pulseFire (n t : Nat) (s : State) :
    exec (.pulseFire n t) s = runLive "PULSE_FIRE" (Instr.pulseFire n t).wf (effPulseFire n t) s := rfl
@[simp] theorem exec_blockLock (link : Nat) (s : State) :
    exec (.blockLock link) s = runLive "BLOCK_LOCK" (Instr.blockLock link).wf (effBlockLock link) s := rfl
@[simp] theorem exec_helloReceived (link : Nat) (h : Hello) (s : State) :
    exec (.helloReceived link h) s = runLive "HELLO_RECEIVED" (Instr.helloReceived link h).wf (effHelloReceived link h) s := rfl
@[simp] theorem exec_linkRetrain (link : Nat) (s : State) :
    exec (.linkRetrain link) s = runLive "LINK_RETRAIN" (Instr.linkRetrain link).wf (effLinkRetrain link) s := rfl
@[simp] theorem exec_syncBlockSet (link : Nat) (y : SyncSet) (s : State) :
    exec (.syncBlockSet link y) s = runLive "SYNC_BLOCK_SET" (Instr.syncBlockSet link y).wf (effSyncBlockSet link y) s := rfl
@[simp] theorem exec_syncMissing (link : Nat) (s : State) :
    exec (.syncMissing link) s = runLive "SYNC_MISSING" (Instr.syncMissing link).wf (effSyncMissing link) s := rfl
@[simp] theorem exec_isochronousBlock (link : Nat) (b : IsoBlock) (s : State) :
    exec (.isochronousBlock link b) s = runLive "ISOCHRONOUS_BLOCK" (Instr.isochronousBlock link b).wf (effIsochronousBlock link b) s := rfl
@[simp] theorem exec_reliableMessage (link : Nat) (m : RelMsg) (s : State) :
    exec (.reliableMessage link m) s = runLive "RELIABLE_MESSAGE" (Instr.reliableMessage link m).wf (effReliableMessage link m) s := rfl
@[simp] theorem exec_reliableAck (link origin dest seq : Nat) (s : State) :
    exec (.reliableAck link origin dest seq) s = runLive "RELIABLE_ACK" (Instr.reliableAck link origin dest seq).wf (effReliableAck link origin dest seq) s := rfl
@[simp] theorem exec_reliableRetry (link origin dest seq : Nat) (s : State) :
    exec (.reliableRetry link origin dest seq) s = runLive "RELIABLE_RETRY" (Instr.reliableRetry link origin dest seq).wf (effReliableRetry link origin dest seq) s := rfl
@[simp] theorem exec_linkFailure (link cause : Nat) (s : State) :
    exec (.linkFailure link cause) s = runLive "LINK_FAILURE" (Instr.linkFailure link cause).wf (effLinkFailure link cause) s := rfl
@[simp] theorem exec_failureNotice (node link : Nat) (txs rxs : List Nat) (s : State) :
    exec (.failureNotice node link txs rxs) s = runLive "FAILURE_NOTICE" (Instr.failureNotice node link txs rxs).wf (effFailureNotice node link txs rxs) s := rfl
@[simp] theorem exec_rootElection (nodes : List NodeInfo) (s : State) :
    exec (.rootElection nodes) s = runLive "ROOT_ELECTION" (Instr.rootElection nodes).wf (effRootElection nodes) s := rfl
@[simp] theorem exec_routeTableInstall (gen : Nat) (routes : List RouteRow) (s : State) :
    exec (.routeTableInstall gen routes) s = runLive "ROUTE_TABLE_INSTALL" (Instr.routeTableInstall gen routes).wf (effRouteTableInstall gen routes) s := rfl
@[simp] theorem exec_rerouteAttempt (ch : Nat) (rx ok : Bool) (s : State) :
    exec (.rerouteAttempt ch rx ok) s = runLive "REROUTE_ATTEMPT" (Instr.rerouteAttempt ch rx ok).wf (effRerouteAttempt ch rx ok) s := rfl
@[simp] theorem exec_nodeExclusion (node : Nat) (s : State) :
    exec (.nodeExclusion node) s = runLive "NODE_EXCLUSION" (Instr.nodeExclusion node).wf (effNodeExclusion node) s := rfl
@[simp] theorem exec_rootLossElection (s : State) :
    exec (.rootLossElection) s = runLive "ROOT_LOSS_ELECTION" Instr.rootLossElection.wf effRootLossElection s := rfl
@[simp] theorem exec_fabricLockChange (lock : Bool) (ofs : Int) (s : State) :
    exec (.fabricLockChange lock ofs) s = runLive "FABRIC_LOCK_CHANGE" (Instr.fabricLockChange lock ofs).wf (effFabricLockChange lock ofs) s := rfl
@[simp] theorem exec_roleDecision (s : State) :
    exec (.roleDecision) s = runLive "ROLE_DECISION" Instr.roleDecision.wf effRoleDecision s := rfl
@[simp] theorem exec_lineTestPulse (high : Bool) (s : State) :
    exec (.lineTestPulse high) s = runLive "LINE_TEST_PULSE" (Instr.lineTestPulse high).wf (effLineTestPulse high) s := rfl
@[simp] theorem exec_eclipseSample (high : Bool) (s : State) :
    exec (.eclipseSample high) s = runLive "ECLIPSE_SAMPLE" (Instr.eclipseSample high).wf (effEclipseSample high) s := rfl
@[simp] theorem exec_tideEdge (s : State) :
    exec (.tideEdge) s = runLive "TIDE_EDGE" Instr.tideEdge.wf effTideEdge s := rfl
@[simp] theorem exec_tideLost (s : State) :
    exec (.tideLost) s = runLive "TIDE_LOST" Instr.tideLost.wf effTideLost s := rfl
@[simp] theorem exec_heartbeatBlock (h : Heartbeat) (s : State) :
    exec (.heartbeatBlock h) s = runLive "HEARTBEAT_BLOCK" (Instr.heartbeatBlock h).wf (effHeartbeatBlock h) s := rfl
@[simp] theorem exec_heartbeatLost (s : State) :
    exec (.heartbeatLost) s = runLive "HEARTBEAT_LOST" Instr.heartbeatLost.wf effHeartbeatLost s := rfl
@[simp] theorem exec_inSync (g : Nat) (s : State) :
    exec (.inSync g) s = runLive "IN_SYNC" (Instr.inSync g).wf (effInSync g) s := rfl
@[simp] theorem exec_convergenceTimeout (g : Nat) (s : State) :
    exec (.convergenceTimeout g) s = runLive "CONVERGENCE_TIMEOUT" (Instr.convergenceTimeout g).wf (effConvergenceTimeout g) s := rfl
@[simp] theorem exec_deadManRelease (cause : Nat) (s : State) :
    exec (.deadManRelease cause) s = runLive "DEAD_MAN_RELEASE" (Instr.deadManRelease cause).wf (effDeadManRelease cause) s := rfl
@[simp] theorem exec_releasedMute (s : State) :
    exec (.releasedMute) s = runLive "RELEASED_MUTE" Instr.releasedMute.wf effReleasedMute s := rfl
@[simp] theorem exec_takeover (s : State) :
    exec (.takeover) s = runLive "TAKEOVER" Instr.takeover.wf effTakeover s := rfl
@[simp] theorem exec_handover (s : State) :
    exec (.handover) s = runLive "HANDOVER" Instr.handover.wf effHandover s := rfl
@[simp] theorem exec_autoDisarm (rearm : Bool) (s : State) :
    exec (.autoDisarm rearm) s = runLive "AUTO_DISARM" (Instr.autoDisarm rearm).wf (effAutoDisarm rearm) s := rfl
@[simp] theorem exec_epochComplete (parts : List EpochPart) (held : List (Nat × Int)) (s : State) :
    exec (.epochComplete parts held) s = runLive "EPOCH_COMPLETE" (Instr.epochComplete parts held).wf (effEpochComplete parts held) s := rfl
@[simp] theorem exec_epochAbandon (s : State) :
    exec (.epochAbandon) s = runLive "EPOCH_ABANDON" Instr.epochAbandon.wf effEpochAbandon s := rfl
@[simp] theorem exec_warmGraphStart (s : State) :
    exec (.warmGraphStart) s = runLive "WARM_GRAPH_START" Instr.warmGraphStart.wf effWarmGraphStart s := rfl
@[simp] theorem exec_xbarGrant (t : Nat) (wants : List XWant) (s : State) :
    exec (.xbarGrant t wants) s = runLive "XBAR_GRANT" (Instr.xbarGrant t wants).wf (effXbarGrant t wants) s := rfl
@[simp] theorem exec_xbarResponse (t : Nat) (s : State) :
    exec (.xbarResponse t) s = runLive "XBAR_RESPONSE" (Instr.xbarResponse t).wf (effXbarResponse t) s := rfl
@[simp] theorem exec_xbarTimeout (t : Nat) (s : State) :
    exec (.xbarTimeout t) s = runLive "XBAR_TIMEOUT" (Instr.xbarTimeout t).wf (effXbarTimeout t) s := rfl
@[simp] theorem exec_requestParityError (m addr : Nat) (s : State) :
    exec (.requestParityError m addr) s = runLive "REQUEST_PARITY_ERROR" (Instr.requestParityError m addr).wf (effRequestParityError m addr) s := rfl
@[simp] theorem exec_regionScrub (addr : Nat) (s : State) :
    exec (.regionScrub addr) s = runLive "REGION_SCRUB" (Instr.regionScrub addr).wf (effRegionScrub addr) s := rfl
@[simp] theorem exec_ddrQueueEntry (s : State) :
    exec (.ddrQueueEntry) s = runLive "DDR_QUEUE_ENTRY" Instr.ddrQueueEntry.wf effDdrQueueEntry s := rfl
@[simp] theorem exec_ddrEntryComplete (s : State) :
    exec (.ddrEntryComplete) s = runLive "DDR_ENTRY_COMPLETE" Instr.ddrEntryComplete.wf effDdrEntryComplete s := rfl
@[simp] theorem exec_trefiTick (s : State) :
    exec (.trefiTick) s = runLive "TREFI_TICK" Instr.trefiTick.wf effTrefiTick s := rfl
@[simp] theorem exec_idleBurst (s : State) :
    exec (.idleBurst) s = runLive "IDLE_BURST" Instr.idleBurst.wf effIdleBurst s := rfl
@[simp] theorem exec_temperatureReading (v : Option Int) (s : State) :
    exec (.temperatureReading v) s = runLive "TEMPERATURE_READING" (Instr.temperatureReading v).wf (effTemperatureReading v) s := rfl
@[simp] theorem exec_retrainingPause (rank used : Nat) (s : State) :
    exec (.retrainingPause rank used) s = runLive "RETRAINING_PAUSE" (Instr.retrainingPause rank used).wf (effRetrainingPause rank used) s := rfl
@[simp] theorem exec_caParityError (s : State) :
    exec (.caParityError) s = runLive "CA_PARITY_ERROR" Instr.caParityError.wf effCaParityError s := rfl
@[simp] theorem exec_writeCrcError (s : State) :
    exec (.writeCrcError) s = runLive "WRITE_CRC_ERROR" Instr.writeCrcError.wf effWriteCrcError s := rfl
@[simp] theorem exec_ddrScrub (s : State) :
    exec (.ddrScrub) s = runLive "DDR_SCRUB" Instr.ddrScrub.wf effDdrScrub s := rfl
@[simp] theorem exec_selfRefreshEntry (s : State) :
    exec (.selfRefreshEntry) s = runLive "SELF_REFRESH_ENTRY" Instr.selfRefreshEntry.wf effSelfRefreshEntry s := rfl
@[simp] theorem exec_selfRefreshExit (s : State) :
    exec (.selfRefreshExit) s = runLive "SELF_REFRESH_EXIT" Instr.selfRefreshExit.wf effSelfRefreshExit s := rfl
@[simp] theorem exec_configurationRequest (off : Nat) (wr : Bool) (val : Nat) (s : State) :
    exec (.configurationRequest off wr val) s = run "CONFIGURATION_REQUEST" (Instr.configurationRequest off wr val).wf (effConfigurationRequest off wr val) s := rfl
@[simp] theorem exec_bar0Access (off len : Nat) (wr : Bool) (val : Nat) (s : State) :
    exec (.bar0Access off len wr val) s = runLive "BAR0_ACCESS" (Instr.bar0Access off len wr val).wf (effBar0Access off len wr val) s := rfl
@[simp] theorem exec_bar2Access (off : Nat) (wr : Bool) (data : List Byte) (len : Nat) (s : State) :
    exec (.bar2Access off wr data len) s = runLive "BAR2_ACCESS" (Instr.bar2Access off wr data len).wf (effBar2Access off wr data len) s := rfl
@[simp] theorem exec_linkDown (cause : Nat) (s : State) :
    exec (.linkDown cause) s = runLive "LINK_DOWN" (Instr.linkDown cause).wf (effLinkDown cause) s := rfl
@[simp] theorem exec_msiXMessage (v : Nat) (s : State) :
    exec (.msiXMessage v) s = runLive "MSI_X_MESSAGE" (Instr.msiXMessage v).wf (effMsiXMessage v) s := rfl
@[simp] theorem exec_outboundReadError (ring : Nat) (payload cto : Bool) (s : State) :
    exec (.outboundReadError ring payload cto) s = runLive "OUTBOUND_READ_ERROR" (Instr.outboundReadError ring payload cto).wf (effOutboundReadError ring payload cto) s := rfl
@[simp] theorem exec_hostCrTailWrite (ring tail : Nat) (placed : List Word64) (s : State) :
    exec (.hostCrTailWrite ring tail placed) s = runLive "HOST_CR_TAIL_WRITE" (Instr.hostCrTailWrite ring tail placed).wf (effHostCrTailWrite ring tail placed) s := rfl
@[simp] theorem exec_hostCrSeqWrite (ring seq : Nat) (s : State) :
    exec (.hostCrSeqWrite ring seq) s = runLive "HOST_CR_SEQ_WRITE" (Instr.hostCrSeqWrite ring seq).wf (effHostCrSeqWrite ring seq) s := rfl
@[simp] theorem exec_ringDisable (ring : Nat) (s : State) :
    exec (.ringDisable ring) s = runLive "RING_DISABLE" (Instr.ringDisable ring).wf (effRingDisable ring) s := rfl
@[simp] theorem exec_hostCqHeadWrite (ring head : Nat) (s : State) :
    exec (.hostCqHeadWrite ring head) s = runLive "HOST_CQ_HEAD_WRITE" (Instr.hostCqHeadWrite ring head).wf (effHostCqHeadWrite ring head) s := rfl
@[simp] theorem exec_sysFrameCfgWrite (val : Nat) (s : State) :
    exec (.sysFrameCfgWrite val) s = runLive "SYS_FRAME_CFG_WRITE" (Instr.sysFrameCfgWrite val).wf (effSysFrameCfgWrite val) s := rfl
@[simp] theorem exec_loudResetWrite (k val : Nat) (s : State) :
    exec (.loudResetWrite k val) s = runLive "LOUD_RESET_WRITE" (Instr.loudResetWrite k val).wf (effLoudResetWrite k val) s := rfl
@[simp] theorem exec_runRequest (s : State) :
    exec (.runRequest) s = runLive "RUN_REQUEST" Instr.runRequest.wf effRunRequest s := rfl
@[simp] theorem exec_quiescentRequest (s : State) :
    exec (.quiescentRequest) s = runLive "QUIESCENT_REQUEST" Instr.quiescentRequest.wf effQuiescentRequest s := rfl
@[simp] theorem exec_retainRequest (s : State) :
    exec (.retainRequest) s = runLive "RETAIN_REQUEST" Instr.retainRequest.wf effRetainRequest s := rfl
@[simp] theorem exec_retainWake (alarm : Bool) (s : State) :
    exec (.retainWake alarm) s = run "RETAIN_WAKE" (Instr.retainWake alarm).wf (effRetainWake alarm) s := rfl
@[simp] theorem exec_warmResetRequest (val : Nat) (s : State) :
    exec (.warmResetRequest val) s = runLive "WARM_RESET_REQUEST" (Instr.warmResetRequest val).wf (effWarmResetRequest val) s := rfl
@[simp] theorem exec_powerCycleRequest (val : Nat) (s : State) :
    exec (.powerCycleRequest val) s = runLive "POWER_CYCLE_REQUEST" (Instr.powerCycleRequest val).wf (effPowerCycleRequest val) s := rfl
@[simp] theorem exec_warmReset (dramLost : Bool) (s : State) :
    exec (.warmReset dramLost) s = run "WARM_RESET" (Instr.warmReset dramLost).wf (effWarmReset dramLost) s := rfl
@[simp] theorem exec_warmResetDeadline (s : State) :
    exec (.warmResetDeadline) s = runLive "WARM_RESET_DEADLINE" Instr.warmResetDeadline.wf effWarmResetDeadline s := rfl
@[simp] theorem exec_powerCycle (s : State) :
    exec (.powerCycle) s = runLive "POWER_CYCLE" Instr.powerCycle.wf effPowerCycle s := rfl
@[simp] theorem exec_coldReset (low pwr : Bool) (sel : Nat) (f10 : Bool) (s : State) :
    exec (.coldReset low pwr sel f10) s = run "COLD_RESET" (Instr.coldReset low pwr sel f10).wf (effColdReset low pwr sel f10) s := rfl
@[simp] theorem exec_bootReady (ok : Bool) (slot : BootSlot) (svn ddr : Nat) (cells : List Nat) (units : List (Bool × Nat)) (keepOk : Bool) (board : BootBoard) (s : State) :
    exec (.bootReady ok slot svn ddr cells units keepOk board) s = runLive "BOOT_READY" (Instr.bootReady ok slot svn ddr cells units keepOk board).wf (effBootReady ok slot svn ddr cells units keepOk board) s := rfl
@[simp] theorem exec_go (s : State) :
    exec (.go) s = runLive "GO" Instr.go.wf effGo s := rfl
@[simp] theorem exec_commitsvn (s : State) :
    exec (.commitsvn) s = runLive "COMMITSVN" Instr.commitsvn.wf effCommitsvn s := rfl
@[simp] theorem exec_manifestWrite (hi : Nat) (s : State) :
    exec (.manifestWrite hi) s = runLive "MANIFEST_WRITE" (Instr.manifestWrite hi).wf (effManifestWrite hi) s := rfl
@[simp] theorem exec_manifestVerified (ok : Bool) (entries : List (Nat × Nat × Nat)) (s : State) :
    exec (.manifestVerified ok entries) s = runLive "MANIFEST_VERIFIED" (Instr.manifestVerified ok entries).wf (effManifestVerified ok entries) s := rfl
@[simp] theorem exec_qspiCommand (val : Nat) (s : State) :
    exec (.qspiCommand val) s = runLive "QSPI_COMMAND" (Instr.qspiCommand val).wf (effQspiCommand val) s := rfl
@[simp] theorem exec_aoPtpSet (t : Nat) (s : State) :
    exec (.aoPtpSet t) s = runLive "AO_PTP_SET" (Instr.aoPtpSet t).wf (effAoPtpSet t) s := rfl
@[simp] theorem exec_oscInLoss (s : State) :
    exec (.oscInLoss) s = run "OSC_IN_LOSS" Instr.oscInLoss.wf effOscInLoss s := rfl
@[simp] theorem exec_oscInRestore (s : State) :
    exec (.oscInRestore) s = run "OSC_IN_RESTORE" Instr.oscInRestore.wf effOscInRestore s := rfl
@[simp] theorem exec_fxLossOfLock (s : State) :
    exec (.fxLossOfLock) s = runLive "FX_LOSS_OF_LOCK" Instr.fxLossOfLock.wf effFxLossOfLock s := rfl
@[simp] theorem exec_supplyMonitorTrip (core : Bool) (s : State) :
    exec (.supplyMonitorTrip core) s = run "SUPPLY_MONITOR_TRIP" (Instr.supplyMonitorTrip core).wf (effSupplyMonitorTrip core) s := rfl
@[simp] theorem exec_thermalSample (t : Int) (s : State) :
    exec (.thermalSample t) s = runLive "THERMAL_SAMPLE" (Instr.thermalSample t).wf (effThermalSample t) s := rfl
@[simp] theorem exec_thermalTrip (s : State) :
    exec (.thermalTrip) s = run "THERMAL_TRIP" Instr.thermalTrip.wf effThermalTrip s := rfl
@[simp] theorem exec_thermalTripRelease (s : State) :
    exec (.thermalTripRelease) s = run "THERMAL_TRIP_RELEASE" Instr.thermalTripRelease.wf effThermalTripRelease s := rfl
@[simp] theorem exec_rcRead (blk off : Nat) (s : State) :
    exec (.rcRead blk off) s = runLive "RC_READ" (Instr.rcRead blk off).wf (effRcRead blk off) s := rfl
@[simp] theorem exec_latchingRead (blk off t : Nat) (s : State) :
    exec (.latchingRead blk off t) s = runLive "LATCHING_READ" (Instr.latchingRead blk off t).wf (effLatchingRead blk off t) s := rfl
@[simp] theorem exec_registerWrite (blk off val : Nat) (s : State) :
    exec (.registerWrite blk off val) s = runLive "REGISTER_WRITE" (Instr.registerWrite blk off val).wf (effRegisterWrite blk off val) s := rfl
@[simp] theorem exec_vbatLoss (s : State) :
    exec (.vbatLoss) s = run "VBAT_LOSS" Instr.vbatLoss.wf effVbatLoss s := rfl
@[simp] theorem exec_hostPushTimeout (s : State) :
    exec (.hostPushTimeout) s = runLive "HOST_PUSH_TIMEOUT" Instr.hostPushTimeout.wf effHostPushTimeout s := rfl
@[simp] theorem exec_announceReceiptTimeout (inst : Nat) (s : State) :
    exec (.announceReceiptTimeout inst) s = runLive "ANNOUNCE_RECEIPT_TIMEOUT" (Instr.announceReceiptTimeout inst).wf (effAnnounceReceiptTimeout inst) s := rfl
@[simp] theorem exec_ethLinkChange (port : Nat) (up : Bool) (s : State) :
    exec (.ethLinkChange port up) s = runLive "ETH_LINK_CHANGE" (Instr.ethLinkChange port up).wf (effEthLinkChange port up) s := rfl
@[simp] theorem exec_pcieLinkUp (speed width : Nat) (s : State) :
    exec (.pcieLinkUp speed width) s = run "PCIE_LINK_UP" (Instr.pcieLinkUp speed width).wf (effPcieLinkUp speed width) s := rfl
@[simp] theorem exec_domainLossOfLock (dom : Nat) (s : State) :
    exec (.domainLossOfLock dom) s = runLive "DOMAIN_LOSS_OF_LOCK" (Instr.domainLossOfLock dom).wf (effDomainLossOfLock dom) s := rfl
@[simp] theorem exec_executorStateError (dma : Bool) (unit : Nat) (s : State) :
    exec (.executorStateError dma unit) s = runLive "EXECUTOR_STATE_ERROR" (Instr.executorStateError dma unit).wf (effExecutorStateError dma unit) s := rfl
@[simp] theorem exec_subQueueParityError (region : Nat) (s : State) :
    exec (.subQueueParityError region) s = runLive "SUB_QUEUE_PARITY_ERROR" (Instr.subQueueParityError region).wf (effSubQueueParityError region) s := rfl
@[simp] theorem exec_bridgeProtocolError (block : Nat) (s : State) :
    exec (.bridgeProtocolError block) s = runLive "BRIDGE_PROTOCOL_ERROR" (Instr.bridgeProtocolError block).wf (effBridgeProtocolError block) s := rfl
@[simp] theorem exec_referenceSignalReturn (slot : Nat) (s : State) :
    exec (.referenceSignalReturn slot) s = runLive "REFERENCE_SIGNAL_RETURN" (Instr.referenceSignalReturn slot).wf (effReferenceSignalReturn slot) s := rfl
@[simp] theorem exec_cellSelfTestComplete (pass : Bool) (s : State) :
    exec (.cellSelfTestComplete pass) s = runLive "CELL_SELF_TEST_COMPLETE" (Instr.cellSelfTestComplete pass).wf (effCellSelfTestComplete pass) s := rfl
@[simp] theorem exec_boundaryScanTestMode (enter : Bool) (s : State) :
    exec (.boundaryScanTestMode enter) s = run "BOUNDARY_SCAN_TEST_MODE" (Instr.boundaryScanTestMode enter).wf (effBoundaryScanTestMode enter) s := rfl
@[simp] theorem exec_qspiCommandComplete (data : List Byte) (s : State) :
    exec (.qspiCommandComplete data) s = runLive "QSPI_COMMAND_COMPLETE" (Instr.qspiCommandComplete data).wf (effQspiCommandComplete data) s := rfl

/-- What a command does, once for all: the check of its operands guards an effect on the engine, which an engine held in reset does not
carry out unless the command reaches it. -/
theorem exec_cases (c : Instr) (s : State) :
    ∃ m eff, (reachesHeld c = false ∧ exec c s = runLive m c.wf eff s) ∨ (reachesHeld c = true ∧ exec c s = run m c.wf eff s) := by
  cases c with
  | frameTick => exact ⟨_, _, .inl ⟨rfl, exec_frameTick ..⟩⟩
  | firstDispatch _ => exact ⟨_, _, .inl ⟨rfl, exec_firstDispatch ..⟩⟩
  | lateCheck => exact ⟨_, _, .inl ⟨rfl, exec_lateCheck ..⟩⟩
  | itemCompletion _ _ _ => exact ⟨_, _, .inl ⟨rfl, exec_itemCompletion ..⟩⟩
  | dispatch _ => exact ⟨_, _, .inl ⟨rfl, exec_dispatch ..⟩⟩
  | fedItemStart _ _ => exact ⟨_, _, .inl ⟨rfl, exec_fedItemStart ..⟩⟩
  | itemStart _ _ => exact ⟨_, _, .inl ⟨rfl, exec_itemStart ..⟩⟩
  | bundleIssue _ _ => exact ⟨_, _, .inl ⟨rfl, exec_bundleIssue ..⟩⟩
  | resultVisible _ => exact ⟨_, _, .inl ⟨rfl, exec_resultVisible ..⟩⟩
  | storeCommit _ => exact ⟨_, _, .inl ⟨rfl, exec_storeCommit ..⟩⟩
  | loopClose _ => exact ⟨_, _, .inl ⟨rfl, exec_loopClose ..⟩⟩
  | eccDoubleBitInterrupt _ _ => exact ⟨_, _, .inl ⟨rfl, exec_eccDoubleBitInterrupt ..⟩⟩
  | arithmeticTrap _ _ => exact ⟨_, _, .inl ⟨rfl, exec_arithmeticTrap ..⟩⟩
  | budgetOverrun _ _ => exact ⟨_, _, .inl ⟨rfl, exec_budgetOverrun ..⟩⟩
  | debugBreak _ => exact ⟨_, _, .inl ⟨rfl, exec_debugBreak ..⟩⟩
  | hostDebugRequest _ => exact ⟨_, _, .inl ⟨rfl, exec_hostDebugRequest ..⟩⟩
  | handlerEnd _ _ => exact ⟨_, _, .inl ⟨rfl, exec_handlerEnd ..⟩⟩
  | retiBankSwitch _ _ => exact ⟨_, _, .inl ⟨rfl, exec_retiBankSwitch ..⟩⟩
  | handshakeTimeout _ _ => exact ⟨_, _, .inl ⟨rfl, exec_handshakeTimeout ..⟩⟩
  | dmaCellAccess _ _ _ _ _ => exact ⟨_, _, .inl ⟨rfl, exec_dmaCellAccess ..⟩⟩
  | cellScrub _ _ _ => exact ⟨_, _, .inl ⟨rfl, exec_cellScrub ..⟩⟩
  | errorWindowRoll _ => exact ⟨_, _, .inr ⟨rfl, exec_errorWindowRoll ..⟩⟩
  | rotatingSelfTest _ => exact ⟨_, _, .inl ⟨rfl, exec_rotatingSelfTest ..⟩⟩
  | executorStallFence _ _ _ => exact ⟨_, _, .inl ⟨rfl, exec_executorStallFence ..⟩⟩
  | executorErrorResponse _ _ => exact ⟨_, _, .inl ⟨rfl, exec_executorErrorResponse ..⟩⟩
  | paceMonitorSample _ _ _ => exact ⟨_, _, .inl ⟨rfl, exec_paceMonitorSample ..⟩⟩
  | avsLoop => exact ⟨_, _, .inl ⟨rfl, exec_avsLoop ..⟩⟩
  | pmbusWriteComplete _ => exact ⟨_, _, .inl ⟨rfl, exec_pmbusWriteComplete ..⟩⟩
  | pmbusRetry => exact ⟨_, _, .inl ⟨rfl, exec_pmbusRetry ..⟩⟩
  | paceDecision => exact ⟨_, _, .inl ⟨rfl, exec_paceDecision ..⟩⟩
  | reinstatement => exact ⟨_, _, .inl ⟨rfl, exec_reinstatement ..⟩⟩
  | lockstepMismatch _ => exact ⟨_, _, .inl ⟨rfl, exec_lockstepMismatch ..⟩⟩
  | supervisorRestartEnd => exact ⟨_, _, .inl ⟨rfl, exec_supervisorRestartEnd ..⟩⟩
  | zeroCrossingCut _ _ => exact ⟨_, _, .inl ⟨rfl, exec_zeroCrossingCut ..⟩⟩
  | zcTimeout _ _ => exact ⟨_, _, .inl ⟨rfl, exec_zcTimeout ..⟩⟩
  | fadeEnd _ _ => exact ⟨_, _, .inl ⟨rfl, exec_fadeEnd ..⟩⟩
  | fallbackReturn _ => exact ⟨_, _, .inl ⟨rfl, exec_fallbackReturn ..⟩⟩
  | reversion _ => exact ⟨_, _, .inl ⟨rfl, exec_reversion ..⟩⟩
  | asrcLock _ _ => exact ⟨_, _, .inl ⟨rfl, exec_asrcLock ..⟩⟩
  | asrcUnlock _ => exact ⟨_, _, .inl ⟨rfl, exec_asrcUnlock ..⟩⟩
  | asrcRange _ _ => exact ⟨_, _, .inl ⟨rfl, exec_asrcRange ..⟩⟩
  | gainZeroCrossingStep _ _ => exact ⟨_, _, .inl ⟨rfl, exec_gainZeroCrossingStep ..⟩⟩
  | gainTimeout _ _ => exact ⟨_, _, .inl ⟨rfl, exec_gainTimeout ..⟩⟩
  | rampEnd _ _ => exact ⟨_, _, .inl ⟨rfl, exec_rampEnd ..⟩⟩
  | meterBlockWrite => exact ⟨_, _, .inl ⟨rfl, exec_meterBlockWrite ..⟩⟩
  | loudnessStep _ => exact ⟨_, _, .inl ⟨rfl, exec_loudnessStep ..⟩⟩
  | automixUpdate _ => exact ⟨_, _, .inl ⟨rfl, exec_automixUpdate ..⟩⟩
  | duckHoldExpiry _ => exact ⟨_, _, .inl ⟨rfl, exec_duckHoldExpiry ..⟩⟩
  | programFetch => exact ⟨_, _, .inl ⟨rfl, exec_programFetch ..⟩⟩
  | eventsLostPost => exact ⟨_, _, .inl ⟨rfl, exec_eventsLostPost ..⟩⟩
  | nop _ => exact ⟨_, _, .inl ⟨rfl, exec_nop ..⟩⟩
  | fence _ => exact ⟨_, _, .inl ⟨rfl, exec_fence ..⟩⟩
  | fenceComplete _ => exact ⟨_, _, .inl ⟨rfl, exec_fenceComplete ..⟩⟩
  | query _ => exact ⟨_, _, .inl ⟨rfl, exec_query ..⟩⟩
  | resetFn _ => exact ⟨_, _, .inl ⟨rfl, exec_resetFn ..⟩⟩
  | resetFnComplete _ _ _ => exact ⟨_, _, .inl ⟨rfl, exec_resetFnComplete ..⟩⟩
  | txnOpen _ => exact ⟨_, _, .inl ⟨rfl, exec_txnOpen ..⟩⟩
  | staging _ _ => exact ⟨_, _, .inl ⟨rfl, exec_staging ..⟩⟩
  | txnCommit _ => exact ⟨_, _, .inl ⟨rfl, exec_txnCommit ..⟩⟩
  | txnAcknowledge _ => exact ⟨_, _, .inl ⟨rfl, exec_txnAcknowledge ..⟩⟩
  | txnAbort _ => exact ⟨_, _, .inl ⟨rfl, exec_txnAbort ..⟩⟩
  | transactionIdleAbandon _ => exact ⟨_, _, .inl ⟨rfl, exec_transactionIdleAbandon ..⟩⟩
  | loadProg _ => exact ⟨_, _, .inl ⟨rfl, exec_loadProg ..⟩⟩
  | defItem _ => exact ⟨_, _, .inl ⟨rfl, exec_defItem ..⟩⟩
  | link _ => exact ⟨_, _, .inl ⟨rfl, exec_link ..⟩⟩
  | admitGraph _ => exact ⟨_, _, .inl ⟨rfl, exec_admitGraph ..⟩⟩
  | admissionResult _ => exact ⟨_, _, .inl ⟨rfl, exec_admissionResult ..⟩⟩
  | route _ => exact ⟨_, _, .inl ⟨rfl, exec_route ..⟩⟩
  | fallback _ => exact ⟨_, _, .inl ⟨rfl, exec_fallback ..⟩⟩
  | align _ => exact ⟨_, _, .inl ⟨rfl, exec_align ..⟩⟩
  | setGain _ => exact ⟨_, _, .inl ⟨rfl, exec_setGain ..⟩⟩
  | setGainDb _ => exact ⟨_, _, .inl ⟨rfl, exec_setGainDb ..⟩⟩
  | setSend _ => exact ⟨_, _, .inl ⟨rfl, exec_setSend ..⟩⟩
  | writeParam _ => exact ⟨_, _, .inl ⟨rfl, exec_writeParam ..⟩⟩
  | parameterMirrorEnd _ => exact ⟨_, _, .inl ⟨rfl, exec_parameterMirrorEnd ..⟩⟩
  | portCfg _ => exact ⟨_, _, .inl ⟨rfl, exec_portCfg ..⟩⟩
  | groupStart _ => exact ⟨_, _, .inl ⟨rfl, exec_groupStart ..⟩⟩
  | groupStop _ => exact ⟨_, _, .inl ⟨rfl, exec_groupStop ..⟩⟩
  | refCfg _ => exact ⟨_, _, .inl ⟨rfl, exec_refCfg ..⟩⟩
  | refPrio _ => exact ⟨_, _, .inl ⟨rfl, exec_refPrio ..⟩⟩
  | streamTx _ => exact ⟨_, _, .inl ⟨rfl, exec_streamTx ..⟩⟩
  | streamRx _ => exact ⟨_, _, .inl ⟨rfl, exec_streamRx ..⟩⟩
  | ptpCfgInstance _ => exact ⟨_, _, .inl ⟨rfl, exec_ptpCfgInstance ..⟩⟩
  | ptpCfgTime _ => exact ⟨_, _, .inl ⟨rfl, exec_ptpCfgTime ..⟩⟩
  | ptpCfgServo _ => exact ⟨_, _, .inl ⟨rfl, exec_ptpCfgServo ..⟩⟩
  | ptpCfgRemap _ => exact ⟨_, _, .inl ⟨rfl, exec_ptpCfgRemap ..⟩⟩
  | ptpCfgLatency _ => exact ⟨_, _, .inl ⟨rfl, exec_ptpCfgLatency ..⟩⟩
  | ptpCfgPulse _ => exact ⟨_, _, .inl ⟨rfl, exec_ptpCfgPulse ..⟩⟩
  | fabCfgNode _ => exact ⟨_, _, .inl ⟨rfl, exec_fabCfgNode ..⟩⟩
  | fabCfgLink _ => exact ⟨_, _, .inl ⟨rfl, exec_fabCfgLink ..⟩⟩
  | fabCfgExclude _ => exact ⟨_, _, .inl ⟨rfl, exec_fabCfgExclude ..⟩⟩
  | fabCfgReadmit _ => exact ⟨_, _, .inl ⟨rfl, exec_fabCfgReadmit ..⟩⟩
  | fabSlot _ => exact ⟨_, _, .inl ⟨rfl, exec_fabSlot ..⟩⟩
  | pairCfgPair _ => exact ⟨_, _, .inl ⟨rfl, exec_pairCfgPair ..⟩⟩
  | pairCfgOutputGroup _ => exact ⟨_, _, .inl ⟨rfl, exec_pairCfgOutputGroup ..⟩⟩
  | pairSyncResync _ => exact ⟨_, _, .inl ⟨rfl, exec_pairSyncResync ..⟩⟩
  | pairSyncHandover _ => exact ⟨_, _, .inl ⟨rfl, exec_pairSyncHandover ..⟩⟩
  | sceneStore _ => exact ⟨_, _, .inl ⟨rfl, exec_sceneStore ..⟩⟩
  | sceneRecall _ => exact ⟨_, _, .inl ⟨rfl, exec_sceneRecall ..⟩⟩
  | sceneDelete _ => exact ⟨_, _, .inl ⟨rfl, exec_sceneDelete ..⟩⟩
  | meterCfg _ => exact ⟨_, _, .inl ⟨rfl, exec_meterCfg ..⟩⟩
  | loudCfg _ => exact ⟨_, _, .inl ⟨rfl, exec_loudCfg ..⟩⟩
  | automixCfg _ => exact ⟨_, _, .inl ⟨rfl, exec_automixCfg ..⟩⟩
  | minusCfg _ => exact ⟨_, _, .inl ⟨rfl, exec_minusCfg ..⟩⟩
  | genCfg _ => exact ⟨_, _, .inl ⟨rfl, exec_genCfg ..⟩⟩
  | replicationLate => exact ⟨_, _, .inl ⟨rfl, exec_replicationLate ..⟩⟩
  | prepare _ _ _ => exact ⟨_, _, .inl ⟨rfl, exec_prepare ..⟩⟩
  | prepared _ _ _ => exact ⟨_, _, .inl ⟨rfl, exec_prepared ..⟩⟩
  | fabricPrepareDeadline _ _ => exact ⟨_, _, .inl ⟨rfl, exec_fabricPrepareDeadline ..⟩⟩
  | allPrepared _ => exact ⟨_, _, .inl ⟨rfl, exec_allPrepared ..⟩⟩
  | abort _ => exact ⟨_, _, .inl ⟨rfl, exec_abort ..⟩⟩
  | inDoubtEntry _ => exact ⟨_, _, .inl ⟨rfl, exec_inDoubtEntry ..⟩⟩
  | inDoubtTimeout _ _ => exact ⟨_, _, .inl ⟨rfl, exec_inDoubtTimeout ..⟩⟩
  | lateApplyReport _ _ _ => exact ⟨_, _, .inl ⟨rfl, exec_lateApplyReport ..⟩⟩
  | portWordCapture _ _ _ _ _ => exact ⟨_, _, .inl ⟨rfl, exec_portWordCapture ..⟩⟩
  | qualification _ _ => exact ⟨_, _, .inl ⟨rfl, exec_qualification ..⟩⟩
  | clockStopDetect _ => exact ⟨_, _, .inl ⟨rfl, exec_clockStopDetect ..⟩⟩
  | glitch _ => exact ⟨_, _, .inl ⟨rfl, exec_glitch ..⟩⟩
  | rateMismatch _ _ => exact ⟨_, _, .inl ⟨rfl, exec_rateMismatch ..⟩⟩
  | elasticOverrun _ _ => exact ⟨_, _, .inl ⟨rfl, exec_elasticOverrun ..⟩⟩
  | aes3Subframe _ _ _ _ _ _ _ => exact ⟨_, _, .inl ⟨rfl, exec_aes3Subframe ..⟩⟩
  | channelStatusBlock _ _ _ _ => exact ⟨_, _, .inl ⟨rfl, exec_channelStatusBlock ..⟩⟩
  | startSyncEdge _ _ => exact ⟨_, _, .inl ⟨rfl, exec_startSyncEdge ..⟩⟩
  | selectionRun => exact ⟨_, _, .inl ⟨rfl, exec_selectionRun ..⟩⟩
  | lossOfSignal _ => exact ⟨_, _, .inl ⟨rfl, exec_lossOfSignal ..⟩⟩
  | frequencyMeasurement _ _ => exact ⟨_, _, .inl ⟨rfl, exec_frequencyMeasurement ..⟩⟩
  | softAlarmClear _ => exact ⟨_, _, .inl ⟨rfl, exec_softAlarmClear ..⟩⟩
  | wtrExpiry _ => exact ⟨_, _, .inl ⟨rfl, exec_wtrExpiry ..⟩⟩
  | holdPhaseEnd => exact ⟨_, _, .inl ⟨rfl, exec_holdPhaseEnd ..⟩⟩
  | acqEnd _ => exact ⟨_, _, .inl ⟨rfl, exec_acqEnd ..⟩⟩
  | acqTimeout => exact ⟨_, _, .inl ⟨rfl, exec_acqTimeout ..⟩⟩
  | alignEnd => exact ⟨_, _, .inl ⟨rfl, exec_alignEnd ..⟩⟩
  | dwellEnd => exact ⟨_, _, .inl ⟨rfl, exec_dwellEnd ..⟩⟩
  | holdoverHistoryRecord _ => exact ⟨_, _, .inl ⟨rfl, exec_holdoverHistoryRecord ..⟩⟩
  | ethFrameReceive _ _ _ _ _ => exact ⟨_, _, .inl ⟨rfl, exec_ethFrameReceive ..⟩⟩
  | streamLoss _ => exact ⟨_, _, .inl ⟨rfl, exec_streamLoss ..⟩⟩
  | streamRecovery _ => exact ⟨_, _, .inl ⟨rfl, exec_streamRecovery ..⟩⟩
  | pathLoss _ _ _ => exact ⟨_, _, .inl ⟨rfl, exec_pathLoss ..⟩⟩
  | mediaPacketLaunch _ => exact ⟨_, _, .inl ⟨rfl, exec_mediaPacketLaunch ..⟩⟩
  | hostTransmitEntry _ _ => exact ⟨_, _, .inl ⟨rfl, exec_hostTransmitEntry ..⟩⟩
  | syncReceived _ _ _ => exact ⟨_, _, .inl ⟨rfl, exec_syncReceived ..⟩⟩
  | timeStep _ => exact ⟨_, _, .inl ⟨rfl, exec_timeStep ..⟩⟩
  | receiveGraceEnd => exact ⟨_, _, .inl ⟨rfl, exec_receiveGraceEnd ..⟩⟩
  | announceReceived _ _ => exact ⟨_, _, .inl ⟨rfl, exec_announceReceived ..⟩⟩
  | delayReqReceived _ _ _ _ _ => exact ⟨_, _, .inl ⟨rfl, exec_delayReqReceived ..⟩⟩
  | ptpMessageTransmit _ _ _ => exact ⟨_, _, .inl ⟨rfl, exec_ptpMessageTransmit ..⟩⟩
  | captureEdge _ _ => exact ⟨_, _, .inl ⟨rfl, exec_captureEdge ..⟩⟩
  | pulseFire _ _ => exact ⟨_, _, .inl ⟨rfl, exec_pulseFire ..⟩⟩
  | blockLock _ => exact ⟨_, _, .inl ⟨rfl, exec_blockLock ..⟩⟩
  | helloReceived _ _ => exact ⟨_, _, .inl ⟨rfl, exec_helloReceived ..⟩⟩
  | linkRetrain _ => exact ⟨_, _, .inl ⟨rfl, exec_linkRetrain ..⟩⟩
  | syncBlockSet _ _ => exact ⟨_, _, .inl ⟨rfl, exec_syncBlockSet ..⟩⟩
  | syncMissing _ => exact ⟨_, _, .inl ⟨rfl, exec_syncMissing ..⟩⟩
  | isochronousBlock _ _ => exact ⟨_, _, .inl ⟨rfl, exec_isochronousBlock ..⟩⟩
  | reliableMessage _ _ => exact ⟨_, _, .inl ⟨rfl, exec_reliableMessage ..⟩⟩
  | reliableAck _ _ _ _ => exact ⟨_, _, .inl ⟨rfl, exec_reliableAck ..⟩⟩
  | reliableRetry _ _ _ _ => exact ⟨_, _, .inl ⟨rfl, exec_reliableRetry ..⟩⟩
  | linkFailure _ _ => exact ⟨_, _, .inl ⟨rfl, exec_linkFailure ..⟩⟩
  | failureNotice _ _ _ _ => exact ⟨_, _, .inl ⟨rfl, exec_failureNotice ..⟩⟩
  | rootElection _ => exact ⟨_, _, .inl ⟨rfl, exec_rootElection ..⟩⟩
  | routeTableInstall _ _ => exact ⟨_, _, .inl ⟨rfl, exec_routeTableInstall ..⟩⟩
  | rerouteAttempt _ _ _ => exact ⟨_, _, .inl ⟨rfl, exec_rerouteAttempt ..⟩⟩
  | nodeExclusion _ => exact ⟨_, _, .inl ⟨rfl, exec_nodeExclusion ..⟩⟩
  | rootLossElection => exact ⟨_, _, .inl ⟨rfl, exec_rootLossElection ..⟩⟩
  | fabricLockChange _ _ => exact ⟨_, _, .inl ⟨rfl, exec_fabricLockChange ..⟩⟩
  | roleDecision => exact ⟨_, _, .inl ⟨rfl, exec_roleDecision ..⟩⟩
  | lineTestPulse _ => exact ⟨_, _, .inl ⟨rfl, exec_lineTestPulse ..⟩⟩
  | eclipseSample _ => exact ⟨_, _, .inl ⟨rfl, exec_eclipseSample ..⟩⟩
  | tideEdge => exact ⟨_, _, .inl ⟨rfl, exec_tideEdge ..⟩⟩
  | tideLost => exact ⟨_, _, .inl ⟨rfl, exec_tideLost ..⟩⟩
  | heartbeatBlock _ => exact ⟨_, _, .inl ⟨rfl, exec_heartbeatBlock ..⟩⟩
  | heartbeatLost => exact ⟨_, _, .inl ⟨rfl, exec_heartbeatLost ..⟩⟩
  | inSync _ => exact ⟨_, _, .inl ⟨rfl, exec_inSync ..⟩⟩
  | convergenceTimeout _ => exact ⟨_, _, .inl ⟨rfl, exec_convergenceTimeout ..⟩⟩
  | deadManRelease _ => exact ⟨_, _, .inl ⟨rfl, exec_deadManRelease ..⟩⟩
  | releasedMute => exact ⟨_, _, .inl ⟨rfl, exec_releasedMute ..⟩⟩
  | takeover => exact ⟨_, _, .inl ⟨rfl, exec_takeover ..⟩⟩
  | handover => exact ⟨_, _, .inl ⟨rfl, exec_handover ..⟩⟩
  | autoDisarm _ => exact ⟨_, _, .inl ⟨rfl, exec_autoDisarm ..⟩⟩
  | epochComplete _ _ => exact ⟨_, _, .inl ⟨rfl, exec_epochComplete ..⟩⟩
  | epochAbandon => exact ⟨_, _, .inl ⟨rfl, exec_epochAbandon ..⟩⟩
  | warmGraphStart => exact ⟨_, _, .inl ⟨rfl, exec_warmGraphStart ..⟩⟩
  | xbarGrant _ _ => exact ⟨_, _, .inl ⟨rfl, exec_xbarGrant ..⟩⟩
  | xbarResponse _ => exact ⟨_, _, .inl ⟨rfl, exec_xbarResponse ..⟩⟩
  | xbarTimeout _ => exact ⟨_, _, .inl ⟨rfl, exec_xbarTimeout ..⟩⟩
  | requestParityError _ _ => exact ⟨_, _, .inl ⟨rfl, exec_requestParityError ..⟩⟩
  | regionScrub _ => exact ⟨_, _, .inl ⟨rfl, exec_regionScrub ..⟩⟩
  | ddrQueueEntry => exact ⟨_, _, .inl ⟨rfl, exec_ddrQueueEntry ..⟩⟩
  | ddrEntryComplete => exact ⟨_, _, .inl ⟨rfl, exec_ddrEntryComplete ..⟩⟩
  | trefiTick => exact ⟨_, _, .inl ⟨rfl, exec_trefiTick ..⟩⟩
  | idleBurst => exact ⟨_, _, .inl ⟨rfl, exec_idleBurst ..⟩⟩
  | temperatureReading _ => exact ⟨_, _, .inl ⟨rfl, exec_temperatureReading ..⟩⟩
  | retrainingPause _ _ => exact ⟨_, _, .inl ⟨rfl, exec_retrainingPause ..⟩⟩
  | caParityError => exact ⟨_, _, .inl ⟨rfl, exec_caParityError ..⟩⟩
  | writeCrcError => exact ⟨_, _, .inl ⟨rfl, exec_writeCrcError ..⟩⟩
  | ddrScrub => exact ⟨_, _, .inl ⟨rfl, exec_ddrScrub ..⟩⟩
  | selfRefreshEntry => exact ⟨_, _, .inl ⟨rfl, exec_selfRefreshEntry ..⟩⟩
  | selfRefreshExit => exact ⟨_, _, .inl ⟨rfl, exec_selfRefreshExit ..⟩⟩
  | configurationRequest _ _ _ => exact ⟨_, _, .inr ⟨rfl, exec_configurationRequest ..⟩⟩
  | bar0Access _ _ _ _ => exact ⟨_, _, .inl ⟨rfl, exec_bar0Access ..⟩⟩
  | bar2Access _ _ _ _ => exact ⟨_, _, .inl ⟨rfl, exec_bar2Access ..⟩⟩
  | linkDown _ => exact ⟨_, _, .inl ⟨rfl, exec_linkDown ..⟩⟩
  | msiXMessage _ => exact ⟨_, _, .inl ⟨rfl, exec_msiXMessage ..⟩⟩
  | outboundReadError _ _ _ => exact ⟨_, _, .inl ⟨rfl, exec_outboundReadError ..⟩⟩
  | hostCrTailWrite _ _ _ => exact ⟨_, _, .inl ⟨rfl, exec_hostCrTailWrite ..⟩⟩
  | hostCrSeqWrite _ _ => exact ⟨_, _, .inl ⟨rfl, exec_hostCrSeqWrite ..⟩⟩
  | ringDisable _ => exact ⟨_, _, .inl ⟨rfl, exec_ringDisable ..⟩⟩
  | hostCqHeadWrite _ _ => exact ⟨_, _, .inl ⟨rfl, exec_hostCqHeadWrite ..⟩⟩
  | sysFrameCfgWrite _ => exact ⟨_, _, .inl ⟨rfl, exec_sysFrameCfgWrite ..⟩⟩
  | loudResetWrite _ _ => exact ⟨_, _, .inl ⟨rfl, exec_loudResetWrite ..⟩⟩
  | runRequest => exact ⟨_, _, .inl ⟨rfl, exec_runRequest ..⟩⟩
  | quiescentRequest => exact ⟨_, _, .inl ⟨rfl, exec_quiescentRequest ..⟩⟩
  | retainRequest => exact ⟨_, _, .inl ⟨rfl, exec_retainRequest ..⟩⟩
  | retainWake _ => exact ⟨_, _, .inr ⟨rfl, exec_retainWake ..⟩⟩
  | warmResetRequest _ => exact ⟨_, _, .inl ⟨rfl, exec_warmResetRequest ..⟩⟩
  | powerCycleRequest _ => exact ⟨_, _, .inl ⟨rfl, exec_powerCycleRequest ..⟩⟩
  | warmReset _ => exact ⟨_, _, .inr ⟨rfl, exec_warmReset ..⟩⟩
  | warmResetDeadline => exact ⟨_, _, .inl ⟨rfl, exec_warmResetDeadline ..⟩⟩
  | powerCycle => exact ⟨_, _, .inl ⟨rfl, exec_powerCycle ..⟩⟩
  | coldReset _ _ _ _ => exact ⟨_, _, .inr ⟨rfl, exec_coldReset ..⟩⟩
  | bootReady _ _ _ _ _ _ _ _ => exact ⟨_, _, .inl ⟨rfl, exec_bootReady ..⟩⟩
  | go => exact ⟨_, _, .inl ⟨rfl, exec_go ..⟩⟩
  | commitsvn => exact ⟨_, _, .inl ⟨rfl, exec_commitsvn ..⟩⟩
  | manifestWrite _ => exact ⟨_, _, .inl ⟨rfl, exec_manifestWrite ..⟩⟩
  | manifestVerified _ _ => exact ⟨_, _, .inl ⟨rfl, exec_manifestVerified ..⟩⟩
  | qspiCommand _ => exact ⟨_, _, .inl ⟨rfl, exec_qspiCommand ..⟩⟩
  | aoPtpSet _ => exact ⟨_, _, .inl ⟨rfl, exec_aoPtpSet ..⟩⟩
  | oscInLoss => exact ⟨_, _, .inr ⟨rfl, exec_oscInLoss ..⟩⟩
  | oscInRestore => exact ⟨_, _, .inr ⟨rfl, exec_oscInRestore ..⟩⟩
  | fxLossOfLock => exact ⟨_, _, .inl ⟨rfl, exec_fxLossOfLock ..⟩⟩
  | supplyMonitorTrip _ => exact ⟨_, _, .inr ⟨rfl, exec_supplyMonitorTrip ..⟩⟩
  | thermalSample _ => exact ⟨_, _, .inl ⟨rfl, exec_thermalSample ..⟩⟩
  | thermalTrip => exact ⟨_, _, .inr ⟨rfl, exec_thermalTrip ..⟩⟩
  | thermalTripRelease => exact ⟨_, _, .inr ⟨rfl, exec_thermalTripRelease ..⟩⟩
  | rcRead _ _ => exact ⟨_, _, .inl ⟨rfl, exec_rcRead ..⟩⟩
  | latchingRead _ _ _ => exact ⟨_, _, .inl ⟨rfl, exec_latchingRead ..⟩⟩
  | registerWrite _ _ _ => exact ⟨_, _, .inl ⟨rfl, exec_registerWrite ..⟩⟩
  | vbatLoss => exact ⟨_, _, .inr ⟨rfl, exec_vbatLoss ..⟩⟩
  | hostPushTimeout => exact ⟨_, _, .inl ⟨rfl, exec_hostPushTimeout ..⟩⟩
  | announceReceiptTimeout _ => exact ⟨_, _, .inl ⟨rfl, exec_announceReceiptTimeout ..⟩⟩
  | ethLinkChange _ _ => exact ⟨_, _, .inl ⟨rfl, exec_ethLinkChange ..⟩⟩
  | pcieLinkUp _ _ => exact ⟨_, _, .inr ⟨rfl, exec_pcieLinkUp ..⟩⟩
  | domainLossOfLock _ => exact ⟨_, _, .inl ⟨rfl, exec_domainLossOfLock ..⟩⟩
  | executorStateError _ _ => exact ⟨_, _, .inl ⟨rfl, exec_executorStateError ..⟩⟩
  | subQueueParityError _ => exact ⟨_, _, .inl ⟨rfl, exec_subQueueParityError ..⟩⟩
  | bridgeProtocolError _ => exact ⟨_, _, .inl ⟨rfl, exec_bridgeProtocolError ..⟩⟩
  | referenceSignalReturn _ => exact ⟨_, _, .inl ⟨rfl, exec_referenceSignalReturn ..⟩⟩
  | cellSelfTestComplete _ => exact ⟨_, _, .inl ⟨rfl, exec_cellSelfTestComplete ..⟩⟩
  | boundaryScanTestMode _ => exact ⟨_, _, .inr ⟨rfl, exec_boundaryScanTestMode ..⟩⟩
  | qspiCommandComplete _ => exact ⟨_, _, .inl ⟨rfl, exec_qspiCommandComplete ..⟩⟩

end Sys2Proof.Machine
end

