-- ==== Sys2Proof/Laws/WellFormed.lean ====
section
/-! SUPPORT. Which operands each command admits, as a simplification rule. -/
namespace Sys2Proof

@[simp] theorem Instr.wf_firstDispatch (x0 : Nat) : (Instr.firstDispatch x0).wf = true := rfl
@[simp] theorem Instr.wf_itemCompletion (i : Nat) (x1 : Nat) (x2 : List (Nat × List Int)) : (Instr.itemCompletion i x1 x2).wf = (decide (i < 16384)) := by
  show ((decide (i < 16384)) && true && true && true && true && true) = _
  simp only [Bool.and_true]
@[simp] theorem Instr.wf_dispatch (x0 : Nat) : (Instr.dispatch x0).wf = true := rfl
@[simp] theorem Instr.wf_fedItemStart (c : Nat) (x1 : Nat) : (Instr.fedItemStart c x1).wf = (decide (c < 256)) := by
  show ((decide (c < 256)) && true && true && true && true && true) = _
  simp only [Bool.and_true]
@[simp] theorem Instr.wf_itemStart (c : Nat) (x1 : Nat) : (Instr.itemStart c x1).wf = (decide (c < 256)) := by
  show ((decide (c < 256)) && true && true && true && true && true) = _
  simp only [Bool.and_true]
@[simp] theorem Instr.wf_bundleIssue (c : Nat) (x1 : Nat) : (Instr.bundleIssue c x1).wf = (decide (c < 256)) := by
  show ((decide (c < 256)) && true && true && true && true && true) = _
  simp only [Bool.and_true]
@[simp] theorem Instr.wf_resultVisible (c : Nat) : (Instr.resultVisible c).wf = (decide (c < 256)) := by
  show ((decide (c < 256)) && true && true && true && true && true) = _
  simp only [Bool.and_true]
@[simp] theorem Instr.wf_storeCommit (c : Nat) : (Instr.storeCommit c).wf = (decide (c < 256)) := by
  show ((decide (c < 256)) && true && true && true && true && true) = _
  simp only [Bool.and_true]
@[simp] theorem Instr.wf_loopClose (c : Nat) : (Instr.loopClose c).wf = (decide (c < 256)) := by
  show ((decide (c < 256)) && true && true && true && true && true) = _
  simp only [Bool.and_true]
@[simp] theorem Instr.wf_eccDoubleBitInterrupt (c : Nat) (x1 : Nat) : (Instr.eccDoubleBitInterrupt c x1).wf = (decide (c < 256)) := by
  show ((decide (c < 256)) && true && true && true && true && true) = _
  simp only [Bool.and_true]
@[simp] theorem Instr.wf_arithmeticTrap (c : Nat) (x1 : Nat) : (Instr.arithmeticTrap c x1).wf = (decide (c < 256)) := by
  show ((decide (c < 256)) && true && true && true && true && true) = _
  simp only [Bool.and_true]
@[simp] theorem Instr.wf_budgetOverrun (c : Nat) (x1 : Nat) : (Instr.budgetOverrun c x1).wf = (decide (c < 256)) := by
  show ((decide (c < 256)) && true && true && true && true && true) = _
  simp only [Bool.and_true]
@[simp] theorem Instr.wf_debugBreak (c : Nat) : (Instr.debugBreak c).wf = (decide (c < 256)) := by
  show ((decide (c < 256)) && true && true && true && true && true) = _
  simp only [Bool.and_true]
@[simp] theorem Instr.wf_hostDebugRequest (c : Nat) : (Instr.hostDebugRequest c).wf = (decide (c < 256)) := by
  show ((decide (c < 256)) && true && true && true && true && true) = _
  simp only [Bool.and_true]
@[simp] theorem Instr.wf_handlerEnd (c : Nat) (x1 : Nat) : (Instr.handlerEnd c x1).wf = (decide (c < 256)) := by
  show ((decide (c < 256)) && true && true && true && true && true) = _
  simp only [Bool.and_true]
@[simp] theorem Instr.wf_retiBankSwitch (c : Nat) (x1 : Nat) : (Instr.retiBankSwitch c x1).wf = (decide (c < 256)) := by
  show ((decide (c < 256)) && true && true && true && true && true) = _
  simp only [Bool.and_true]
@[simp] theorem Instr.wf_handshakeTimeout (c : Nat) (x1 : Nat) : (Instr.handshakeTimeout c x1).wf = (decide (c < 256)) := by
  show ((decide (c < 256)) && true && true && true && true && true) = _
  simp only [Bool.and_true]
@[simp] theorem Instr.wf_dmaCellAccess (c : Nat) (off : Nat) (x2 : Bool) (data : List Byte) (len : Nat) : (Instr.dmaCellAccess c off x2 data len).wf = (decide (c < 256) && decide (off < 0x100000) && decide (data.length ≤ 512 - off % 512) && decide (len ≤ 512 - off % 512)) := by
  show ((decide (c < 256) && decide (off < 0x100000) && decide (data.length ≤ 512 - off % 512) && decide (len ≤ 512 - off % 512)) && true && true && true && true && true) = _
  simp only [Bool.and_true]
@[simp] theorem Instr.wf_cellScrub (c : Nat) (off : Nat) (x2 : Nat) : (Instr.cellScrub c off x2).wf = (decide (c < 256) && decide (off < 0x40000)) := by
  show ((decide (c < 256) && decide (off < 0x40000)) && true && true && true && true && true) = _
  simp only [Bool.and_true]
@[simp] theorem Instr.wf_errorWindowRoll (x0 : Bool) : (Instr.errorWindowRoll x0).wf = true := rfl
@[simp] theorem Instr.wf_rotatingSelfTest (c : Nat) : (Instr.rotatingSelfTest c).wf = (decide (c < 256)) := by
  show ((decide (c < 256)) && true && true && true && true && true) = _
  simp only [Bool.and_true]
@[simp] theorem Instr.wf_executorStallFence (dma : Bool) (u : Nat) (x2 : Nat) : (Instr.executorStallFence dma u x2).wf = (decide (u < if dma then 8 else 32)) := by
  show ((decide (u < if dma then 8 else 32)) && true && true && true && true && true) = _
  simp only [Bool.and_true]
@[simp] theorem Instr.wf_executorErrorResponse (i : Nat) (x1 : Nat) : (Instr.executorErrorResponse i x1).wf = (decide (i < 16384)) := by
  show ((decide (i < 16384)) && true && true && true && true && true) = _
  simp only [Bool.and_true]
@[simp] theorem Instr.wf_paceMonitorSample (r : Nat) (m : Nat) (v : Nat) : (Instr.paceMonitorSample r m v).wf = (decide (r < 4) && decide (m < 4) && decide (v < 65536)) := by
  show ((decide (r < 4) && decide (m < 4) && decide (v < 65536)) && true && true && true && true && true) = _
  simp only [Bool.and_true]
@[simp] theorem Instr.wf_pmbusWriteComplete (x0 : Bool) : (Instr.pmbusWriteComplete x0).wf = true := rfl
@[simp] theorem Instr.wf_lockstepMismatch (x0 : Bool) : (Instr.lockstepMismatch x0).wf = true := rfl
@[simp] theorem Instr.wf_zeroCrossingCut (t : Nat) (x1 : Nat) : (Instr.zeroCrossingCut t x1).wf = (decide (t < 0x3400)) := by
  show (true && (decide (t < 0x3400)) && true && true && true && true) = _
  simp only [Bool.and_true, Bool.true_and]
@[simp] theorem Instr.wf_zcTimeout (t : Nat) (x1 : Nat) : (Instr.zcTimeout t x1).wf = (decide (t < 0x3400)) := by
  show (true && (decide (t < 0x3400)) && true && true && true && true) = _
  simp only [Bool.and_true, Bool.true_and]
@[simp] theorem Instr.wf_fadeEnd (t : Nat) (x1 : Nat) : (Instr.fadeEnd t x1).wf = (decide (t < 0x3400)) := by
  show (true && (decide (t < 0x3400)) && true && true && true && true) = _
  simp only [Bool.and_true, Bool.true_and]
@[simp] theorem Instr.wf_fallbackReturn (t : Nat) : (Instr.fallbackReturn t).wf = (decide (t < 0x3400)) := by
  show (true && (decide (t < 0x3400)) && true && true && true && true) = _
  simp only [Bool.and_true, Bool.true_and]
@[simp] theorem Instr.wf_reversion (t : Nat) : (Instr.reversion t).wf = (decide (t < 0x3400)) := by
  show (true && (decide (t < 0x3400)) && true && true && true && true) = _
  simp only [Bool.and_true, Bool.true_and]
@[simp] theorem Instr.wf_asrcLock (ch : Nat) (x1 : Nat) : (Instr.asrcLock ch x1).wf = (decide (ch < 256)) := by
  show (true && (decide (ch < 256)) && true && true && true && true) = _
  simp only [Bool.and_true, Bool.true_and]
@[simp] theorem Instr.wf_asrcUnlock (ch : Nat) : (Instr.asrcUnlock ch).wf = (decide (ch < 256)) := by
  show (true && (decide (ch < 256)) && true && true && true && true) = _
  simp only [Bool.and_true, Bool.true_and]
@[simp] theorem Instr.wf_asrcRange (ch : Nat) (x1 : Nat) : (Instr.asrcRange ch x1).wf = (decide (ch < 256)) := by
  show (true && (decide (ch < 256)) && true && true && true && true) = _
  simp only [Bool.and_true, Bool.true_and]
@[simp] theorem Instr.wf_gainZeroCrossingStep (g : Nat) (x1 : Nat) : (Instr.gainZeroCrossingStep g x1).wf = (decide (g < 0x110000)) := by
  show (true && (decide (g < 0x110000)) && true && true && true && true) = _
  simp only [Bool.and_true, Bool.true_and]
@[simp] theorem Instr.wf_gainTimeout (g : Nat) (x1 : Nat) : (Instr.gainTimeout g x1).wf = (decide (g < 0x110000)) := by
  show (true && (decide (g < 0x110000)) && true && true && true && true) = _
  simp only [Bool.and_true, Bool.true_and]
@[simp] theorem Instr.wf_rampEnd (g : Nat) (x1 : Nat) : (Instr.rampEnd g x1).wf = (decide (g < 0x110000)) := by
  show (true && (decide (g < 0x110000)) && true && true && true && true) = _
  simp only [Bool.and_true, Bool.true_and]
@[simp] theorem Instr.wf_loudnessStep (ms : List Nat) : (Instr.loudnessStep ms).wf = (ms.all fun m => decide (m < 64)) := by
  show (true && (ms.all fun m => decide (m < 64)) && true && true && true && true) = _
  simp only [Bool.and_true, Bool.true_and]
@[simp] theorem Instr.wf_automixUpdate (gs : List Nat) : (Instr.automixUpdate gs).wf = (gs.all fun g => decide (g < 32)) := by
  show (true && (gs.all fun g => decide (g < 32)) && true && true && true && true) = _
  simp only [Bool.and_true, Bool.true_and]
@[simp] theorem Instr.wf_duckHoldExpiry (r : Nat) : (Instr.duckHoldExpiry r).wf = (decide (r < 32)) := by
  show (true && (decide (r < 32)) && true && true && true && true) = _
  simp only [Bool.and_true, Bool.true_and]
@[simp] theorem Instr.wf_nop (d : Dir) : (Instr.nop d).wf = (d.wf) := by
  show (true && true && (d.wf) && true && true && true) = _
  simp only [Bool.and_true, Bool.true_and]
@[simp] theorem Instr.wf_fence (d : Dir) : (Instr.fence d).wf = (d.wf) := by
  show (true && true && (d.wf) && true && true && true) = _
  simp only [Bool.and_true, Bool.true_and]
@[simp] theorem Instr.wf_fenceComplete (k : Nat) : (Instr.fenceComplete k).wf = (decide (k < 8)) := by
  show (true && true && (decide (k < 8)) && true && true && true) = _
  simp only [Bool.and_true, Bool.true_and]
@[simp] theorem Instr.wf_query (d : Dir) : (Instr.query d).wf = (d.wf) := by
  show (true && true && (d.wf) && true && true && true) = _
  simp only [Bool.and_true, Bool.true_and]
@[simp] theorem Instr.wf_resetFn (d : Dir) : (Instr.resetFn d).wf = (d.wf) := by
  show (true && true && (d.wf) && true && true && true) = _
  simp only [Bool.and_true, Bool.true_and]
@[simp] theorem Instr.wf_resetFnComplete (x0 : Nat) (x1 : Nat) (x2 : Bool) : (Instr.resetFnComplete x0 x1 x2).wf = true := rfl
@[simp] theorem Instr.wf_txnOpen (d : Dir) : (Instr.txnOpen d).wf = (d.wf) := by
  show (true && true && (d.wf) && true && true && true) = _
  simp only [Bool.and_true, Bool.true_and]
@[simp] theorem Instr.wf_staging (op : Nat) (d : Dir) : (Instr.staging op d).wf = (decide (op < 256) && d.wf) := by
  show (true && true && (decide (op < 256) && d.wf) && true && true && true) = _
  simp only [Bool.and_true, Bool.true_and]
@[simp] theorem Instr.wf_txnCommit (d : Dir) : (Instr.txnCommit d).wf = (d.wf) := by
  show (true && true && (d.wf) && true && true && true) = _
  simp only [Bool.and_true, Bool.true_and]
@[simp] theorem Instr.wf_txnAcknowledge (k : Nat) : (Instr.txnAcknowledge k).wf = (decide (k < 8)) := by
  show (true && true && (decide (k < 8)) && true && true && true) = _
  simp only [Bool.and_true, Bool.true_and]
@[simp] theorem Instr.wf_txnAbort (d : Dir) : (Instr.txnAbort d).wf = (d.wf) := by
  show (true && true && (d.wf) && true && true && true) = _
  simp only [Bool.and_true, Bool.true_and]
@[simp] theorem Instr.wf_transactionIdleAbandon (k : Nat) : (Instr.transactionIdleAbandon k).wf = (decide (k < 8)) := by
  show (true && true && (decide (k < 8)) && true && true && true) = _
  simp only [Bool.and_true, Bool.true_and]
@[simp] theorem Instr.wf_loadProg (d : Dir) : (Instr.loadProg d).wf = (d.wf) := by
  show (true && true && (d.wf) && true && true && true) = _
  simp only [Bool.and_true, Bool.true_and]
@[simp] theorem Instr.wf_defItem (d : Dir) : (Instr.defItem d).wf = (d.wf) := by
  show (true && true && (d.wf) && true && true && true) = _
  simp only [Bool.and_true, Bool.true_and]
@[simp] theorem Instr.wf_link (d : Dir) : (Instr.link d).wf = (d.wf) := by
  show (true && true && (d.wf) && true && true && true) = _
  simp only [Bool.and_true, Bool.true_and]
@[simp] theorem Instr.wf_admitGraph (d : Dir) : (Instr.admitGraph d).wf = (d.wf) := by
  show (true && true && (d.wf) && true && true && true) = _
  simp only [Bool.and_true, Bool.true_and]
@[simp] theorem Instr.wf_admissionResult (k : Nat) : (Instr.admissionResult k).wf = (decide (k < 8)) := by
  show (true && true && (decide (k < 8)) && true && true && true) = _
  simp only [Bool.and_true, Bool.true_and]
@[simp] theorem Instr.wf_route (d : Dir) : (Instr.route d).wf = (d.wf) := by
  show (true && true && (d.wf) && true && true && true) = _
  simp only [Bool.and_true, Bool.true_and]
@[simp] theorem Instr.wf_fallback (d : Dir) : (Instr.fallback d).wf = (d.wf) := by
  show (true && true && (d.wf) && true && true && true) = _
  simp only [Bool.and_true, Bool.true_and]
@[simp] theorem Instr.wf_align (d : Dir) : (Instr.align d).wf = (d.wf) := by
  show (true && true && (d.wf) && true && true && true) = _
  simp only [Bool.and_true, Bool.true_and]
@[simp] theorem Instr.wf_setGain (d : Dir) : (Instr.setGain d).wf = (d.wf) := by
  show (true && true && (d.wf) && true && true && true) = _
  simp only [Bool.and_true, Bool.true_and]
@[simp] theorem Instr.wf_setGainDb (d : Dir) : (Instr.setGainDb d).wf = (d.wf) := by
  show (true && true && (d.wf) && true && true && true) = _
  simp only [Bool.and_true, Bool.true_and]
@[simp] theorem Instr.wf_setSend (d : Dir) : (Instr.setSend d).wf = (d.wf) := by
  show (true && true && (d.wf) && true && true && true) = _
  simp only [Bool.and_true, Bool.true_and]
@[simp] theorem Instr.wf_writeParam (d : Dir) : (Instr.writeParam d).wf = (d.wf) := by
  show (true && true && (d.wf) && true && true && true) = _
  simp only [Bool.and_true, Bool.true_and]
@[simp] theorem Instr.wf_parameterMirrorEnd (r : Nat) : (Instr.parameterMirrorEnd r).wf = (decide (r < 4)) := by
  show (true && true && (decide (r < 4)) && true && true && true) = _
  simp only [Bool.and_true, Bool.true_and]
@[simp] theorem Instr.wf_portCfg (d : Dir) : (Instr.portCfg d).wf = (d.wf) := by
  show (true && true && (d.wf) && true && true && true) = _
  simp only [Bool.and_true, Bool.true_and]
@[simp] theorem Instr.wf_groupStart (d : Dir) : (Instr.groupStart d).wf = (d.wf) := by
  show (true && true && (d.wf) && true && true && true) = _
  simp only [Bool.and_true, Bool.true_and]
@[simp] theorem Instr.wf_groupStop (d : Dir) : (Instr.groupStop d).wf = (d.wf) := by
  show (true && true && (d.wf) && true && true && true) = _
  simp only [Bool.and_true, Bool.true_and]
@[simp] theorem Instr.wf_refCfg (d : Dir) : (Instr.refCfg d).wf = (d.wf) := by
  show (true && true && (d.wf) && true && true && true) = _
  simp only [Bool.and_true, Bool.true_and]
@[simp] theorem Instr.wf_refPrio (d : Dir) : (Instr.refPrio d).wf = (d.wf) := by
  show (true && true && (d.wf) && true && true && true) = _
  simp only [Bool.and_true, Bool.true_and]
@[simp] theorem Instr.wf_streamTx (d : Dir) : (Instr.streamTx d).wf = (d.wf) := by
  show (true && true && (d.wf) && true && true && true) = _
  simp only [Bool.and_true, Bool.true_and]
@[simp] theorem Instr.wf_streamRx (d : Dir) : (Instr.streamRx d).wf = (d.wf) := by
  show (true && true && (d.wf) && true && true && true) = _
  simp only [Bool.and_true, Bool.true_and]
@[simp] theorem Instr.wf_ptpCfgInstance (d : Dir) : (Instr.ptpCfgInstance d).wf = (d.wf) := by
  show (true && true && (d.wf) && true && true && true) = _
  simp only [Bool.and_true, Bool.true_and]
@[simp] theorem Instr.wf_ptpCfgTime (d : Dir) : (Instr.ptpCfgTime d).wf = (d.wf) := by
  show (true && true && (d.wf) && true && true && true) = _
  simp only [Bool.and_true, Bool.true_and]
@[simp] theorem Instr.wf_ptpCfgServo (d : Dir) : (Instr.ptpCfgServo d).wf = (d.wf) := by
  show (true && true && (d.wf) && true && true && true) = _
  simp only [Bool.and_true, Bool.true_and]
@[simp] theorem Instr.wf_ptpCfgRemap (d : Dir) : (Instr.ptpCfgRemap d).wf = (d.wf) := by
  show (true && true && (d.wf) && true && true && true) = _
  simp only [Bool.and_true, Bool.true_and]
@[simp] theorem Instr.wf_ptpCfgLatency (d : Dir) : (Instr.ptpCfgLatency d).wf = (d.wf) := by
  show (true && true && (d.wf) && true && true && true) = _
  simp only [Bool.and_true, Bool.true_and]
@[simp] theorem Instr.wf_ptpCfgPulse (d : Dir) : (Instr.ptpCfgPulse d).wf = (d.wf) := by
  show (true && true && (d.wf) && true && true && true) = _
  simp only [Bool.and_true, Bool.true_and]
@[simp] theorem Instr.wf_fabCfgNode (d : Dir) : (Instr.fabCfgNode d).wf = (d.wf) := by
  show (true && true && (d.wf) && true && true && true) = _
  simp only [Bool.and_true, Bool.true_and]
@[simp] theorem Instr.wf_fabCfgLink (d : Dir) : (Instr.fabCfgLink d).wf = (d.wf) := by
  show (true && true && (d.wf) && true && true && true) = _
  simp only [Bool.and_true, Bool.true_and]
@[simp] theorem Instr.wf_fabCfgExclude (d : Dir) : (Instr.fabCfgExclude d).wf = (d.wf) := by
  show (true && true && (d.wf) && true && true && true) = _
  simp only [Bool.and_true, Bool.true_and]
@[simp] theorem Instr.wf_fabCfgReadmit (d : Dir) : (Instr.fabCfgReadmit d).wf = (d.wf) := by
  show (true && true && (d.wf) && true && true && true) = _
  simp only [Bool.and_true, Bool.true_and]
@[simp] theorem Instr.wf_fabSlot (d : Dir) : (Instr.fabSlot d).wf = (d.wf) := by
  show (true && true && (d.wf) && true && true && true) = _
  simp only [Bool.and_true, Bool.true_and]
@[simp] theorem Instr.wf_pairCfgPair (d : Dir) : (Instr.pairCfgPair d).wf = (d.wf) := by
  show (true && true && (d.wf) && true && true && true) = _
  simp only [Bool.and_true, Bool.true_and]
@[simp] theorem Instr.wf_pairCfgOutputGroup (d : Dir) : (Instr.pairCfgOutputGroup d).wf = (d.wf) := by
  show (true && true && (d.wf) && true && true && true) = _
  simp only [Bool.and_true, Bool.true_and]
@[simp] theorem Instr.wf_pairSyncResync (d : Dir) : (Instr.pairSyncResync d).wf = (d.wf) := by
  show (true && true && (d.wf) && true && true && true) = _
  simp only [Bool.and_true, Bool.true_and]
@[simp] theorem Instr.wf_pairSyncHandover (d : Dir) : (Instr.pairSyncHandover d).wf = (d.wf) := by
  show (true && true && (d.wf) && true && true && true) = _
  simp only [Bool.and_true, Bool.true_and]
@[simp] theorem Instr.wf_sceneStore (d : Dir) : (Instr.sceneStore d).wf = (d.wf) := by
  show (true && true && (d.wf) && true && true && true) = _
  simp only [Bool.and_true, Bool.true_and]
@[simp] theorem Instr.wf_sceneRecall (d : Dir) : (Instr.sceneRecall d).wf = (d.wf) := by
  show (true && true && (d.wf) && true && true && true) = _
  simp only [Bool.and_true, Bool.true_and]
@[simp] theorem Instr.wf_sceneDelete (d : Dir) : (Instr.sceneDelete d).wf = (d.wf) := by
  show (true && true && (d.wf) && true && true && true) = _
  simp only [Bool.and_true, Bool.true_and]
@[simp] theorem Instr.wf_meterCfg (d : Dir) : (Instr.meterCfg d).wf = (d.wf) := by
  show (true && true && (d.wf) && true && true && true) = _
  simp only [Bool.and_true, Bool.true_and]
@[simp] theorem Instr.wf_loudCfg (d : Dir) : (Instr.loudCfg d).wf = (d.wf) := by
  show (true && true && (d.wf) && true && true && true) = _
  simp only [Bool.and_true, Bool.true_and]
@[simp] theorem Instr.wf_automixCfg (d : Dir) : (Instr.automixCfg d).wf = (d.wf) := by
  show (true && true && (d.wf) && true && true && true) = _
  simp only [Bool.and_true, Bool.true_and]
@[simp] theorem Instr.wf_minusCfg (d : Dir) : (Instr.minusCfg d).wf = (d.wf) := by
  show (true && true && (d.wf) && true && true && true) = _
  simp only [Bool.and_true, Bool.true_and]
@[simp] theorem Instr.wf_genCfg (d : Dir) : (Instr.genCfg d).wf = (d.wf) := by
  show (true && true && (d.wf) && true && true && true) = _
  simp only [Bool.and_true, Bool.true_and]
@[simp] theorem Instr.wf_prepare (x0 : Nat) (x1 : Nat) (n : Nat) : (Instr.prepare x0 x1 n).wf = (decide (n < 64)) := by
  show (true && true && (decide (n < 64)) && true && true && true) = _
  simp only [Bool.and_true, Bool.true_and]
@[simp] theorem Instr.wf_prepared (x0 : Nat) (n : Nat) (x2 : Nat) : (Instr.prepared x0 n x2).wf = (decide (n < 64)) := by
  show (true && true && (decide (n < 64)) && true && true && true) = _
  simp only [Bool.and_true, Bool.true_and]
@[simp] theorem Instr.wf_fabricPrepareDeadline (x0 : Nat) (x1 : Nat) : (Instr.fabricPrepareDeadline x0 x1).wf = true := rfl
@[simp] theorem Instr.wf_allPrepared (x0 : Nat) : (Instr.allPrepared x0).wf = true := rfl
@[simp] theorem Instr.wf_abort (x0 : Nat) : (Instr.abort x0).wf = true := rfl
@[simp] theorem Instr.wf_inDoubtEntry (x0 : Nat) : (Instr.inDoubtEntry x0).wf = true := rfl
@[simp] theorem Instr.wf_inDoubtTimeout (x0 : Nat) (x1 : Bool) : (Instr.inDoubtTimeout x0 x1).wf = true := rfl
@[simp] theorem Instr.wf_lateApplyReport (x0 : Nat) (n : Nat) (x2 : Nat) : (Instr.lateApplyReport x0 n x2).wf = (decide (n < 64)) := by
  show (true && true && (decide (n < 64)) && true && true && true) = _
  simp only [Bool.and_true, Bool.true_and]
@[simp] theorem Instr.wf_portWordCapture (p : Nat) (ch : Nat) (w : Nat) (x3 : Int) (x4 : Nat) : (Instr.portWordCapture p ch w x3 x4).wf = (decide (p < 60) && decide (ch < 64) && (isWord w || (decide (32 ≤ p) && decide (p < 40) && decide (w < 2 ^ 128)))) := by
  show (true && true && true && (decide (p < 60) && decide (ch < 64) && (isWord w || (decide (32 ≤ p) && decide (p < 40) && decide (w < 2 ^ 128)))) && true && true) = _
  simp only [Bool.and_true, Bool.true_and]
@[simp] theorem Instr.wf_qualification (p : Nat) (x1 : Int) : (Instr.qualification p x1).wf = (decide (p < 60)) := by
  show (true && true && true && (decide (p < 60)) && true && true) = _
  simp only [Bool.and_true, Bool.true_and]
@[simp] theorem Instr.wf_clockStopDetect (p : Nat) : (Instr.clockStopDetect p).wf = (decide (p < 60)) := by
  show (true && true && true && (decide (p < 60)) && true && true) = _
  simp only [Bool.and_true, Bool.true_and]
@[simp] theorem Instr.wf_glitch (p : Nat) : (Instr.glitch p).wf = (decide (p < 60)) := by
  show (true && true && true && (decide (p < 60)) && true && true) = _
  simp only [Bool.and_true, Bool.true_and]
@[simp] theorem Instr.wf_rateMismatch (p : Nat) (x1 : Int) : (Instr.rateMismatch p x1).wf = (decide (p < 60)) := by
  show (true && true && true && (decide (p < 60)) && true && true) = _
  simp only [Bool.and_true, Bool.true_and]
@[simp] theorem Instr.wf_elasticOverrun (p : Nat) (x1 : Bool) : (Instr.elasticOverrun p x1).wf = (decide (p < 60)) := by
  show (true && true && true && (decide (p < 60)) && true && true) = _
  simp only [Bool.and_true, Bool.true_and]
@[simp] theorem Instr.wf_aes3Subframe (n : Nat) (sub : Nat) (w : Nat) (x3 : Bool) (x4 : Bool) (x5 : Int) (x6 : Nat) : (Instr.aes3Subframe n sub w x3 x4 x5 x6).wf = (decide (n < 16) && decide (sub < 2) && isWord w) := by
  show (true && true && true && (decide (n < 16) && decide (sub < 2) && isWord w) && true && true) = _
  simp only [Bool.and_true, Bool.true_and]
@[simp] theorem Instr.wf_channelStatusBlock (n : Nat) (sub : Nat) (bs : List Byte) (x3 : Bool) : (Instr.channelStatusBlock n sub bs x3).wf = (decide (n < 16) && decide (sub < 2) && bs.length == 24) := by
  show (true && true && true && (decide (n < 16) && decide (sub < 2) && bs.length == 24) && true && true) = _
  simp only [Bool.and_true, Bool.true_and]
@[simp] theorem Instr.wf_startSyncEdge (x0 : Bool) (x1 : Bool) : (Instr.startSyncEdge x0 x1).wf = true := rfl
@[simp] theorem Instr.wf_lossOfSignal (k : Nat) : (Instr.lossOfSignal k).wf = (decide (k < 8)) := by
  show (true && true && true && (decide (k < 8)) && true && true) = _
  simp only [Bool.and_true, Bool.true_and]
@[simp] theorem Instr.wf_frequencyMeasurement (k : Nat) (x1 : Int) : (Instr.frequencyMeasurement k x1).wf = (decide (k < 8)) := by
  show (true && true && true && (decide (k < 8)) && true && true) = _
  simp only [Bool.and_true, Bool.true_and]
@[simp] theorem Instr.wf_softAlarmClear (k : Nat) : (Instr.softAlarmClear k).wf = (decide (k < 8)) := by
  show (true && true && true && (decide (k < 8)) && true && true) = _
  simp only [Bool.and_true, Bool.true_and]
@[simp] theorem Instr.wf_wtrExpiry (k : Nat) : (Instr.wtrExpiry k).wf = (decide (k < 8)) := by
  show (true && true && true && (decide (k < 8)) && true && true) = _
  simp only [Bool.and_true, Bool.true_and]
@[simp] theorem Instr.wf_acqEnd (x0 : Int) : (Instr.acqEnd x0).wf = true := rfl
@[simp] theorem Instr.wf_holdoverHistoryRecord (x0 : Int) : (Instr.holdoverHistoryRecord x0).wf = true := rfl
@[simp] theorem Instr.wf_ethFrameReceive (p : Nat) (x1 : List Byte) (x2 : Nat) (x3 : Nat) (x4 : Nat) : (Instr.ethFrameReceive p x1 x2 x3 x4).wf = (decide (p < 3)) := by
  show (true && true && true && (decide (p < 3)) && true && true) = _
  simp only [Bool.and_true, Bool.true_and]
@[simp] theorem Instr.wf_streamLoss (s : Nat) : (Instr.streamLoss s).wf = (decide (s < 512)) := by
  show (true && true && true && (decide (s < 512)) && true && true) = _
  simp only [Bool.and_true, Bool.true_and]
@[simp] theorem Instr.wf_streamRecovery (s : Nat) : (Instr.streamRecovery s).wf = (decide (s < 512)) := by
  show (true && true && true && (decide (s < 512)) && true && true) = _
  simp only [Bool.and_true, Bool.true_and]
@[simp] theorem Instr.wf_pathLoss (s : Nat) (p : Nat) (x2 : Bool) : (Instr.pathLoss s p x2).wf = (decide (s < 512) && decide (p < 2)) := by
  show (true && true && true && (decide (s < 512) && decide (p < 2)) && true && true) = _
  simp only [Bool.and_true, Bool.true_and]
@[simp] theorem Instr.wf_mediaPacketLaunch (w : StreamPath) : (Instr.mediaPacketLaunch w).wf = (decide (w.stream < 512) && decide (w.path < 2)) := by
  show (true && true && true && (decide (w.stream < 512) && decide (w.path < 2)) && true && true) = _
  simp only [Bool.and_true, Bool.true_and]
@[simp] theorem Instr.wf_hostTransmitEntry (p : Nat) (x1 : Nat) : (Instr.hostTransmitEntry p x1).wf = (decide (p < 3)) := by
  show (true && true && true && (decide (p < 3)) && true && true) = _
  simp only [Bool.and_true, Bool.true_and]
@[simp] theorem Instr.wf_syncReceived (i : Nat) (x1 : Int) (x2 : Bool) : (Instr.syncReceived i x1 x2).wf = (decide (i < 2)) := by
  show (true && true && true && (decide (i < 2)) && true && true) = _
  simp only [Bool.and_true, Bool.true_and]
@[simp] theorem Instr.wf_timeStep (x0 : Nat) : (Instr.timeStep x0).wf = true := rfl
@[simp] theorem Instr.wf_announceReceived (i : Nat) (x1 : Announce) : (Instr.announceReceived i x1).wf = (decide (i < 2)) := by
  show (true && true && true && (decide (i < 2)) && true && true) = _
  simp only [Bool.and_true, Bool.true_and]
@[simp] theorem Instr.wf_delayReqReceived (i : Nat) (x1 : Bool) (x2 : Nat) (x3 : Nat) (x4 : Nat) : (Instr.delayReqReceived i x1 x2 x3 x4).wf = (decide (i < 2)) := by
  show (true && true && true && (decide (i < 2)) && true && true) = _
  simp only [Bool.and_true, Bool.true_and]
@[simp] theorem Instr.wf_ptpMessageTransmit (i : Nat) (x1 : Nat) (x2 : Nat) : (Instr.ptpMessageTransmit i x1 x2).wf = (decide (i < 2)) := by
  show (true && true && true && (decide (i < 2)) && true && true) = _
  simp only [Bool.and_true, Bool.true_and]
@[simp] theorem Instr.wf_captureEdge (n : Nat) (x1 : Nat) : (Instr.captureEdge n x1).wf = (decide (n < 4)) := by
  show (true && true && true && (decide (n < 4)) && true && true) = _
  simp only [Bool.and_true, Bool.true_and]
@[simp] theorem Instr.wf_pulseFire (n : Nat) (x1 : Nat) : (Instr.pulseFire n x1).wf = (decide (n < 4)) := by
  show (true && true && true && (decide (n < 4)) && true && true) = _
  simp only [Bool.and_true, Bool.true_and]
@[simp] theorem Instr.wf_blockLock (l : Nat) : (Instr.blockLock l).wf = (decide (l < 4)) := by
  show (true && true && true && true && (decide (l < 4)) && true) = _
  simp only [Bool.and_true, Bool.true_and]
@[simp] theorem Instr.wf_helloReceived (l : Nat) (x1 : Hello) : (Instr.helloReceived l x1).wf = (decide (l < 4)) := by
  show (true && true && true && true && (decide (l < 4)) && true) = _
  simp only [Bool.and_true, Bool.true_and]
@[simp] theorem Instr.wf_linkRetrain (l : Nat) : (Instr.linkRetrain l).wf = (decide (l < 4)) := by
  show (true && true && true && true && (decide (l < 4)) && true) = _
  simp only [Bool.and_true, Bool.true_and]
@[simp] theorem Instr.wf_syncBlockSet (l : Nat) (x1 : SyncSet) : (Instr.syncBlockSet l x1).wf = (decide (l < 4)) := by
  show (true && true && true && true && (decide (l < 4)) && true) = _
  simp only [Bool.and_true, Bool.true_and]
@[simp] theorem Instr.wf_syncMissing (l : Nat) : (Instr.syncMissing l).wf = (decide (l < 4)) := by
  show (true && true && true && true && (decide (l < 4)) && true) = _
  simp only [Bool.and_true, Bool.true_and]
@[simp] theorem Instr.wf_isochronousBlock (l : Nat) (x1 : IsoBlock) : (Instr.isochronousBlock l x1).wf = (decide (l < 4)) := by
  show (true && true && true && true && (decide (l < 4)) && true) = _
  simp only [Bool.and_true, Bool.true_and]
@[simp] theorem Instr.wf_reliableMessage (l : Nat) (x1 : RelMsg) : (Instr.reliableMessage l x1).wf = (decide (l < 4)) := by
  show (true && true && true && true && (decide (l < 4)) && true) = _
  simp only [Bool.and_true, Bool.true_and]
@[simp] theorem Instr.wf_reliableAck (l : Nat) (x1 : Nat) (x2 : Nat) (x3 : Nat) : (Instr.reliableAck l x1 x2 x3).wf = (decide (l < 4)) := by
  show (true && true && true && true && (decide (l < 4)) && true) = _
  simp only [Bool.and_true, Bool.true_and]
@[simp] theorem Instr.wf_reliableRetry (l : Nat) (x1 : Nat) (x2 : Nat) (x3 : Nat) : (Instr.reliableRetry l x1 x2 x3).wf = (decide (l < 4)) := by
  show (true && true && true && true && (decide (l < 4)) && true) = _
  simp only [Bool.and_true, Bool.true_and]
@[simp] theorem Instr.wf_linkFailure (l : Nat) (x1 : Nat) : (Instr.linkFailure l x1).wf = (decide (l < 4)) := by
  show (true && true && true && true && (decide (l < 4)) && true) = _
  simp only [Bool.and_true, Bool.true_and]
@[simp] theorem Instr.wf_failureNotice (n : Nat) (l : Nat) (x2 : List Nat) (x3 : List Nat) : (Instr.failureNotice n l x2 x3).wf = (decide (n < 64) && decide (l < 4)) := by
  show (true && true && true && true && (decide (n < 64) && decide (l < 4)) && true) = _
  simp only [Bool.and_true, Bool.true_and]
@[simp] theorem Instr.wf_rootElection (x0 : List NodeInfo) : (Instr.rootElection x0).wf = true := rfl
@[simp] theorem Instr.wf_routeTableInstall (x0 : Nat) (x1 : List RouteRow) : (Instr.routeTableInstall x0 x1).wf = true := rfl
@[simp] theorem Instr.wf_rerouteAttempt (ch : Nat) (x1 : Bool) (x2 : Bool) : (Instr.rerouteAttempt ch x1 x2).wf = (decide (ch < 2048)) := by
  show (true && true && true && true && (decide (ch < 2048)) && true) = _
  simp only [Bool.and_true, Bool.true_and]
@[simp] theorem Instr.wf_nodeExclusion (n : Nat) : (Instr.nodeExclusion n).wf = (decide (n < 64)) := by
  show (true && true && true && true && (decide (n < 64)) && true) = _
  simp only [Bool.and_true, Bool.true_and]
@[simp] theorem Instr.wf_fabricLockChange (x0 : Bool) (x1 : Int) : (Instr.fabricLockChange x0 x1).wf = true := rfl
@[simp] theorem Instr.wf_lineTestPulse (x0 : Bool) : (Instr.lineTestPulse x0).wf = true := rfl
@[simp] theorem Instr.wf_eclipseSample (x0 : Bool) : (Instr.eclipseSample x0).wf = true := rfl
@[simp] theorem Instr.wf_heartbeatBlock (x0 : Heartbeat) : (Instr.heartbeatBlock x0).wf = true := rfl
@[simp] theorem Instr.wf_inSync (g : Nat) : (Instr.inSync g).wf = (decide (g < 64)) := by
  show (true && true && true && true && (decide (g < 64)) && true) = _
  simp only [Bool.and_true, Bool.true_and]
@[simp] theorem Instr.wf_convergenceTimeout (g : Nat) : (Instr.convergenceTimeout g).wf = (decide (g < 64)) := by
  show (true && true && true && true && (decide (g < 64)) && true) = _
  simp only [Bool.and_true, Bool.true_and]
@[simp] theorem Instr.wf_deadManRelease (x0 : Nat) : (Instr.deadManRelease x0).wf = true := rfl
@[simp] theorem Instr.wf_autoDisarm (x0 : Bool) : (Instr.autoDisarm x0).wf = true := rfl
@[simp] theorem Instr.wf_epochComplete (ps : List EpochPart) (x1 : List (Nat × Int)) : (Instr.epochComplete ps x1).wf = (ps.all fun p => decide (p.region < 4)) := by
  show (true && true && true && true && (ps.all fun p => decide (p.region < 4)) && true) = _
  simp only [Bool.and_true, Bool.true_and]
@[simp] theorem Instr.wf_xbarGrant (x0 : Nat) (ws : List XWant) : (Instr.xbarGrant x0 ws).wf = (ws.all XWant.wf) := by
  show (true && true && true && true && true && (ws.all XWant.wf)) = _
  simp only [Bool.and_self, Bool.true_and]
@[simp] theorem Instr.wf_xbarResponse (x0 : Nat) : (Instr.xbarResponse x0).wf = true := rfl
@[simp] theorem Instr.wf_xbarTimeout (x0 : Nat) : (Instr.xbarTimeout x0).wf = true := rfl
@[simp] theorem Instr.wf_requestParityError (m : Nat) (x1 : Nat) : (Instr.requestParityError m x1).wf = (decide (m < 40)) := by
  show (true && true && true && true && true && (decide (m < 40))) = _
  simp only [Bool.and_self, Bool.true_and]
@[simp] theorem Instr.wf_regionScrub (a : Nat) : (Instr.regionScrub a).wf = (isPatrolled a) := by
  show (true && true && true && true && true && (isPatrolled a)) = _
  simp only [Bool.and_self, Bool.true_and]
@[simp] theorem Instr.wf_temperatureReading (x0 : Option Int) : (Instr.temperatureReading x0).wf = true := rfl
@[simp] theorem Instr.wf_retrainingPause (r : Nat) (x1 : Nat) : (Instr.retrainingPause r x1).wf = (decide (r < 2)) := by
  show (true && true && true && true && true && (decide (r < 2))) = _
  simp only [Bool.and_self, Bool.true_and]
@[simp] theorem Instr.wf_configurationRequest (off : Nat) (x1 : Bool) (v : Nat) : (Instr.configurationRequest off x1 v).wf = (decide (off < 4096) && off % 4 == 0 && isWord v) := by
  show (true && true && true && true && true && (decide (off < 4096) && off % 4 == 0 && isWord v)) = _
  simp only [Bool.and_self, Bool.true_and]
@[simp] theorem Instr.wf_bar0Access (off : Nat) (n : Nat) (x2 : Bool) (x3 : Nat) : (Instr.bar0Access off n x2 x3).wf = (decide (off < 0x10000) && decide (1 ≤ n) && decide (n ≤ 4096)) := by
  show (true && true && true && true && true && (decide (off < 0x10000) && decide (1 ≤ n) && decide (n ≤ 4096))) = _
  simp only [Bool.and_self, Bool.true_and]
@[simp] theorem Instr.wf_bar2Access (off : Nat) (x1 : Bool) (bs : List Byte) (n : Nat) : (Instr.bar2Access off x1 bs n).wf = (decide (off < 0x10000000) && decide (bs.length ≤ 4096) && decide (n ≤ 4096)) := by
  show (true && true && true && true && true && (decide (off < 0x10000000) && decide (bs.length ≤ 4096) && decide (n ≤ 4096))) = _
  simp only [Bool.and_self, Bool.true_and]
@[simp] theorem Instr.wf_linkDown (c : Nat) : (Instr.linkDown c).wf = (decide (c < 5)) := by
  show (true && true && true && true && true && (decide (c < 5))) = _
  simp only [Bool.and_self, Bool.true_and]
@[simp] theorem Instr.wf_msiXMessage (v : Nat) : (Instr.msiXMessage v).wf = (decide (v < 64)) := by
  show (true && true && true && true && true && (decide (v < 64))) = _
  simp only [Bool.and_self, Bool.true_and]
@[simp] theorem Instr.wf_outboundReadError (k : Nat) (x1 : Bool) (x2 : Bool) : (Instr.outboundReadError k x1 x2).wf = (decide (k < 8)) := by
  show (true && true && (decide (k < 8)) && true && true && true) = _
  simp only [Bool.and_true, Bool.true_and]
@[simp] theorem Instr.wf_hostCrTailWrite (k : Nat) (v : Nat) (x2 : List Word64) : (Instr.hostCrTailWrite k v x2).wf = (decide (k < 8) && isWord v) := by
  show (true && true && (decide (k < 8) && isWord v) && true && true && true) = _
  simp only [Bool.and_true, Bool.true_and]
@[simp] theorem Instr.wf_hostCrSeqWrite (k : Nat) (v : Nat) : (Instr.hostCrSeqWrite k v).wf = (decide (k < 8) && isWord v) := by
  show (true && true && (decide (k < 8) && isWord v) && true && true && true) = _
  simp only [Bool.and_true, Bool.true_and]
@[simp] theorem Instr.wf_ringDisable (k : Nat) : (Instr.ringDisable k).wf = (decide (k < 8)) := by
  show (true && true && (decide (k < 8)) && true && true && true) = _
  simp only [Bool.and_true, Bool.true_and]
@[simp] theorem Instr.wf_hostCqHeadWrite (k : Nat) (v : Nat) : (Instr.hostCqHeadWrite k v).wf = (decide (k < 8) && isWord v) := by
  show (true && true && (decide (k < 8) && isWord v) && true && true && true) = _
  simp only [Bool.and_true, Bool.true_and]
@[simp] theorem Instr.wf_sysFrameCfgWrite (v : Nat) : (Instr.sysFrameCfgWrite v).wf = (isWord v) := by
  show (true && true && true && true && true && (isWord v)) = _
  simp only [Bool.and_self, Bool.true_and]
@[simp] theorem Instr.wf_loudResetWrite (k : Nat) (v : Nat) : (Instr.loudResetWrite k v).wf = (decide (k < 2) && isWord v) := by
  show (true && (decide (k < 2) && isWord v) && true && true && true && true) = _
  simp only [Bool.and_true, Bool.true_and]
@[simp] theorem Instr.wf_retainWake (x0 : Bool) : (Instr.retainWake x0).wf = true := rfl
@[simp] theorem Instr.wf_warmResetRequest (v : Nat) : (Instr.warmResetRequest v).wf = (isWord v) := by
  show (true && true && true && true && true && (isWord v)) = _
  simp only [Bool.and_self, Bool.true_and]
@[simp] theorem Instr.wf_powerCycleRequest (v : Nat) : (Instr.powerCycleRequest v).wf = (isWord v) := by
  show (true && true && true && true && true && (isWord v)) = _
  simp only [Bool.and_self, Bool.true_and]
@[simp] theorem Instr.wf_warmReset (x0 : Bool) : (Instr.warmReset x0).wf = true := rfl
@[simp] theorem Instr.wf_coldReset (x0 : Bool) (x1 : Bool) (sel : Nat) (x3 : Bool) : (Instr.coldReset x0 x1 sel x3).wf = (decide (sel < 4)) := by
  show (true && true && true && true && true && (decide (sel < 4))) = _
  simp only [Bool.and_self, Bool.true_and]
@[simp] theorem Instr.wf_bootReady (x0 : Bool) (x1 : BootSlot) (svn : Nat) (x4 : Nat) (cells : List Nat) (units : List (Bool × Nat)) (x7 : Bool) (x8 : BootBoard) : (Instr.bootReady x0 x1 svn x4 cells units x7 x8).wf = (decide (svn < 65536) && cells.all (fun c => decide (c < 256)) && units.all fun u => decide (u.2 < if u.1 then 8 else 32)) := by
  show (true && true && true && true && true && (decide (svn < 65536) && cells.all (fun c => decide (c < 256)) && units.all fun u => decide (u.2 < if u.1 then 8 else 32))) = _
  simp only [Bool.and_self, Bool.true_and]
@[simp] theorem Instr.wf_manifestWrite (v : Nat) : (Instr.manifestWrite v).wf = (isWord v) := by
  show (true && true && true && true && true && (isWord v)) = _
  simp only [Bool.and_self, Bool.true_and]
@[simp] theorem Instr.wf_manifestVerified (x0 : Bool) (x1 : List (Nat × Nat × Nat)) : (Instr.manifestVerified x0 x1).wf = true := rfl
@[simp] theorem Instr.wf_qspiCommand (v : Nat) : (Instr.qspiCommand v).wf = (isWord v) := by
  show (true && true && true && true && true && (isWord v)) = _
  simp only [Bool.and_self, Bool.true_and]
@[simp] theorem Instr.wf_aoPtpSet (x0 : Nat) : (Instr.aoPtpSet x0).wf = true := rfl
@[simp] theorem Instr.wf_supplyMonitorTrip (x0 : Bool) : (Instr.supplyMonitorTrip x0).wf = true := rfl
@[simp] theorem Instr.wf_thermalSample (x0 : Int) : (Instr.thermalSample x0).wf = true := rfl
@[simp] theorem Instr.wf_rcRead (b : Nat) (off : Nat) : (Instr.rcRead b off).wf = (isReg b off) := by
  show (true && true && true && true && true && (isReg b off)) = _
  simp only [Bool.and_self, Bool.true_and]
@[simp] theorem Instr.wf_latchingRead (b : Nat) (off : Nat) (x2 : Nat) : (Instr.latchingRead b off x2).wf = (isReg b off) := by
  show (true && true && true && true && true && (isReg b off)) = _
  simp only [Bool.and_self, Bool.true_and]
@[simp] theorem Instr.wf_registerWrite (b : Nat) (off : Nat) (v : Nat) : (Instr.registerWrite b off v).wf = (isReg b off && isWord v) := by
  show (true && true && true && true && true && (isReg b off && isWord v)) = _
  simp only [Bool.and_self, Bool.true_and]
@[simp] theorem Instr.wf_announceReceiptTimeout (i : Nat) : (Instr.announceReceiptTimeout i).wf = (decide (i < 2)) := by
  show (true && true && true && (decide (i < 2)) && true && true) = _
  simp only [Bool.and_true, Bool.true_and]
@[simp] theorem Instr.wf_ethLinkChange (p : Nat) (x1 : Bool) : (Instr.ethLinkChange p x1).wf = (decide (p < 3)) := by
  show (true && true && true && (decide (p < 3)) && true && true) = _
  simp only [Bool.and_true, Bool.true_and]
@[simp] theorem Instr.wf_pcieLinkUp (sp : Nat) (w : Nat) : (Instr.pcieLinkUp sp w).wf = (decide (1 ≤ sp) && decide (sp ≤ 4) && [1, 2, 4].contains w) := by
  show (true && true && true && true && true && (decide (1 ≤ sp) && decide (sp ≤ 4) && [1, 2, 4].contains w)) = _
  simp only [Bool.and_self, Bool.true_and]
@[simp] theorem Instr.wf_domainLossOfLock (d : Nat) : (Instr.domainLossOfLock d).wf = (decide (d < 9)) := by
  show (true && true && true && true && true && (decide (d < 9))) = _
  simp only [Bool.and_self, Bool.true_and]
@[simp] theorem Instr.wf_executorStateError (dma : Bool) (u : Nat) : (Instr.executorStateError dma u).wf = (decide (u < if dma then 8 else 32)) := by
  show ((decide (u < if dma then 8 else 32)) && true && true && true && true && true) = _
  simp only [Bool.and_true]
@[simp] theorem Instr.wf_subQueueParityError (r : Nat) : (Instr.subQueueParityError r).wf = (decide (r < 4)) := by
  show ((decide (r < 4)) && true && true && true && true && true) = _
  simp only [Bool.and_true]
@[simp] theorem Instr.wf_bridgeProtocolError (b : Nat) : (Instr.bridgeProtocolError b).wf = (decide (b < 32)) := by
  show ((decide (b < 32)) && true && true && true && true && true) = _
  simp only [Bool.and_true]
@[simp] theorem Instr.wf_referenceSignalReturn (k : Nat) : (Instr.referenceSignalReturn k).wf = (decide (k < 8)) := by
  show (true && true && true && (decide (k < 8)) && true && true) = _
  simp only [Bool.and_true, Bool.true_and]
@[simp] theorem Instr.wf_cellSelfTestComplete (x0 : Bool) : (Instr.cellSelfTestComplete x0).wf = true := rfl
@[simp] theorem Instr.wf_boundaryScanTestMode (x0 : Bool) : (Instr.boundaryScanTestMode x0).wf = true := rfl
@[simp] theorem Instr.wf_qspiCommandComplete (x0 : List Byte) : (Instr.qspiCommandComplete x0).wf = true := rfl
@[simp] theorem Instr.wf_frameTick : (Instr.frameTick).wf = true := rfl
@[simp] theorem Instr.wf_lateCheck : (Instr.lateCheck).wf = true := rfl
@[simp] theorem Instr.wf_avsLoop : (Instr.avsLoop).wf = true := rfl
@[simp] theorem Instr.wf_pmbusRetry : (Instr.pmbusRetry).wf = true := rfl
@[simp] theorem Instr.wf_paceDecision : (Instr.paceDecision).wf = true := rfl
@[simp] theorem Instr.wf_reinstatement : (Instr.reinstatement).wf = true := rfl
@[simp] theorem Instr.wf_supervisorRestartEnd : (Instr.supervisorRestartEnd).wf = true := rfl
@[simp] theorem Instr.wf_meterBlockWrite : (Instr.meterBlockWrite).wf = true := rfl
@[simp] theorem Instr.wf_programFetch : (Instr.programFetch).wf = true := rfl
@[simp] theorem Instr.wf_eventsLostPost : (Instr.eventsLostPost).wf = true := rfl
@[simp] theorem Instr.wf_replicationLate : (Instr.replicationLate).wf = true := rfl
@[simp] theorem Instr.wf_selectionRun : (Instr.selectionRun).wf = true := rfl
@[simp] theorem Instr.wf_holdPhaseEnd : (Instr.holdPhaseEnd).wf = true := rfl
@[simp] theorem Instr.wf_acqTimeout : (Instr.acqTimeout).wf = true := rfl
@[simp] theorem Instr.wf_alignEnd : (Instr.alignEnd).wf = true := rfl
@[simp] theorem Instr.wf_dwellEnd : (Instr.dwellEnd).wf = true := rfl
@[simp] theorem Instr.wf_receiveGraceEnd : (Instr.receiveGraceEnd).wf = true := rfl
@[simp] theorem Instr.wf_rootLossElection : (Instr.rootLossElection).wf = true := rfl
@[simp] theorem Instr.wf_roleDecision : (Instr.roleDecision).wf = true := rfl
@[simp] theorem Instr.wf_tideEdge : (Instr.tideEdge).wf = true := rfl
@[simp] theorem Instr.wf_tideLost : (Instr.tideLost).wf = true := rfl
@[simp] theorem Instr.wf_heartbeatLost : (Instr.heartbeatLost).wf = true := rfl
@[simp] theorem Instr.wf_releasedMute : (Instr.releasedMute).wf = true := rfl
@[simp] theorem Instr.wf_takeover : (Instr.takeover).wf = true := rfl
@[simp] theorem Instr.wf_handover : (Instr.handover).wf = true := rfl
@[simp] theorem Instr.wf_epochAbandon : (Instr.epochAbandon).wf = true := rfl
@[simp] theorem Instr.wf_warmGraphStart : (Instr.warmGraphStart).wf = true := rfl
@[simp] theorem Instr.wf_ddrQueueEntry : (Instr.ddrQueueEntry).wf = true := rfl
@[simp] theorem Instr.wf_ddrEntryComplete : (Instr.ddrEntryComplete).wf = true := rfl
@[simp] theorem Instr.wf_trefiTick : (Instr.trefiTick).wf = true := rfl
@[simp] theorem Instr.wf_idleBurst : (Instr.idleBurst).wf = true := rfl
@[simp] theorem Instr.wf_caParityError : (Instr.caParityError).wf = true := rfl
@[simp] theorem Instr.wf_writeCrcError : (Instr.writeCrcError).wf = true := rfl
@[simp] theorem Instr.wf_ddrScrub : (Instr.ddrScrub).wf = true := rfl
@[simp] theorem Instr.wf_selfRefreshEntry : (Instr.selfRefreshEntry).wf = true := rfl
@[simp] theorem Instr.wf_selfRefreshExit : (Instr.selfRefreshExit).wf = true := rfl
@[simp] theorem Instr.wf_runRequest : (Instr.runRequest).wf = true := rfl
@[simp] theorem Instr.wf_quiescentRequest : (Instr.quiescentRequest).wf = true := rfl
@[simp] theorem Instr.wf_retainRequest : (Instr.retainRequest).wf = true := rfl
@[simp] theorem Instr.wf_warmResetDeadline : (Instr.warmResetDeadline).wf = true := rfl
@[simp] theorem Instr.wf_powerCycle : (Instr.powerCycle).wf = true := rfl
@[simp] theorem Instr.wf_go : (Instr.go).wf = true := rfl
@[simp] theorem Instr.wf_commitsvn : (Instr.commitsvn).wf = true := rfl
@[simp] theorem Instr.wf_oscInLoss : (Instr.oscInLoss).wf = true := rfl
@[simp] theorem Instr.wf_oscInRestore : (Instr.oscInRestore).wf = true := rfl
@[simp] theorem Instr.wf_fxLossOfLock : (Instr.fxLossOfLock).wf = true := rfl
@[simp] theorem Instr.wf_thermalTrip : (Instr.thermalTrip).wf = true := rfl
@[simp] theorem Instr.wf_thermalTripRelease : (Instr.thermalTripRelease).wf = true := rfl
@[simp] theorem Instr.wf_vbatLoss : (Instr.vbatLoss).wf = true := rfl
@[simp] theorem Instr.wf_hostPushTimeout : (Instr.hostPushTimeout).wf = true := rfl

end Sys2Proof
end

