-- ==== Sys2Proof/Tests/Slice0.lean ====
section
/-! SUPPORT. The model's own tests: commands that do not exist are refused; for every statement a state and operands that meet its
premises; and small steps. Expected values come from the rules named. -/
namespace Sys2Proof.Machine

set_option Elab.async false

/-- An engine right after reset but for some register fields. -/
def regsE (l : List (Fld × Nat × Nat)) : Engine := l.foldl (fun e x => setF x.1 x.2.1 x.2.2 e) Engine.reset

/-- The state with an engine and no command that waits. -/
def onE (e : Engine) : State := ⟨[], e⟩

/-- The command is carried out, and the engine after it satisfies `p`. -/
def gives (c : Instr) (s : State) (p : Engine → Bool) : Bool :=
  match exec c s with
  | .next t => p t.e
  | _ => false

/-- The command is refused because its operands name nothing. -/
def illFormed (c : Instr) : Bool :=
  match exec c State.reset with
  | .refused (.illFormed _) => true
  | _ => false

/-! ### Commands that do not exist -/

theorem test_illformed_cells :
    ([.bundleIssue 256 0, .resultVisible 256, .storeCommit 256, .loopClose 256, .eccDoubleBitInterrupt 256 0, .arithmeticTrap 256 0,
      .budgetOverrun 256 0, .debugBreak 256, .hostDebugRequest 256, .handlerEnd 256 0, .retiBankSwitch 256 0, .handshakeTimeout 256 0,
      .itemStart 256 0, .fedItemStart 256 0, .rotatingSelfTest 256, .dmaCellAccess 256 0 false [] 4, .dmaCellAccess 0 0x100000 false [] 4,
      .dmaCellAccess 0 508 false [] 5, .dmaCellAccess 0 511 true [0, 0] 0, .cellScrub 256 0 0, .cellScrub 0 0x40000 0,
      .executorStallFence true 8 0, .executorStallFence false 32 0, .executorStateError true 8, .executorStateError false 32,
      .executorErrorResponse 16384 0, .itemCompletion 16384 0 [], .bridgeProtocolError 32, .subQueueParityError 4, .paceMonitorSample 4 0 0,
      .paceMonitorSample 0 4 0, .paceMonitorSample 0 0 65536] : List Instr).all illFormed = true := by decide

theorem test_illformed_mix :
    ([.zeroCrossingCut 0x3400 0, .zcTimeout 0x3400 0, .fadeEnd 0x3400 0, .fallbackReturn 0x3400, .reversion 0x3400, .asrcLock 256 0,
      .asrcUnlock 256, .asrcRange 256 0, .gainZeroCrossingStep 0x110000 0, .gainTimeout 0x110000 0, .rampEnd 0x110000 0, .loudResetWrite 2 0,
      .loudResetWrite 0 (2 ^ 32), .duckHoldExpiry 32, .loudnessStep [0, 64], .automixUpdate [32]] : List Instr).all illFormed = true := by
  decide

theorem test_illformed_directives :
    ([.nop ⟨8, 0, 0, []⟩, .fence ⟨0, 2 ^ 32, 0, []⟩, .query ⟨0, 0, 256, []⟩, .route ⟨8, 0, 0, []⟩, .genCfg ⟨0, 2 ^ 32, 0, []⟩,
      .staging 256 ⟨0, 0, 0, []⟩, .staging 1 ⟨8, 0, 0, []⟩, .fenceComplete 8, .txnAcknowledge 8, .transactionIdleAbandon 8, .admissionResult 8,
      .ringDisable 8, .hostCrTailWrite 8 0 [], .hostCrTailWrite 0 (2 ^ 32) [], .hostCrSeqWrite 8 0, .hostCqHeadWrite 0 (2 ^ 32),
      .outboundReadError 8 false false, .parameterMirrorEnd 4, .prepare 0 0 64, .prepared 0 64 0, .lateApplyReport 0 64 0] :
      List Instr).all illFormed = true := by
  decide

theorem test_illformed_ports :
    ([.portWordCapture 60 0 0 0 0, .portWordCapture 0 64 0 0 0, .portWordCapture 0 0 (2 ^ 32) 0 0, .qualification 60 0, .clockStopDetect 60,
      .glitch 60, .rateMismatch 60 0, .elasticOverrun 60 true, .aes3Subframe 16 0 0 false false 0 0, .aes3Subframe 0 2 0 false false 0 0,
      .aes3Subframe 0 0 (2 ^ 32) false false 0 0, .channelStatusBlock 16 0 (List.replicate 24 0) true,
      .channelStatusBlock 0 2 (List.replicate 24 0) true, .channelStatusBlock 0 0 [] true, .lossOfSignal 8, .frequencyMeasurement 8 0,
      .softAlarmClear 8, .wtrExpiry 8, .referenceSignalReturn 8] : List Instr).all illFormed = true := by
  decide

theorem test_illformed_network :
    ([.ethFrameReceive 3 [] 0 0 0, .hostTransmitEntry 3 0, .ethLinkChange 3 true, .streamLoss 512, .streamRecovery 512, .mediaPacketLaunch ⟨512, 0⟩, .mediaPacketLaunch ⟨0, 2⟩,
      .pathLoss 512 0 true, .pathLoss 0 2 true, .syncReceived 2 0 true, .announceReceived 2 ⟨0, 0, 0, 0, 0, 0, 0⟩, .delayReqReceived 2 false 0 0 0,
      .ptpMessageTransmit 2 0 0, .announceReceiptTimeout 2, .captureEdge 4 0, .pulseFire 4 0] : List Instr).all illFormed = true := by
  decide

theorem test_illformed_links :
    ([.blockLock 4, .helloReceived 4 ⟨0, 0, 0, 0, 0, 0, 0⟩, .linkRetrain 4, .syncBlockSet 4 ⟨0, 0, 0, 0, 0, 0, 0, 0, 0, 0⟩, .syncMissing 4,
      .isochronousBlock 4 ⟨0, 0, [], true⟩, .reliableMessage 4 ⟨0, 0, 0, .other⟩, .reliableAck 4 0 0 0, .reliableRetry 4 0 0 0, .linkFailure 4 1,
      .failureNotice 64 0 [] [], .failureNotice 0 4 [] [], .rerouteAttempt 2048 true true, .nodeExclusion 64, .inSync 64,
      .convergenceTimeout 64, .epochComplete [⟨4, []⟩] []] : List Instr).all illFormed = true := by
  decide

theorem test_illformed_host :
    ([.xbarGrant 0 [⟨40, 0, false, 0, 4, [], 0⟩], .xbarGrant 0 [⟨0, 64, false, 0, 4, [], 0⟩], .xbarGrant 0 [⟨0, 0, false, 0, 0, [], 0⟩],
      .xbarGrant 0 [⟨0, 0, false, 510, 4, [], 0⟩], .xbarGrant 0 [⟨0, 0, true, 0, 4, [], 0⟩], .requestParityError 40 0, .regionScrub 0,
      .regionScrub 0x12000000, .retrainingPause 2 0, .configurationRequest 4096 false 0, .configurationRequest 2 false 0,
      .configurationRequest 0 true (2 ^ 32), .bar0Access 0x10000 4 false 0, .bar0Access 0 0 false 0, .bar2Access 0x10000000 false [] 4,
      .bar2Access 0 false [] 4097, .linkDown 5, .msiXMessage 64, .sysFrameCfgWrite (2 ^ 32), .warmResetRequest (2 ^ 32),
      .powerCycleRequest (2 ^ 32), .manifestWrite (2 ^ 32), .qspiCommand (2 ^ 32), .coldReset true true 4 false,
      .bootReady true ⟨false, false⟩ 65536 0 [] [] true ⟨true, false⟩, .bootReady true ⟨false, false⟩ 0 0 [256] [] true ⟨true, false⟩,
      .bootReady true ⟨false, false⟩ 0 0 [] [(true, 8)] true ⟨true, false⟩,
      .rcRead 13 0, .rcRead 0 2, .latchingRead 0 0x8000 0, .registerWrite 0 0 (2 ^ 32), .pcieLinkUp 0 1, .pcieLinkUp 1 3,
      .domainLossOfLock 9] : List Instr).all illFormed = true := by
  decide

theorem test_illformed_length : Dir.wf ⟨0, 0, 0, List.replicate 65536 0⟩ = false := by
  simp only [Dir.wf, List.length_replicate]; rfl

/-! ### The block and its queue -/

theorem witness_StepTakesTheFront :
    (State.mk [.glitch 59, .errorWindowRoll true] Engine.reset).pending = .glitch 59 :: [.errorWindowRoll true]
      ∧ ∃ t, step ⟨[.glitch 59, .errorWindowRoll true], Engine.reset⟩ = .next t ∧ t.pending = [.errorWindowRoll true] := by
  exact ⟨rfl, _, rfl, rfl⟩

theorem witness_EveryCommandCompletes : (Instr.glitch 59).wf = true ∧ (Instr.glitch 60).wf = false := by decide

theorem witness_QueueIsWorkedOff : ((State.mk [.glitch 59, .errorWindowRoll true] Engine.reset).pending.all Instr.wf) = true := by decide

theorem witness_StepKeepsTheQueue :
    ((State.mk [.glitch 59, .errorWindowRoll true] Engine.reset).pending.all Instr.wf) = true
      ∧ ∃ t, step ⟨[.glitch 59, .errorWindowRoll true], Engine.reset⟩ = .next t := by
  exact ⟨by decide, _, rfl⟩

theorem witness_StepKeepsMemoryForm :
    Memory.wf (store 0x10000000 [1, 0, 3] Engine.reset).mem = true
      ∧ ∃ t, step ⟨[.glitch 59], store 0x10000000 [1, 0, 3] Engine.reset⟩ = .next t := by
  exact ⟨by decide, _, rfl⟩

theorem witness_HeldEngineIgnoresCommands :
    (Instr.rcRead 0 0).wf = true ∧ { Engine.reset with held := 4 }.held ≠ 0 ∧ reachesHeld (.rcRead 0 0) = false := by decide

theorem witness_EventsReachTheRing :
    let e := store 0 [1] (regsE [(.HOST_EV_CFG_EN, 0, 1), (.HOST_EV_CFG_LOG2, 0, 8)])
    let lost := { e with ctl := { e.ctl with used := [(8, 256)] } }
    evFree e = true ∧ e.ctl.lost = 0 ∧ ([1, 2, 3, 4, 5, 6] : List Nat).length ≤ 6 ∧ (hostAt e (evEntry e) 64).isSome = true
      ∧ evFree lost = false ∧ { e with ctl := { e.ctl with lost := 3 } }.ctl.lost ≠ 0 := by decide

/-! ### The compute cell -/

/-- A cell that runs item 0 with a budget of 100 bundles. -/
def cellC : Cell := { Cell.idle with item := some 0, budget := 100, prim := Bank.start 5 10, hpres := true, hentry := 40 }

/-- The engine right after reset, cell `c` as given. -/
def cellE (c : Nat) (cl : Cell) : Engine := setCell c cl Engine.reset

/-- Item 0 of kind 0, which delivers no signal, runs on cell 0. -/
def runE (cl : Cell) : Engine :=
  setRun 0 { ItemRun.start with st := .running, exec := 0 }
    { cellE 0 cl with sched := { Sched.reset with outs := [(0, some [])] } }

theorem witness_BundleIssueAdvancesTheCell :
    let s := onE (cellE 255 cellC)
    let cl := getCell s.e 255
    s.e.held = 0 ∧ cl.handler = none ∧ settle cl = cl ∧ cl.trap = 0 ∧ canIssue cl = true
      ∧ eccAt s.e (0x100000 * 255 + 0x30000 + 16 * cl.prim.pc.toNat) = 0 ∧ cl.prim.loops = [] ∧ cl.prim.brs = []
      ∧ bundleAt s.e 255 cl.prim.pc.toNat = 0
      ∧ gives (.bundleIssue 255 9) s (fun e => (getCell e 255).now == 1 && (getCell e 255).count == 1 && (getCell e 255).prim.pc == 11
        && (getCell e 255).flights == [] && (getCell e 255).item == some 0) = true := by decide

theorem witness_BundleIssueAdvancesTheCell_any :
    let h := { cellC with handler := some 2, shad := Bank.start 0 40 }
    let s := onE (cellE 0 h)
    let e0 := settleCell 0 s.e
    canIssue (getCell e0 0) = true ∧ eccAt e0 (0x30000 + 16 * 40) < 2 ∧ canIssue (getCell (settleCell 255 (cellE 255 cellC)) 255) = true
      ∧ (cResults (getCell e0 0).shad (slotC (bundleAt e0 0 40)) (getiOf e0 (getCell e0 0) (getCell e0 0).shad)).2 ≠ .waitw
      ∧ gives (.bundleIssue 0 0) s (fun e => (getCell e 0).hcnt == 1 && (getCell e 0).shad.pc == 41 && (getCell e 0).prim == cellC.prim) = true := by
  decide +kernel

theorem witness_ResultsStoresAndLoopsFallDue :
    let f : Flight := ⟨7, false, .d 31 5⟩
    let w : StoreWait := ⟨7, 0x10, [1, 2, 3, 4], false⟩
    let s := fun now => onE (cellE 0 { cellC with flights := [f], now := now })
    let u := fun now => onE (cellE 0 { cellC with stores := [w], now := now })
    let l := onE (cellE 0 { cellC with prim := { cellC.prim with loops := [⟨1, 2, 0, 0⟩, ⟨0, 3, 4, 0⟩] } })
    (getCell (s 7).e 0).flights = [f] ∧ (getCell (s 7).e 0).ended = false ∧ (getCell (s 7).e 0).handler = none
      ∧ gives (.resultVisible 0) (s 7) (fun e => tget 0 (getCell e 0).prim.d 31 == 5 && (getCell e 0).flights == []) = true
      ∧ gives (.resultVisible 0) (s 6) (fun e => tget 0 (getCell e 0).prim.d 31 == 0 && (getCell e 0).flights == [f]) = true
      ∧ (getCell (u 7).e 0).stores = [w] ∧ w.done = false
      ∧ gives (.storeCommit 0) (u 7) (fun e => readBytes e 0x10 4 == [1, 2, 3, 4]) = true
      ∧ gives (.storeCommit 0) (u 6) (fun e => readBytes e 0x10 4 == [0, 0, 0, 0]) = true
      ∧ (getCell l.e 0).prim.loops = [⟨1, 2, 0, 0⟩, ⟨0, 3, 4, 0⟩]
      ∧ gives (.loopClose 0) l (fun e => (getCell e 0).prim.loops == [⟨0, 3, 4, 0⟩] && (getCell e 0).prim.lc == 4) = true := by decide

theorem witness_ResultsStoresAndLoopsFallDue_any :
    let a : Flight := ⟨7, false, .d 31 5⟩
    let w : StoreWait := ⟨7, 0x10, [1, 2, 3, 4], false⟩
    let x : StoreWait := ⟨9, 0x14, [5], false⟩
    let s := onE (cellE 0 { cellC with flights := [a, { a with dest := .d 31 6 }], stores := [w, x], now := 7 })
    let z := onE (cellE 0 { cellC with stores := [w, x], ended := true })
    (getCell s.e 0).ended = false ∧ (getCell z.e 0).ended = true ∧ x.done = false
      ∧ gives (.resultVisible 0) s (fun e => tget 0 (getCell e 0).prim.d 31 == 6) = true
      ∧ gives (.storeCommit 0) s (fun e => readBytes e 0x10 5 == [1, 2, 3, 4, 0]) = true
      ∧ gives (.storeCommit 0) z (fun e => readBytes e 0x10 5 == [1, 2, 3, 4, 5]) = true := by decide +kernel

theorem witness_InterruptsEnterTheHandler :
    let ecc := { cellC with ecc := true }
    let trap := { cellC with trap := 5 }
    let past := { cellC with count := 84 }
    settle ecc = ecc ∧ ecc.hpres = true ∧ dueCause ecc = some 1 ∧ settle trap = trap ∧ dueCause trap = some 2 ∧ settle past = past
      ∧ dueCause past = some 3 ∧ (getCell (cellE 255 trap) 255) = trap
      ∧ gives (.eccDoubleBitInterrupt 255 0) (onE (cellE 255 ecc)) (fun e => (getCell e 255).handler == some 1
        && sReg (getCell e 255).shad 0 == 1 && (getCell e 255).shad.pc == 40 && getF .SYS_CELL_STAT_CAUSE 255 e == 1) = true
      ∧ gives (.arithmeticTrap 0 0) (onE (cellE 0 trap)) (fun e => (getCell e 0).handler == some 2
        && sReg (getCell e 0).shad 0 == 0x52 && sReg (getCell e 0).shad 1 == 10 && getF .SYS_CELL_STAT_STATE 0 e == 2) = true
      ∧ gives (.budgetOverrun 0 0) (onE (cellE 0 past)) (fun e => (getCell e 0).handler == some 3
        && sReg (getCell e 0).shad 0 == 3 && getF .SYS_CELL_STAT_CAUSE 0 e == 3) = true := by decide

theorem witness_InterruptsEnterTheHandler_none :
    let trap := { cellC with trap := 5, hpres := false }
    let s := onE (runE trap)
    dueCause (getCell (settleCell 0 s.e) 0) = some 2 ∧ (getCell (settleCell 0 s.e) 0).hpres = false ∧ dKind (admItem s.e 0) = 0
      ∧ gives (.arithmeticTrap 0 0) s (fun e => (getCell e 0).item == none && (getCell e 0).handler == none
        && getF .SYS_CELL_STAT_CAUSE 0 e == 2) = true := by decide +kernel

theorem witness_DebugEntersTheHandler :
    let brk := { cellC with brk := true }
    let asked := setF .SYS_CELL_STAT_DBG_EN 0 1 (cellE 0 cellC)
    settle brk = brk ∧ brk.hpres = true ∧ breakReady brk = true ∧ settle cellC = cellC ∧ cellC.item ≠ none ∧ cellC.ended = false
      ∧ cellC.handler = none ∧ cellC.prim.brs = [] ∧ dueCause cellC = none ∧ getF .SYS_CELL_STAT_DBG_EN 0 asked = 1
      ∧ gives (.debugBreak 0) (onE (cellE 0 brk)) (fun e => (getCell e 0).handler == some 5 && (getCell e 0).brk == false
        && sReg (getCell e 0).shad 1 == 10) = true
      ∧ gives (.hostDebugRequest 0) (onE asked) (fun e => (getCell e 0).handler == some 5 && getF .SYS_CELL_STAT_CAUSE 0 e == 5) = true := by
  decide

theorem witness_HandlersEnd :
    let dbg := { cellC with handler := some 5, reti := some 2, hcnt := 4, shad := { Bank.start 0 40 with s := [(1, 77)] } }
    let abt := { cellC with handler := some 2, reti := some 2, hcnt := 4 }
    let past := { cellC with handler := some 2, hcnt := 16 }
    settle dbg = dbg ∧ dbg.trap = 0 ∧ dbg.ecc = false ∧ dbg.item = some 0 ∧ retiDue dbg = true ∧ dbg.frameAbort = false
      ∧ settle abt = abt ∧ aborting abt = true ∧ retiDue abt = true ∧ settle past = past ∧ handlerOver past = true
      ∧ (getRun (runE abt) 0).st = .running ∧ (getRun (runE abt) 0).exec = 0 ∧ dKind (admItem (runE abt) 0) = 0
      ∧ succsOf (runE abt).sched.adm (admItem (runE abt) 0) = [] ∧ inState (runE abt) .slot = [] ∧ abt.stores = []
      ∧ fencedCell (runE abt) 0 = false
      ∧ gives (.retiBankSwitch 0 0) (onE (runE dbg)) (fun e => (getCell e 0).handler == none && getF .SYS_CELL_STAT_STATE 0 e == 1) = true
      ∧ gives (.retiBankSwitch 0 0) (onE (runE abt)) (fun e => (getCell e 0).item == none && decide ((getRun e 0).st = .aborted)
        && e.sched.faults == [(0, 0)]) = true
      ∧ gives (.handlerEnd 0 0) (onE (runE past)) (fun e => (getCell e 0).item == none && decide ((getRun e 0).st = .aborted)) = true := by
  decide +kernel

theorem witness_HandlersEnd_any :
    let abt := { cellC with handler := some 2, reti := some 2, hcnt := 4, stores := [⟨0, 16, [1], false⟩] }
    let s := onE (runE abt)
    let cs := getCell (settleCell 0 s.e) 0
    cs.item = some 0 ∧ aborting cs = true ∧ retiDue cs = true ∧ s.e.sched.overflow.contains 0 = false
      ∧ gives (.retiBankSwitch 0 0) s (fun e => decide ((getRun e 0).st = .aborted) && (getCell e 0).item == none) = true := by decide +kernel

/-! ### Errors of cells and executors -/

theorem witness_HandshakeTimeoutFences :
    let s := onE Engine.reset
    fencedCell s.e 255 = false ∧ (getCell s.e 255).item = none ∧ s.e.sched.run = [] ∧ (∀ j, j < 8 → fencedCell s.e (8 * (255 / 8) + j) = false)
      ∧ gives (.handshakeTimeout 255 0) s (fun e => fencedCell e 255 && getF .SYS_HEALTH_CELLS 0 e == 255 && getF .SYS_CELL_STAT_STATE 255 e == 3
        && e.health.recs == [(2, 6, 31, 0)] && e.health.readmit) = true := by decide +kernel

theorem witness_DmaReachesCellMemory :
    let s := onE (store 0x1002FFF8 [9, 8, 7, 6] (store 0x2FFF8 [9, 8, 7, 6] Engine.reset))
    let fenced := onE (markCell 0 Engine.reset)
    let one := setEcc 0x2FFF8 1 s.e
    let two := setEcc 0x2FFFC 2 s.e
    (0x2FFF8 % 4 = 0 ∧ fencedCell s.e 0 = false ∧ s.e.health.bist ≠ some 0 ∧ 0x2FFF8 % 512 + 8 ≤ 512 ∧ 0x2FFF8 + 8 ≤ 0x30000 ∧ s.e.ecc = [])
      ∧ gives (.dmaCellAccess 0 0x2FFF8 false [] 8) s (fun e => tget (0, []) e.xmem.resp 32 == (0, [9, 8, 7, 6, 0, 0, 0, 0])) = true
      ∧ gives (.dmaCellAccess 0 0x2FFFC true [1, 2, 3, 4] 0) s (fun e => readBytes e 0x2FFF8 8 == [9, 8, 7, 6, 1, 2, 3, 4]) = true
      ∧ fencedCell fenced.e 0 = true
      ∧ ((badIn one (unitLo 0x2FFF8) (unitLen 0x2FFF8 8)).all fun g => decide (g.2 < 2)) = true
      ∧ ((badIn two (unitLo 0x2FFF8) (unitLen 0x2FFF8 8)).any fun g => decide (2 ≤ g.2)) = true
      ∧ gives (.dmaCellAccess 0 0x3FFFC false [] 4) fenced (fun e => (tget (0, []) e.xmem.resp 32).1 == 1
        && getF .XBAR_ERR_CODE 0 e == 1 && getF .XBAR_ERR_MASTER 0 e == 32) = true := by decide +kernel

theorem witness_CellScrubCorrects :
    let th := regsE [(.SYS_CELL_THRESH_CORR_PER_S, 0, 0), (.SYS_CELL_THRESH_STUCK, 0, 0), (.SYS_CELL_THRESH_DED_PER_H, 0, 0)]
    let one := setEcc 0x2FFFC 1 th
    let two := setEcc 0x2FFFC 2 th
    let prog := setEcc 0x3FFFC 2 Engine.reset
    fencedCell th 0 = false ∧ eccAt th (gran 0x2FFFC) = 0 ∧ eccAt one (gran 0x2FFFC) = 1 ∧ 2 ≤ eccAt two (gran 0x2FFFC)
      ∧ gran 0x2FFFC % 0x100000 < 0x30000 ∧ one.health.suspect.contains (gran 0x2FFFC) = false
      ∧ gives (.cellScrub 0 0x2FFFC 0) (onE th) (fun e => e.ecc == [] && e.mem == []) = true
      ∧ 2 ≤ eccAt prog (gran 0x3FFFC) ∧ 0x30000 ≤ gran 0x3FFFC % 0x100000 := by
  decide +kernel

theorem witness_ErrorWindowsRoll :
    let h := { Engine.reset with health := { Health.reset with corr := [(255, 3)], unitErr := [(0, 2)] } }
    h.held = 0
      ∧ gives (.errorWindowRoll false) (onE h) (fun e => getF .SYS_CELL_ERR_CORR_1S 255 e == 3 && e.health.corr == []) = true
      ∧ gives (.errorWindowRoll true) (onE h) (fun e => e.health.unitErr == []) = true := by decide +kernel

theorem witness_SelfTestTakesACell :
    let s := onE (regsE [(.HOST_PWR_STAT_STATE, 0, 0), (.SYS_SUP_STAT_STATE, 0, 1), (.SYS_CELL_BIST_INTERVAL, 0, 1)])
    let under := onE { Engine.reset with health := { Health.reset with bist := some 255 } }
    inRun s.e = true ∧ getF .SYS_SUP_STAT_STATE 0 s.e = 1 ∧ getF .SYS_CELL_BIST_INTERVAL 0 s.e ≠ 0 ∧ s.e.health.bist = none
      ∧ unpartitioned s.e 255 = true ∧ fencedCell s.e 255 = false ∧ (getCell s.e 255).item = none
      ∧ under.e.health.bist = some 255 ∧ under.e.sched.caps.contains (.cell 255 5) = false
      ∧ gives (.cellSelfTestComplete false) under (fun e => e.health.bist == none && getF .SYS_CELL_BIST_LAST_CELL 0 e == 255
        && decide (e.sched.caps = [.cell 255 5])) = true
      ∧ gives (.cellSelfTestComplete true) under (fun e => e.health.bist == none && decide (e.sched.caps = [])) = true := by decide +kernel

/-- An item of a kind with no successors, running on an executor. -/
def busyE (kind exec i : Nat) : Engine :=
  let g := { Graph.empty with items := [(i, ⟨BitVec.ofNat 64 (2 ^ 61 * kind + 2 ^ 60), 0, 0, 0⟩)] }
  let e := { Engine.reset with sched := { Sched.reset with adm := g, running := true, first := true, outs := [(i, some [])] } }
  setRun i { ItemRun.start with st := .running, exec := exec } e

theorem witness_ExecutorFaultsAreContained :
    let s := { Engine.reset with health := { Health.reset with unitErr := [(31, 3)] } }
    let b := busyE 1 31 16383
    s.sched.caps = [] ∧ tget 0 s.health.unitErr 31 = 3 ∧ isolatedBlock s 31 = false
      ∧ gives (.executorStateError false 31) (onE s) (fun e => decide (e.sched.caps = [.sum 31 4])) = true
      ∧ gives (.bridgeProtocolError 31) (onE s) (fun e => decide (e.sched.caps = [.block 31 8])) = true
      ∧ fencedSum b 31 = false ∧ runningOn b 1 31 = some 16383 ∧ dKind (admItem b 16383) = 1
      ∧ succsOf b.sched.adm (admItem b 16383) = [] ∧ outsOf b 16383 = [] ∧ (getRun b 16383).st = .running
      ∧ gives (.executorStallFence false 31 0) (onE b) (fun e => fencedSum e 31 && e.sched.faults == [(16383, 7)]
        && e.health.recs == [(4, 13, 0x9001F, 0)]) = true
      ∧ gives (.executorErrorResponse 16383 0) (onE b) (fun e => decide ((getRun e 16383).st = .aborted) && e.sched.faults == [(16383, 6)]) = true := by
  decide +kernel

theorem witness_ExecutorFaultsAreContained_any :
    let s := { Engine.reset with health := { Health.reset with unitErr := [(39, 3)] } }
    let iso := setBitF .SYS_CELL_FENCED_FENCED 8 31 true Engine.reset
    let b := busyE 3 7 16383
    let d := setRun 16383 { getRun b 16383 with err := true } b
    tget 0 s.health.unitErr 39 = 3 ∧ tget 0 s.health.unitErr 38 ≠ 3 ∧ isolatedBlock iso 31 = true ∧ isolatedBlock s 31 = false
      ∧ gives (.executorStateError true 7) (onE s) (fun e => e.sched.caps.contains (.dma 7 4)) = true
      ∧ runningOn b 3 7 = some 16383 ∧ fencedDma b 7 = false ∧ b.sched.overflow.contains 16383 = false
      ∧ gives (.executorStallFence true 7 0) (onE b) (fun e => fencedDma e 7 && e.sched.faults == [(16383, 7)]) = true
      ∧ dKind (admItem d 16383) = 3 ∧ (getRun d 16383).err = true ∧ (getRun d 16383).st = .running
      ∧ gives (.executorErrorResponse 16383 0) (onE d) (fun e => decide ((getRun e 16383).st = .aborted) && e.sched.faults == [(16383, 6)]) = true := by
  decide +kernel

/-! ### The frame and the scheduler -/

theorem witness_FrameTickCounts :
    let s := { Engine.reset with regsNext := [(fkey .SYS_TEMP_TALARM 0, 90)], host := { HostIf.reset with pwrReq := some 1 } }
    s.held = 0 ∧ s.host.pwrReq ≠ some 2 ∧ s.xmem.posted = []
      ∧ ∀ p ∈ s.regsNext, p.1 % 1024 ≠ Fld.ctorIdx .SYS_FRAME_CNT_LO_FRAME ∧ p.1 % 1024 ≠ Fld.ctorIdx .SYS_FRAME_CNT_HI_FRAME := by decide

/-- A scheduler that runs a graph, its items in the states given. -/
def schedE (items : List (Nat × Quad)) (run : List (Nat × ItemRun)) : Engine :=
  { Engine.reset with sched := { Sched.reset with adm := { Graph.empty with items := items }, running := true, first := true, run := run } }

/-- A cell item: kind 0, valid, affinity to blocks 0 and 31, entry `entry`, ARG `arg`, `feeds` feeders. -/
def cellItem (entry arg feeds : Nat) : Quad := ⟨2 ^ 60, BitVec.ofNat 64 (2 ^ 32 * 0x80000001 + entry), BitVec.ofNat 64 arg, BitVec.ofNat 64 (2 ^ 47 * feeds)⟩

theorem witness_DispatchPairsItems :
    let idle := { schedE [] [] with sched := { (schedE [] []).sched with first := false } }
    let s := schedE [(7, cellItem 4095 3 0)] [(7, { ItemRun.start with st := .queued })]
    idle.sched.running = true ∧ idle.sched.first = false ∧ inState idle .queued = [] ∧ idle.sched.overflow = []
      ∧ gives (.firstDispatch 4000) (onE idle) (fun e => e.sched.first) = true
      ∧ s.sched.first = true ∧ inState s .queued = [7] ∧ s.sched.overflow = [] ∧ dKind (admItem s 7) = 0 ∧ dFeeds (admItem s 7) = 0
      ∧ blockedItem s 7 = false ∧ (partOf s (admItem s 7)).find? (idleCell s) = some 0 := by decide +kernel

theorem witness_DispatchPairsItems_any :
    let q : ItemRun := { ItemRun.start with st := .queued }
    let s := schedE [(7, cellItem 4095 3 0), (8, cellItem 4 0 0)] [(7, q), (8, { q with relAt := 1 })]
    firstPair s (sortKey s (inState s .queued)) = some (7, 0) ∧ s.sched.overflow.contains 7 = false ∧ (s.ecc.all fun g => decide (g.2 < 2)) = true
      ∧ gives (.dispatch 4000) (onE s) (fun e => decide ((getRun e 7).st = .held) && (getRun e 8).exec == 1) = true := by decide +kernel

theorem test_dispatch :
    gives (.dispatch 4000) (onE (schedE [(7, cellItem 4095 3 0)] [(7, { ItemRun.start with st := .queued })])) (fun e =>
      decide ((getRun e 7).st = .held) && (getRun e 7).exec == 0 && (getCell e 0).from_ == 4000) = true := by decide +kernel

theorem witness_ItemsStartOnTheirCells :
    let s := schedE [(7, cellItem 4095 3 0)] [(7, { ItemRun.start with st := .held, exec := 255 })]
    let f := schedE [(7, cellItem 4095 3 2)] [(7, { ItemRun.start with st := .held, exec := 255 })]
    nextItem s 255 = some 7 ∧ (getRun s 7).fc = 0 ∧ fencedCell s 255 = false ∧ blockedItem s 7 = false ∧ dFeeds (admItem s 7) = 0
      ∧ eccAt s (0x100000 * 255 + 0x30000 + 16 * (dEntry (admItem s 7) % 4096 - 1)) = 0
      ∧ nextItem f 255 = some 7 ∧ dFeeds (admItem f 7) ≠ 0
      ∧ gives (.itemStart 255 5000) (onE s) (fun e => decide ((getRun e 7).st = .running) && (getCell e 255).item == some 7
        && (getCell e 255).prim.pc == 4095 && sReg (getCell e 255).prim 0 == 3 && getF .SYS_CELL_STAT_ITEM 255 e == 7) = true
      ∧ gives (.fedItemStart 255 5000) (onE f) (fun e => (getCell e 255).item == some 7) = true := by decide +kernel

theorem witness_CompletionReleasesSuccessors :
    let d : Quad := ⟨2 ^ 60, 0, BitVec.ofNat 64 (2 ^ 40 * 65535), BitVec.ofNat 64 (2 ^ 31 + 5)⟩
    let e0 := schedE [(7, d), (9, ⟨2 ^ 61 + 2 ^ 60, 0, 0, 0⟩)] [(7, { ItemRun.start with st := .running, exec := 255 }),
      (9, { ItemRun.start with cnt := 1 })]
    let e1 := { e0 with sched := { e0.sched with adm := { e0.sched.adm with succs := [(5, some ⟨[9], none⟩)] } } }
    let s := setCell 255 { Cell.idle with item := some 7, ended := true } e1
    (getRun s 7).st = .running ∧ (getRun s 7).exec = 255 ∧ dKind (admItem s 7) = 0 ∧ (getCell s 255).item = some 7
      ∧ (getCell s 255).ended = true ∧ (getCell s 255).handler = none ∧ (getCell s 255).stores = [] ∧ (getConc s 0x1000).run = 0
      ∧ fencedCell s 255 = false ∧ inState s .slot = [] ∧ ¬ (dDeadline (admItem s 7) * frameNs s < 65536 * 0)
      ∧ succsOf s.sched.adm (admItem s 7) = [9] ∧ dKind (admItem s 9) = 1 ∧ (getRun s 9).st = .waiting ∧ (getRun s 9).cnt = 1
      ∧ (getRun s 9).fr = 0 ∧ s.sched.shed.contains 9 = false ∧ (inState s .queued).length < 4096
      ∧ gives (.itemCompletion 7 0 [(0x1000, [1, 2])]) (onE s) (fun e => decide ((getRun e 7).st = .done) && getSig e 0x1000 == [1, 2]
        && (getCell e 255).item == none && decide ((getRun e 9).st = .queued)) = true := by decide +kernel

theorem witness_CompletionReleasesSuccessors_any :
    let d : Quad := ⟨2 ^ 61 + 2 ^ 60, 0, 0, 0⟩
    let u := schedE [(7, d)] [(7, { ItemRun.start with st := .running, exec := 3 })]
    let c := setCell 0 { Cell.idle with item := some 7, ended := true } (schedE [(7, cellItem 1 0 0)] [(7, { ItemRun.start with st := .running, exec := 0 })])
    (Instr.itemCompletion 7 0 [(0x1000, [1]), (0x1001, [2])]).wf = true ∧ itemEnded u 7 = true ∧ itemEnded c 7 = true
      ∧ u.sched.overflow.contains 7 = false ∧ dKind (admItem c 7) = 0 ∧ (getConc c 0x1001).run = 0
      ∧ gives (.itemCompletion 7 0 [(0x1000, [1]), (0x1001, [2])]) (onE c) (fun e => getSig e 0x1001 == [2] && (getCell e 0).item == none) = true := by
  decide +kernel

theorem witness_LateItemsAreFound_any :
    let q : ItemRun := { ItemRun.start with st := .queued }
    let s := schedE [(7, ⟨2 ^ 61 + 2 ^ 60, 0, 0, 0⟩), (9, ⟨2 ^ 61 + 2 ^ 60, 0, 0, 0⟩)] [(7, q), (9, q)]
    s.sched.running = true ∧ lateItems s = [7, 9]
      ∧ gives .lateCheck (onE s) (fun e => decide ((getRun e 9).st = .late) && getF .SYS_LATE_FRAMES_LATE 0 e == 1) = true := by decide +kernel

theorem witness_LateItemsAreFound :
    let late := schedE [(7, ⟨2 ^ 61 + 2 ^ 60, 0, 0, 0⟩)] [(7, { ItemRun.start with st := .queued })]
    let done := schedE [(7, ⟨2 ^ 61 + 2 ^ 60, 0, 0, 0⟩)] [(7, { ItemRun.start with st := .done })]
    late.sched.running = true ∧ late.mix.sinks = [] ∧ late.mix.gps = [] ∧ dKind (admItem late 7) = 1
      ∧ late.sched.run = [(7, { ItemRun.start with st := .queued })] ∧ done.sched.run = [(7, { ItemRun.start with st := .done })]
      ∧ gives .lateCheck (onE late) (fun e => decide ((getRun e 7).st = .late) && e.sched.faults == [] && getF .SYS_LATE_FRAMES_LATE 0 e == 1) = true
      ∧ gives .lateCheck (onE done) (fun e => decide ((getRun e 7).st = .done) && getF .SYS_LATE_FRAMES_LATE 0 e == 0) = true := by
  decide +kernel

/-! ### Pace, voltage and the supervisor -/

/-- One pace monitor has reported, over the register fields given. -/
def paceE (v : Nat) (l : List (Fld × Nat × Nat)) : Engine := { regsE l with health := { Health.reset with mon := [(0, v)] } }

theorem witness_PaceMonitorsReport :
    let s := onE Engine.reset
    let second := onE { Engine.reset with health := { Health.reset with excl := [12], mon := [(13, 1000)] } }
    s.e.health.excl = [] ∧ s.e.health.mon = []
      ∧ gives (.paceMonitorSample 3 3 500) s (fun e => getF .SYS_PACE_RGN_NOW 3 e == 500 && tget 0 e.health.mon 15 == 500) = true
      ∧ gives (.paceMonitorSample 3 3 2000) s (fun e => getF .SYS_PACE_RGN_NOW 3 e == 2000 && e.health.excl == []) = true
      ∧ gives (.paceMonitorSample 3 3 499) { s with e := { s.e with health := { s.e.health with mon := [(12, 1000)] } } } (fun e => e.health.excl == [15]) = true
      ∧ gives (.paceMonitorSample 3 3 2001) second (fun e => e.health.excl == [12, 15] && e.health.floorOnly == [3]) = true := by
  decide +kernel

theorem witness_VoltageLoopWrites :
    let up : List (Fld × Nat × Nat) := [(.SYS_AVS_CTL_EN, 0, 1), (.SYS_SUP_STAT_STATE, 0, 1), (.SYS_AVS_STAT_VCMD, 0, 845)]
    let wait := fun n => { regsE up with health := { Health.reset with pmbus := some 850, pmbusBusy := true, nackRun := n } }
    let halt := { wait 3 with health := { (wait 3).health with avsHalt := true, pmbusBusy := false } }
    getF .SYS_AVS_CTL_EN 0 (paceE 1079 up) = 1 ∧ getF .SYS_SUP_STAT_STATE 0 (paceE 1079 up) = 1 ∧ (paceE 1079 up).health.avsHalt = false
      ∧ (paceE 1079 up).health.pmbusBusy = false ∧ paceNow (paceE 1079 up) = some 1079
      ∧ gives .avsLoop (onE (paceE 1079 up)) (fun e => e.health.pmbus == some 850 && e.health.pmbusBusy) = true
      ∧ gives .avsLoop (onE (paceE 1121 up)) (fun e => e.health.pmbus == some 840) = true
      ∧ gives .avsLoop (onE (paceE 1080 up)) (fun e => e.health.pmbus == none) = true
      ∧ gives .avsLoop (onE (paceE 1120 up)) (fun e => e.health.pmbus == none) = true
      ∧ (wait 2).health.pmbus = some 850 ∧ (wait 2).health.pmbusBusy = true ∧ 850 < 2 ^ Fld.SYS_AVS_STAT_VCMD.width
      ∧ gives (.pmbusWriteComplete true) (onE (wait 2)) (fun e => getF .SYS_AVS_STAT_VCMD 0 e == 850 && getF .SYS_AVS_STAT_AT_MAX 0 e == 1
        && e.health.nackRun == 0) = true
      ∧ gives (.pmbusWriteComplete false) (onE (wait 2)) (fun e => getF .SYS_AVS_STAT_FAULT 0 e == 1 && e.health.avsHalt) = true
      ∧ gives (.pmbusWriteComplete false) (onE (wait 1)) (fun e => getF .SYS_AVS_STAT_FAULT 0 e == 0 && e.health.nackRun == 2) = true
      ∧ halt.health.avsHalt = true ∧ halt.health.pmbus ≠ none ∧ getF .SYS_SUP_STAT_STATE 0 halt = 1
      ∧ gives .pmbusRetry (onE halt) (fun e => e.health.pmbusBusy) = true := by decide +kernel

theorem witness_PaceIsJudged :
    let off : List (Fld × Nat × Nat) := [(.SYS_PACE_CFG_SHED_EN, 0, 0), (.SYS_SUP_STAT_STATE, 0, 1)]
    paceNow (paceE 1080 off) = some 1080 ∧ (paceE 1080 off).health.avsHalt = false ∧ (paceE 1080 off).health.floorOnly = []
      ∧ paceNow (paceE 1039 off) = some 1039 ∧ getF .SYS_PACE_CFG_SHED_EN 0 (paceE 1039 off) = 0
      ∧ gives .paceDecision (onE (paceE 1080 off)) (fun e => getF .SYS_PACE_STAT_STATE 0 e == 0 && e.health.lastPace == 1080) = true
      ∧ gives .paceDecision (onE (paceE 1039 off)) (fun e => getF .SYS_PACE_STAT_STATE 0 e == 3) = true
      ∧ gives .reinstatement (onE (paceE 1099 off)) (fun e => decide (e.sched.adm = Graph.empty)) = true := by decide +kernel

theorem witness_PaceIsJudged_any :
    let on : List (Fld × Nat × Nat) := [(.SYS_SUP_STAT_STATE, 0, 1), (.SYS_PACE_CFG_REINSTATE, 0, 1), (.SYS_AVS_STAT_VCMD, 0, 849)]
    let slow := { paceE 1040 [(.SYS_AVS_STAT_VCMD, 0, 850)] with health := { (paceE 1040 []).health with lastPace := 1079, lastV := 850 } }
    let shed := { paceE 1100 on with sched := { (busyE 1 0 5).sched with shed := [5] } }
    paceNow slow = some 1040 ∧ getF .SYS_AVS_STAT_VCMD 0 slow = 850 ∧ slow.health.lastPace < 1080 ∧ slow.health.lastV = 850
      ∧ gives .paceDecision (onE slow) (fun e => getF .SYS_PACE_STAT_STATE 0 e == 2) = true
      ∧ gives .paceDecision (onE (paceE 1079 on)) (fun e => getF .SYS_PACE_STAT_STATE 0 e == 1 && getF .SYS_PACE_STAT_LOWCNT 0 e == 1) = true
      ∧ gives .paceDecision (onE (paceE 1080 on)) (fun e => getF .SYS_PACE_STAT_STATE 0 e == 0) = true
      ∧ getF .SYS_PACE_CFG_REINSTATE 0 shed = 1 ∧ getF .SYS_SUP_STAT_STATE 0 shed = 1 ∧ paceNow shed = some 1100
      ∧ getF .SYS_AVS_STAT_VCMD 0 shed < 850 ∧ topClass shed = some 0
      ∧ gives .reinstatement (onE shed) (fun e => e.sched.restoreNext == [5] && e.sched.shed == [5]) = true := by decide +kernel

theorem witness_SupervisorRestarts :
    let s := onE (regsE [(.SYS_SUP_STAT_STATE, 0, 1), (.SYS_SUP_STAT_RESTARTS, 0, 1)])
    let r := onE (regsE [(.SYS_SUP_STAT_STATE, 0, 2)])
    getF .SYS_SUP_STAT_STATE 0 s.e ≠ 3 ∧ getF .SYS_SUP_STAT_RESTARTS 0 s.e ≠ 0 ∧ s.e.host.warmReq = none ∧ getF .SYS_SUP_STAT_STATE 0 r.e = 2
      ∧ gives (.lockstepMismatch false) s (fun e => e.host.warmReq == none) = true
      ∧ gives (.lockstepMismatch true) s (fun e => e.host.warmReq == some 1) = true
      ∧ gives .supervisorRestartEnd r (fun e => getF .SYS_SUP_STAT_STATE 0 e == 1) = true := by decide +kernel

/-! ### Routing, gains and services -/

/-- A request for source `src`. -/
def reqOf (src : Nat) : Req := ⟨src, 1, 0, 0, 5, true⟩

/-- A sink in the state given. -/
def sinkE (t : Nat) (q : Sink) (l : List (Fld × Nat × Nat)) : Engine :=
  { regsE l with mix := { Mix.reset with sinks := [(t, q)] } }

theorem witness_RouteRequestsEnd :
    let z : Sink := { Sink.silent with st := .zcwait, pend := some (reqOf 0x2000) }
    let o : Sink := { z with pos := 4000 }
    let f : Sink := { Sink.silent with st := .fade, act := some (reqOf 0x2000), cur := 0x2000, pos := 31, len := 0 }
    let b : Sink := { Sink.silent with st := .fbact, fb := 0x2001, cur := 0x2000, curLost := true, revert := true, curClean := 9999999, fbClean := 9999999 }
    let s := fun q => sinkE 0x10 q []
    (getSink (s z) 0x10).st = .zcwait ∧ (getSink (s z) 0x10).pend = some (reqOf 0x2000) ∧ z.y.length ≤ 0 ∧ 0 < sinkLen (s z) 0x10
      ∧ sourceCrosses (s z) 0x10 0 = true ∧ o.y.length ≤ 15 ∧ 15 < sinkLen (s o) 0x10
      ∧ firstAt (zcTimeoutOf (s o) 0x10) (sinkTo (s o) 0x10 0 o).pos true = true
      ∧ f.act = some (reqOf 0x2000) ∧ f.pend = none ∧ fadeLen f.len ≤ f.pos + (0 + 1 - f.y.length) ∧ f.y.length ≤ 0 + 1
      ∧ b.st = .fbact ∧ b.carry = 0x3FFF ∧ b.fb ≠ 0x3FFF ∧ isLost (s b) b.fb = false ∧ b.revert = true ∧ isLost (s b) b.cur = false
      ∧ holdOver (s b) b.curClean = true ∧ holdOver (s b) b.fbClean = true
      ∧ gives (.zeroCrossingCut 0x10 0) (onE (s z)) (fun e => decide ((getSink e 0x10).st = .steady) && (getSink e 0x10).cur == 0x2000) = true
      ∧ gives (.zcTimeout 0x10 0) (onE (s o)) (fun e => decide ((getSink e 0x10).st = .fade) && (getSink e 0x10).cur == 0x2000
        && getF .ROUTE_STAT_ZC_TIMEOUTS 0 e == 1) = true
      ∧ gives (.fadeEnd 0x10 0) (onE (s f)) (fun e => decide ((getSink e 0x10).st = .steady) && (getSink e 0x10).out == 0x3FFF) = true
      ∧ gives (.fallbackReturn 0x10) (onE (s b)) (fun e => decide ((getSink e 0x10).st = .fbfade)
        && decide ((getSink e 0x10).toF = .src 0x2001)) = true
      ∧ gives (.reversion 0x10) (onE (s b)) (fun e => decide ((getSink e 0x10).st = .fbfade)
        && decide ((getSink e 0x10).toF = .src 0x2000)) = true := by decide +kernel

theorem witness_RouteRequestsEnd_next :
    let r := fun (src mode : Nat) => { reqOf src with mode := mode }
    let f := fun (p : Req) => ({ Sink.silent with st := .fade, act := some (reqOf 0x2000), cur := 0x2000, pos := 31, len := 0, pend := some p } : Sink)
    let v : Sink := { Sink.silent with st := .fbfade, cur := 0x2000, fb := 0x2001, pos := 31, after := .fbact, fromF := .src 0x2000, toF := .src 0x2001 }
    let s := fun q => onE (sinkE 0x10 q [])
    (f (r 5 0)).st = .fade ∧ (f (r 5 0)).pend = some (r 5 0) ∧ fadeLen 0 ≤ 31 + (0 + 1 - 0) ∧ 0 < sinkLen (s (f (r 5 0))).e 0x10
      ∧ v.st = .fbfade ∧ v.pend = none ∧ v.newFb = false ∧ v.after = .fbact ∧ isLost (s v).e (feedSrc v.toF) = false
      ∧ gives (.fadeEnd 0x10 0) (s (f (r 0x2000 0))) (fun e => decide ((getSink e 0x10).st = .steady) && decide ((getSink e 0x10).pend = none)) = true
      ∧ gives (.fadeEnd 0x10 0) (s (f (r 5 0))) (fun e => decide ((getSink e 0x10).st = .zcwait) && (getSink e 0x10).cur == 0x2000) = true
      ∧ gives (.fadeEnd 0x10 0) (s (f (r 5 1))) (fun e => decide ((getSink e 0x10).st = .fade) && (getSink e 0x10).cur == 5
        && (getSink e 0x10).out == 0x2000) = true
      ∧ gives (.fadeEnd 0x10 0) (s v) (fun e => decide ((getSink e 0x10).st = .fbact) && (getSink e 0x10).carry == 0x2001) = true := by decide +kernel

theorem witness_AsrcChannelsLock :
    let s := fun st => regsE [(.ROUTE_BRCFG_EN, 255, 1), (.ROUTE_BRCFG_KIND, 255, 5), (.ROUTE_BRSTAT_STATE, 255, st)]
    isAsrc (s 1) 255 = true ∧ getF .ROUTE_BRSTAT_STATE 255 (s 1) ≠ 2 ∧ ratioOk (2 ^ 20) = true ∧ ratioOk (2 ^ 24) = true
      ∧ ratioOk (2 ^ 24 + 1) = false ∧ ratioOk (2 ^ 20 - 1) = false ∧ getF .ROUTE_BRSTAT_STATE 255 (s 2) = 2
      ∧ gives (.asrcUnlock 255) (onE (s 2)) (fun e => tget (0, 0) e.mix.asrcDue 255 == (2, 0)) = true
      ∧ gives (.asrcRange 255 (2 ^ 24 + 1)) (onE (s 2)) (fun e => tget (0, 0) e.mix.asrcDue 255 == (4, 2 ^ 24 + 1)) = true := by
  decide +kernel

theorem witness_AsrcChannelsLock_tick :
    let s := fun st due => { regsE [(.ROUTE_BRCFG_EN, 255, 1), (.ROUTE_BRCFG_KIND, 255, 5), (.ROUTE_BRSTAT_STATE, 255, st)] with
      mix := { Mix.reset with asrcDue := [(255, due)] } }
    isAsrc (s 1 (3, 2 ^ 22)) 255 = true ∧ getF .ROUTE_BRSTAT_STATE 255 (s 1 (3, 2 ^ 22)) ≠ 2 ∧ tget (0, 0) (s 1 (3, 2 ^ 22)).mix.asrcDue 255 = (3, 2 ^ 22)
      ∧ isLost (channelTick (s 1 (3, 2 ^ 22)) 255) 0x31FF = false
      ∧ getF .ROUTE_BRSTAT_STATE 255 (s 2 (2, 0)) = 2 ∧ getF .ROUTE_BRSTAT_STATE 255 (channelTick (s 2 (2, 0)) 255) = 1
      ∧ isLost (channelTick (s 2 (2, 0)) 255) 0x31FF = true
      ∧ getF .ROUTE_BRSTAT_STATE 255 (channelTick (s 2 (4, 9)) 255) = 3 ∧ isLost (channelTick (s 2 (4, 9)) 255) 0x31FF = true := by decide +kernel

theorem witness_GainPointsStep :
    let s := fun p => { Engine.reset with mix := { Mix.reset with gps := [(0x10FFFF, p)] } }
    let z : Gp := { Gp.unity with st := .zcwait, t := 7 }
    let o : Gp := { z with pos := 100000 }
    let r : Gp := { Gp.unity with st := .ramp, t := 7, pos := 100000, next := some 9 }
    z.traj.length ≤ 0 ∧ gpCrosses (s z) 0x10FFFF 0 = true ∧ firstAt (gpTimeout (s o) 0x10FFFF) (gpTo (s o) 0x10FFFF 0).pos true = true
      ∧ gpRamp (s r) 0x10FFFF ≤ (gpTo (s r) 0x10FFFF (0 + 1)).pos ∧ r.traj.length ≤ 0 + 1 ∧ (9 : Nat) ≠ r.t
      ∧ gives (.gainZeroCrossingStep 0x10FFFF 0) (onE (s z)) (fun e => decide ((getGp e 0x10FFFF).st = .steady) && (getGp e 0x10FFFF).g == 7) = true
      ∧ gives (.gainTimeout 0x10FFFF 0) (onE (s o)) (fun e => decide ((getGp e 0x10FFFF).st = .ramp) && (getGp e 0x10FFFF).g0 == 2 ^ 28) = true
      ∧ gives (.rampEnd 0x10FFFF 0) (onE (s r)) (fun e => decide ((getGp e 0x10FFFF).st = .zcwait) && (getGp e 0x10FFFF).t == 9) = true
      ∧ gives (.rampEnd 0x10FFFF 0) (onE (s { r with next := none })) (fun e => decide ((getGp e 0x10FFFF).st = .steady)
        && (getGp e 0x10FFFF).t == 7) = true := by decide +kernel

/-- The supervisor runs, over the mixing state given. -/
def mixE (m : Mix) : Engine := { regsE [(.SYS_SUP_STAT_STATE, 0, 1)] with mix := m }

theorem witness_MetersAdvance :
    let b := onE { Engine.reset with mix := { Mix.reset with meterDue := some [1, 2], meterA := 0x1000, meterB := 0x2000, meterBytes := 2 } }
    let l := Loud.fresh 1 0
    let m := onE (mixE { Mix.reset with louds := [(63, some { l with reset := true })] })
    b.e.mix.meterDue = some [1, 2] ∧ b.e.mix.meterEv = false ∧ b.e.host.linkOff = false ∧ (hostAt b.e 0x1000 2).isSome = true
      ∧ gives .meterBlockWrite b (fun e => readBytes e 0x2000001000 2 == [1, 2] && getF .SUM_METER_SEQ_SEQ 0 e == 1 && e.mix.meterToB) = true
      ∧ getF .SYS_SUP_STAT_STATE 0 m.e = 1 ∧ tget none m.e.mix.louds 63 = some { l with reset := true }
      ∧ gives (.loudnessStep [63]) m (fun e => (tget none e.mix.louds 63).any fun l => l.steps.length == 1 && !l.reset && l.tpMax == 0) = true
      ∧ gives (.loudnessStep [62]) m (fun e => decide (e.mix.louds = m.e.mix.louds)) = true
      ∧ gives (.loudResetWrite 1 (2 ^ 31)) (onE (mixE { Mix.reset with louds := [(63, some l)] })) (fun e =>
        (tget none e.mix.louds 63).any fun l => l.reset) = true := by decide +kernel

theorem witness_AutomixAndDucking :
    let g : AmGroup := ⟨60, 0, 0⟩
    let m : AmMember := { group := 31, det := 0, gp := 0, weight := 0, e := 0, a := 3, hold := 0 }
    let s := onE (mixE { Mix.reset with groups := [(31, some g)], members := [(1023, some m)] })
    let k : Duck := { trig := 0, thr := 0, depth := 0, hold := 0, prio := 0, gps := [], active := true, until_ := 1, ending := false }
    let d := onE (mixE { Mix.reset with ducks := [(31, some k)] })
    getF .SYS_SUP_STAT_STATE 0 s.e = 1 ∧ m.group = 31 ∧ powerOf (-(60 : Int)) ≤ 2 ^ 62 ∧ 0 < powerOf (-(60 : Int))
      ∧ tget none d.e.mix.ducks 31 = some k ∧ k.active = true ∧ k.until_ = frameNo d.e + 1
      ∧ gives (.automixUpdate [31]) s (fun e => (tget none e.mix.members 1023).any fun m => m.a == 3 && bitF .SUM_AMIX_HOLD_HOLD 0 31 e) = true
      ∧ gives (.duckHoldExpiry 31) d (fun e => (tget none e.mix.ducks 31).any fun k => k.active && k.ending) = true := by decide +kernel

theorem witness_AutomixAndDucking_any :
    let g : AmGroup := ⟨60, 0, 0⟩
    let m : AmMember := { group := 31, det := 0, gp := 0, weight := 0, e := 0, a := 3, hold := 0 }
    let s := mixE { Mix.reset with groups := [(31, some g)], members := [(5, some { m with e := 2 ^ 62 }), (1023, some m)] }
    let k : Duck := { trig := 0, thr := 0, depth := 0, hold := 0, prio := 0, gps := [], active := true, until_ := 0, ending := false }
    let d := mixE { Mix.reset with ducks := [(31, some k)] }
    twf none s.mix.groups = true ∧ twf none s.mix.members = true ∧ (membersOf s 31).length = 2
      ∧ ((membersOf s 31).all fun p => decide (p.2.e < powerOf (-(g.thr : Int)))) = false
      ∧ gives (.automixUpdate [31]) (onE s) (fun e => !bitF .SUM_AMIX_HOLD_HOLD 0 31 e) = true
      ∧ gives (.automixUpdate [30]) (onE s) (fun e => decide (e.mix.members = s.mix.members)) = true
      ∧ k.until_ ≤ frameNo d ∧ gives (.duckHoldExpiry 31) (onE d) (fun e => (tget none e.mix.ducks 31).any fun k => !k.active) = true
      ∧ loudTrigger d k = false ∧ { k with ending := true, until_ := 1 }.until_ ≤ frameNo d + 1
      ∧ ((tget none (duckRuleTick d 31 { k with ending := true, until_ := 1 }).mix.ducks 31).any fun k => !k.active) = true := by decide +kernel

/-! ### Command rings, directives and transactions -/

/-- Ring `k` alone has a program in progress, and the next directive of it is one of Table 8.6. -/
def soleRing (k : Nat) (e : Engine) : Bool :=
  match e.ctl.rings with
  | [(j, r)] => j == k && r.active && !r.skip && (frontOf r.words).any fun f => opcodes.contains f.op
  | _ => false

theorem restful_of_soleRing {k : Nat} {e : Engine} (h : soleRing k e = true) : restful k e := by
  unfold soleRing at h
  split at h
  · rename_i j r hr
    simp only [Bool.and_eq_true, beq_iff_eq, Bool.not_eq_true', Option.any_eq_true] at h
    obtain ⟨⟨⟨rfl, ha⟩, hs⟩, f, hf, ho⟩ := h
    have hg : ∀ i, getRing e i = if j = i then r else Ring.idle := fun i => by unfold getRing; rw [hr]; rfl
    refine ⟨fun i hi => ?_, ?_, ?_, .inr ⟨f, ?_, ho⟩⟩
    · rw [hg, if_neg fun he => hi he.symm]; rfl
    · rw [hg, if_pos rfl]; exact ha
    · rw [hg, if_pos rfl]; exact hs
    · rw [hg, if_pos rfl]; exact hf
  · cases h

theorem idle_of_noRing {e : Engine} (h : e.ctl.rings = []) (j : Nat) : (getRing e j).active = false := by
  unfold getRing; rw [h]; rfl

/-- The header of a directive with tag 5 (Table 8.4). -/
def header (op flags len : Nat) : Word64 := BitVec.ofNat 64 (2 ^ 56 * op + 2 ^ 48 * flags + 2 ^ 32 * len + 5)

/-- Ring 0 in the state given, enabled with its completion ring, in Run, the supervisor running. -/
def ringE (r : Ring) (l : List (Fld × Nat × Nat)) : Engine :=
  let e := regsE ([(.SYS_SUP_STAT_STATE, 0, 1), (.HOST_PWR_STAT_STATE, 0, 0), (.HOST_CR_CFG_EN, 0, 1), (.HOST_CR_CFG_LOG2, 0, 8),
    (.HOST_CQ_CFG_EN, 0, 1), (.HOST_CQ_CFG_LOG2, 0, 8)] ++ l)
  { e with ctl := { e.ctl with rings := [(0, r)] } }

/-- A directive, and a `NOP` behind it, are what remains of ring 0's program. -/
def dirE (op flags : Nat) (ws : List Word64) : Engine :=
  ringE { Ring.idle with active := true, words := header op flags ws.length :: ws ++ [header 0 0 1, 0] } []

/-- The directive that `dirE` holds. -/
def dirD (flags : Nat) (ws : List Word64) : Dir := ⟨0, 5, flags, ws⟩

/-- `directiveNext` as a computation, for a sole ring. -/
def nextDir (op : Nat) (d : Dir) (e : Engine) : Bool := frontIs op d e && soleRing d.ring (popDir d.ring e)

theorem directiveNext_of_nextDir {op : Nat} {d : Dir} {e : Engine} (h : nextDir op d e = true) : directiveNext op d e := by
  unfold nextDir at h
  rw [Bool.and_eq_true] at h
  exact ⟨h.1, restful_of_soleRing h.2⟩

/-- The status that a directive's records give it. -/
def recStatus (op : Nat) (d : Dir) (e : Engine) : Nat :=
  let e0 := popDir d.ring e
  firstStatus (ringStatus e0 d.ring op ++ (checkRecs (taken op d e) (frameNo e + 1) (parse e0 op d).recs (viewNext e0)).statuses)

/-- A payload for each directive of `DirectivesWaitForTheirTick`, of the kind given where its records have kinds. -/
def plainPayload (op : Nat) (kind : Option Nat) : List Word64 :=
  match op, kind with
  | 0x20, _ => [1, 1, 1, 0, 0]
  | 0xB2, _ => [1, 0]
  | 0xC0, _ => [0, 0, 0, 0]
  | _, some k => 1 :: BitVec.ofNat 64 (2 ^ 60 * k) :: List.replicate (recSize op 0 - 1) 0
  | _, none => [0]

/-- The opcodes and kinds of `DirectivesWaitForTheirTick`. -/
def tickDirs : List (Nat × Option Nat) :=
  [(0x20, none), (0x21, none), (0x22, none), (0x30, none), (0x31, none), (0x32, none), (0x40, none), (0x41, none), (0x42, none),
   (0x60, none), (0x61, none), (0x62, none), (0x70, none), (0x71, none), (0x80, none), (0x81, none), (0x82, some 0), (0x82, some 1),
   (0x82, some 2), (0x82, some 3), (0x82, some 4), (0x82, some 5), (0x90, some 0), (0x90, some 1), (0x90, some 2), (0x90, some 3),
   (0x91, none), (0xA0, some 0), (0xA0, some 1), (0xB2, none), (0xC0, none), (0xC1, none), (0xC2, none), (0xC3, none), (0xC4, none)]

theorem witness_DirectivesWaitForTheirTick :
    (tickDirs.all fun p =>
      let ws := plainPayload p.1 p.2
      let e := dirE p.1 0 ws
      let d := dirD 0 ws
      d.wf && e.held == 0 && nextDir p.1 d e && (p.2.all fun k => firstKind e p.1 d == k) && (openTxn e 0).isNone && !pairActive e
        && (parse (popDir 0 e) p.1 d).status == 0) = true := by decide +kernel

theorem test_directive_waits :
    gives (.align (dirD 0 [1, BitVec.ofNat 64 (2 ^ 48 * 255)])) (onE (dirE 0x32 0 [1, BitVec.ofNat 64 (2 ^ 48 * 255)])) (fun e =>
      e.ctl.deferred.length == 1 && decide ((getRing e 0).comps = [(compWord 5 0 0x32 false, 0)]) && getF .HOST_CQ_TAIL_TAIL 0 e == 1) = true := by
  decide +kernel

/-- Ring 0 with a published program of one `NOP`, its sequence number `n`. -/
def programE (n : Nat) (l : List (Fld × Nat × Nat)) : Engine :=
  let e := ringE Ring.idle ([(.HOST_CR_TAIL_TAIL, 0, 3)] ++ l)
  let e := { e with ctl := { e.ctl with rings := [] } }
  placeWords 0 0 [BitVec.ofNat 64 (2 ^ 32 * n + 2), header 0 0 1, 0] e

/-- A transaction in slot `slot` of ring 0. -/
def txnOf (slot : Nat) (st : TxnSt) : Txn :=
  { slot := slot, ring := 0, tag := 3, staged := [], bytes := 0, writes := 0, failed := none, st := st, commit := none, apply := 0, admitted := none,
    admRes := 0, graph := none, late := none }

/-- The engine with one transaction. -/
def withTxn (t : Txn) (e : Engine) : Engine := { e with ctl := { e.ctl with txns := [t] } }

theorem witness_RingsRun :
    let p := programE 7 [(.HOST_CR_SEQ_SEQ, 0, 7)]
    let gap := programE 9 [(.HOST_CR_SEQ_SEQ, 0, 7)]
    let base := fun e => 2 ^ 32 * getF .HOST_CR_BASE_HI_BASE 0 e + getF .HOST_CR_BASE_LO_BASE 0 e + 8 * (getF .HOST_CR_TAIL_TAIL 0 e % crSize e 0)
    let t := withTxn (txnOf 5 .open_) p
    let full := { p with ctl := { p.ctl with used := [(0, 3)] } }
    let lost := setF .HOST_EV_CFG_EN 0 1 { p with ctl := { p.ctl with lost := 4 } }
    (hostAt p (base p) 8).isSome = true
      ∧ gives (.hostCrTailWrite 0 4 [9]) (onE p) (fun e => getF .HOST_CR_TAIL_TAIL 0 e == 4 && read64 e 0x2000000018 == 9) = true
      ∧ turnOf p = some 0 ∧ p.ctl.rings = [] ∧ (getRing p 0).skip = false ∧ nextProgram p 0 = some (BitVec.ofNat 64 (2 ^ 32 * 7 + 2))
      ∧ bits (BitVec.ofNat 64 (2 ^ 32 * 7 + 2)) 63 32 = getF .HOST_CR_SEQ_SEQ 0 p
      ∧ ((frontOf (programWords p 0 (getF .HOST_CR_HEAD_HEAD 0 p + 1) 2)).any fun f => opcodes.contains f.op) = true
      ∧ gives .programFetch (onE p) (fun e => getF .HOST_CR_SEQ_SEQ 0 e == 8 && (getRing e 0).active && (getRing e 0).words == [header 0 0 1, 0]) = true
      ∧ turnOf gap = some 0 ∧ nextProgram gap 0 = some (BitVec.ofNat 64 (2 ^ 32 * 9 + 2)) ∧ getF .HOST_CR_SEQ_SEQ 0 gap < 9
      ∧ openTxn gap 0 = none ∧ openTxn p 0 = none
      ∧ gives (.hostCrSeqWrite 0 9) (onE gap) (fun e => getF .HOST_CR_SEQ_SEQ 0 e == 9 && getF .HOST_CR_STAT_HALT 0 e == 0) = true
      ∧ gives (.ringDisable 0) (onE p) (fun e => getF .HOST_CR_CFG_EN 0 e == 0) = true
      ∧ t.ctl.txns = [txnOf 5 .open_] ∧ supUp t = true
      ∧ gives (.ringDisable 0) (onE t) (fun e => decide (e.ctl.txns = []) && (getRing e 0).skip) = true
      ∧ gives (.transactionIdleAbandon 0) (onE t) (fun e => decide (e.ctl.txns = []) && (getRing e 0).skip) = true
      ∧ full.ctl.owed = [] ∧ full.ctl.rings = []
      ∧ gives (.hostCqHeadWrite 0 2) (onE full) (fun e => getF .HOST_CQ_HEAD_HEAD 0 e == 2 && tget 0 e.ctl.used 0 == 1) = true
      ∧ p.ctl.lost = 0 ∧ lost.ctl.lost ≠ 0 ∧ evFree lost = true
      ∧ gives .eventsLostPost (onE lost) (fun e => e.ctl.lost == 0 && tget 0 e.ctl.used 8 == 1) = true := by decide +kernel

/-- `nextDir` of a payload on ring 0, its format right. -/
def takes (op flags : Nat) (ws : List Word64) (e : Engine) : Bool :=
  nextDir op (dirD flags ws) e && (parse (popDir 0 e) op (dirD flags ws)).status == 0 && (dirD flags ws).wf && e.held == 0

/-- Ring 0 waits with the held directive, a `NOP` behind it. -/
def holdE (h : Hold) : Engine := ringE { Ring.idle with active := true, words := [header 0 0 1, 0], hold := some h } []

/-- A held directive of tag 5. -/
def heldOf (op : Nat) (ws : List Word64) : Hold := ⟨op, 5, 0, ws, 1, false, none⟩

theorem witness_TransactionsStageAndAbort :
    let nop := dirE 0x00 0 [0]
    let q : List Word64 := [0, BitVec.ofNat 64 (2 ^ 56 * 4 + 0x33FF), 1, 0x100000]
    let query := dirE 0x02 0 q
    let fence := dirE 0x01 0 [0, 1]
    let opn := dirE 0x10 0 [0]
    let t := txnOf 7 .open_
    let abt := withTxn t (dirE 0x12 0 [0])
    let al : List Word64 := [1, BitVec.ofNat 64 (2 ^ 48 * 255)]
    let stg := withTxn t (dirE 0x32 0 al)
    let h := heldOf 0x01 [0, 1]
    takes 0x00 0 [0] nop = true ∧ openTxn nop 0 = none
      ∧ gives (.nop (dirD 0 [0])) (onE nop) (fun e => decide ((getRing e 0).comps = [(compWord 5 0 0 false, 0)]) && decide (e.ctl.deferred = [])) = true
      ∧ takes 0x02 0 q query = true ∧ query.ctl.deferred = [] ∧ query.ctl.later = [] ∧ pairMode query = 0 ∧ (hostAt query 0x100000 4).isSome = true
      ∧ bits (rec1 q) 63 56 = 4 ∧ bits (rec1 q) 55 32 = 0 ∧ bits (rec1 q) 31 0 = 0x33FF
      ∧ gives (.query (dirD 0 q)) (onE query) (fun e => decide ((getRing e 0).comps = [(compWord 5 0 2 false, 4)])) = true
      ∧ takes 0x01 0 [0, 1] fence = true ∧ bits (rec1 [0, 1]) 63 1 = 0
      ∧ gives (.fence (dirD 0 [0, 1])) (onE fence) (fun e => (getRing e 0).hold.any fun h => h.op == 1 && h.all) = true
      ∧ (getRing (holdE h) 0).hold = some h ∧ supUp (holdE h) = true ∧ soleRing 0 (holdE h) = true
      ∧ fenceMet 0 1 true { holdE h with ctl := { (holdE h).ctl with deferred := [⟨0x32, 1, 0, 0, [], 0⟩] } } = false
      ∧ fenceMet 0 1 false (holdE h) = true
      ∧ gives (.fenceComplete 0) (onE (holdE h)) (fun e => decide ((getRing e 0).comps = [(compWord 5 0 1 false, 0)])) = true
      ∧ takes 0x10 0 [0] opn = true ∧ peerRefuses opn 0x10 = false ∧ opn.ctl.txns = []
      ∧ gives (.txnOpen (dirD 0 [0])) (onE opn) (fun e => getF .HOST_TXN_STAT_USED 0 e == 1 && getF .HOST_CR_STAT_TXN 0 e == 1) = true
      ∧ takes 0x12 0 [0] abt = true ∧ openTxn abt 0 = some t ∧ peerRefuses abt 0x12 = false ∧ abt.ctl.txns = [t]
      ∧ gives (.txnAbort (dirD 0 [0])) (onE abt) (fun e => decide (e.ctl.txns = []) && getF .HOST_TXN_STAT_USED 0 e == 0) = true
      ∧ takes 0x32 0 al stg = true ∧ opcodes.contains 0x32 = true ∧ closes 0x32 = false ∧ noTxnOp 0x32 = false
      ∧ gives (.staging 0x32 (dirD 0 al)) (onE stg) (fun e => (e.ctl.txns.any fun t => t.staged.length == 1 && t.writes == 1)
        && decide ((getRing e 0).comps = [(compWord 5 0 0x32 false, 0)])) = true := by decide +kernel

theorem witness_TransactionsStageAndAbort_staging :
    let al : List Word64 := [1, BitVec.ofNat 64 (2 ^ 48 * 255)]
    let t := txnOf 7 .open_
    let e := withTxn t (dirE 0x32 0 al)
    let x := taken 0x32 (dirD 0 al) e
    firstStatus (ringStatus (popDir 0 e) 0 0x32 ++ txnLimits t x
      ++ (checkRecs x 0 (parse (popDir 0 e) 0x32 (dirD 0 al)).recs (viewTxn (popDir 0 e) t)).statuses) = 0 := by decide +kernel

/-- The engine with an open transaction of ring 7 in slot 0, and one more. -/
def withTwo (t : Txn) (e : Engine) : Engine := { e with ctl := { e.ctl with txns := [{ txnOf 0 .open_ with ring := 7 }, t] } }

theorem witness_RingsRun_any :
    let c : Commit := { op := 0x11, tag := 5, flags := 0, w1 := 0, w2 := 9, w3 := 0, w4 := 0, w5 := 0, n := 1 }
    let p := programE 7 [(.HOST_CR_SEQ_SEQ, 0, 7)]
    let old := programE 6 [(.HOST_CR_SEQ_SEQ, 0, 7)]
    let gap := programE 9 [(.HOST_CR_SEQ_SEQ, 0, 7)]
    let v := { txnOf 5 .validating with commit := some c }
    let owes := { p with ctl := { p.ctl with owed := [(0, 1, 2)], used := [(0, 256)] } }
    (Instr.hostCrTailWrite 0 5 [9, 8]).wf = true ∧ ([9, 8] : List Word64).length ≤ crSize p 0 ∧ (ringEntry p 0 (getF .HOST_CR_TAIL_TAIL 0 p + 1)).isSome = true
      ∧ gives (.hostCrTailWrite 0 5 [9, 8]) (onE p) (fun e => ringEntry e 0 4 == some 8) = true
      ∧ turnOf old = some 0 ∧ (getRing old 0).active = false ∧ nextProgram old 0 = some (BitVec.ofNat 64 (2 ^ 32 * 6 + 2))
      ∧ gives .programFetch (onE old) (fun e => getF .HOST_CR_SEQ_SEQ 0 e == 7 && getF .HOST_CR_HEAD_HEAD 0 e == 3) = true
      ∧ gives .programFetch (onE gap) (fun e => getF .HOST_CR_STAT_HALT 0 e == 1 && getF .HOST_CR_HEAD_HEAD 0 e == 0) = true
      ∧ openTxn (withTwo v p) 0 = none ∧ commitTxn (withTwo v p) 0 = some v ∧ openTxn (withTwo (txnOf 5 .open_) p) 0 = some (txnOf 5 .open_)
      ∧ supUp (withTwo v p) = true
      ∧ gives (.ringDisable 0) (onE (withTwo (txnOf 5 .open_) p)) (fun e => e.ctl.txns.length == 1 && (getRing e 0).skip) = true
      ∧ gives (.transactionIdleAbandon 0) (onE (withTwo v p)) (fun e => e.ctl.txns.length == 1) = true
      ∧ owes.ctl.rings = [] ∧ (owes.ctl.owed.any fun p => p.1 == 0) = true ∧ isF .HOST_CQ_CFG_EN 0 owes = true ∧ owes.host.linkOff = false
      ∧ tget 0 owes.ctl.used 0 - freed (cqSize owes 0) (getF .HOST_CQ_HEAD_HEAD 0 owes) 1 < cqSize owes 0
      ∧ gives (.hostCqHeadWrite 0 1) (onE owes) (fun e => e.ctl.owed.isEmpty) = true := by decide +kernel

theorem witness_TransactionsStageAndAbort_any :
    let q : List Word64 := [0, BitVec.ofNat 64 (2 ^ 56 * 4 + 0x33FE), 2, 0x100000]
    let query := dirE 0x02 0 q
    let opn := withTxn { txnOf 0 .open_ with ring := 7 } (dirE 0x10 0 [0])
    let al : List Word64 := [1, BitVec.ofNat 64 (2 ^ 48 * 255)]
    let t := txnOf 7 .open_
    let stg := withTwo t (dirE 0x32 0 al)
    let abt := withTwo t (dirE 0x12 0 [0])
    takes 0x02 0 q query = true ∧ openTxn query 0 = none ∧ (hostAt query 0x100000 8).isSome = true
      ∧ gives (.query (dirD 0 q)) (onE query) (fun e => decide ((getRing e 0).comps = [(compWord 5 0 2 false, 8)])) = true
      ∧ takes 0x10 0 [0] opn = true ∧ openTxn opn 0 = none ∧ freeSlot opn = some 1 ∧ peerRefuses opn 0x10 = false
      ∧ gives (.txnOpen (dirD 0 [0])) (onE opn) (fun e => (e.ctl.txns.map (·.slot)) == [0, 1]) = true
      ∧ takes 0x12 0 [0] abt = true ∧ openTxn abt 0 = some t ∧ peerRefuses abt 0x12 = false
      ∧ gives (.txnAbort (dirD 0 [0])) (onE abt) (fun e => (e.ctl.txns.map (·.slot)) == [0]) = true
      ∧ takes 0x32 0 al stg = true ∧ openTxn stg 0 = some t
      ∧ gives (.staging 0x32 (dirD 0 al)) (onE stg) (fun e => e.ctl.txns.any fun t => t.slot == 7 && t.staged.length == 1) = true := by decide +kernel

theorem witness_TransactionsStageAndAbort_query :
    let q : List Word64 := [0, BitVec.ofNat 64 (2 ^ 56 * 4 + 0x33FE), 2, 0x100000]
    let e := dirE 0x02 0 q
    firstStatus (ringStatus (popDir 0 e) 0 0x02
      ++ (checkRecs (taken 0x02 (dirD 0 q) e) 0 (parse (popDir 0 e) 0x02 (dirD 0 q)).recs (viewNext (popDir 0 e))).statuses) = 0 := by decide +kernel

theorem witness_CommitsAreValidated :
    let adm : List Word64 := [0, 0, 0, 0]
    let wp : List Word64 := [0]
    let cm : List Word64 := [0, BitVec.ofNat 64 (2 ^ 62), 0, 0]
    let t := txnOf 7 .open_
    let com := withTxn t (dirE 0x11 0 cm)
    let st := withTxn t (setF .HOST_SCENE_SIZE_SIZE 0 1 (dirE 0xB0 0 [0, 4095]))
    let rec_ := setF .HOST_SCENE_SIZE_SIZE 0 1 (dirE 0xB1 0 [0, 4095, 0, 0, 0])
    let rcl := { rec_ with ctl := { rec_.ctl with scenes := [(4095, some ⟨[], 0, 0, 0, 0⟩)] } }
    let rf := fun w : Nat => ([0, BitVec.ofNat 64 w] : List Word64)
    takes 0x23 0 adm (dirE 0x23 0 adm) = true ∧ openTxn (dirE 0x23 0 adm) 0 = none ∧ (dirE 0x23 0 adm).ctl.txns = []
      ∧ bit ((taken 0x23 (dirD 0 adm) (dirE 0x23 0 adm)).words.getD 2 0) 32 = false
      ∧ gives (.admitGraph (dirD 0 adm)) (onE (dirE 0x23 0 adm)) (fun e => (e.ctl.txns.any fun t => decide (t.st = .validating) && t.slot == 0)
        && (getRing e 0).hold.any fun h => h.op == 0x23) = true
      ∧ takes 0x50 0 wp (dirE 0x50 0 wp) = true
      ∧ gives (.writeParam (dirD 0 wp)) (onE (dirE 0x50 0 wp)) (fun e => (e.ctl.txns.any fun t => decide (t.st = .validating))
        && (getRing e 0).hold.any fun h => h.op == 0x50) = true
      ∧ takes 0x11 0 cm com = true ∧ openTxn com 0 = some t ∧ com.ctl.txns = [t] ∧ t.failed = none
      ∧ gives (.txnCommit (dirD 0 cm)) (onE com) (fun e => (e.ctl.txns.any fun t => decide (t.st = .validating) && t.slot == 7)
        && getF .HOST_CR_STAT_TXN 0 e == 1) = true
      ∧ takes 0xB0 0 [0, 4095] st = true ∧ openTxn st 0 = some t ∧ pairActive st = false
      ∧ getF .HOST_SCENE_SIZE_SIZE 0 st ≠ 0 ∧ sceneBytes (viewNext (popDir 0 st)) 4095 + t.bytes ≤ 1048576 * getF .HOST_SCENE_SIZE_SIZE 0 st
      ∧ gives (.sceneStore (dirD 0 [0, 4095])) (onE st) (fun e => (tget none e.ctl.scenes 4095).isSome && decide (e.ctl.txns = [])
        && decide ((getRing e 0).comps = [(compWord 5 0 0xB0 false, 4095)])) = true
      ∧ takes 0xB1 0 [0, 4095, 0, 0, 0] rcl = true ∧ openTxn rcl 0 = none ∧ rcl.ctl.txns = [] ∧ rcl.ctl.deferred = [] ∧ rcl.ctl.later = []
      ∧ tget none rcl.ctl.scenes (bits (rec1 ([0, 4095, 0, 0, 0] : List Word64)) 11 0) = some ⟨[], 0, 0, 0, 0⟩
      ∧ gives (.sceneRecall (dirD 0 [0, 4095, 0, 0, 0])) (onE rcl) (fun e => (e.ctl.txns.any fun t => decide (t.st = .validating))
        && (getRing e 0).hold.any fun h => h.op == 0xB1) = true
      ∧ takes 0x03 0 (rf (2 ^ 56 + 59)) (dirE 0x03 0 (rf (2 ^ 56 + 59))) = true ∧ takes 0x03 0 (rf (2 ^ 57 + 511)) (dirE 0x03 0 (rf (2 ^ 57 + 511))) = true
      ∧ peerRefuses (dirE 0x03 0 (rf (2 ^ 56 + 59))) 0x03 = false ∧ (dirE 0x03 0 (rf (2 ^ 56 + 59))).ctl.resetFn = []
      ∧ gives (.resetFn (dirD 0 (rf (2 ^ 56 + 59)))) (onE (dirE 0x03 0 (rf (2 ^ 56 + 59)))) (fun e => e.ctl.resetFn == [(1, 59, 5, 0)]) = true := by
  decide +kernel

theorem witness_CommitsAreValidated_records :
    let t := txnOf 7 .open_
    let ok := fun op ws e => firstStatus (ringStatus (popDir 0 e) 0 op
      ++ (checkRecs (taken op (dirD 0 ws) e) 0 (parse (popDir 0 e) op (dirD 0 ws)).recs (popDir 0 e)).statuses)
    let lim := fun op ws e => firstStatus (ringStatus (popDir 0 e) 0 op ++ txnLimits (newTxn 0 (taken op (dirD 0 ws) e)) (taken op (dirD 0 ws) e)
      ++ (checkRecs (taken op (dirD 0 ws) e) 0 (parse (popDir 0 e) op (dirD 0 ws)).recs (viewAcked (popDir 0 e))).statuses)
    let rec_ := setF .HOST_SCENE_SIZE_SIZE 0 1 (dirE 0xB1 0 [0, 4095, 0, 0, 0])
    lim 0x23 [0, 0, 0, 0] (dirE 0x23 0 [0, 0, 0, 0]) = 0 ∧ lim 0x50 [0] (dirE 0x50 0 [0]) = 0
      ∧ ok 0x11 [0, BitVec.ofNat 64 (2 ^ 62), 0, 0] (withTxn t (dirE 0x11 0 [0, BitVec.ofNat 64 (2 ^ 62), 0, 0])) = 0
      ∧ ok 0xB0 [0, 4095] (withTxn t (dirE 0xB0 0 [0, 4095])) = 0
      ∧ ok 0xB1 [0, 4095, 0, 0, 0] { rec_ with ctl := { rec_.ctl with scenes := [(4095, some ⟨[], 0, 0, 0, 0⟩)] } } = 0 := by decide +kernel

theorem witness_WaitsEnd :
    let dry := holdE { heldOf 0x23 [0, 0, BitVec.ofNat 64 (2 ^ 32), 0] with graph := some Graph.empty }
    let none_ := holdE (heldOf 0x23 [])
    let free := { none_ with ctl := { none_.ctl with rings := [] } }
    let c : Commit := { op := 0x11, tag := 5, flags := 0, w1 := BitVec.ofNat 64 (2 ^ 62), w2 := 9, w3 := 0, w4 := 0, w5 := 0, n := 1 }
    let t := { txnOf 7 .validating with commit := some c }
    let com := withTxn t (holdE (heldOf 0x11 []))
    let rf := holdE (heldOf 0x03 [])
    let rst := { rf with ctl := { rf.ctl with resetFn := [(3, 0, 5, 0)] } }
    let mir := setBitF .HOST_PARAM_ACT_MIRROR 0 3 true { Engine.reset with ctl := { Ctl.reset with mirror := [(3, 0x10, [7])] } }
    supUp dry = true ∧ dry.ctl.txns = [] ∧ soleRing 0 dry = true ∧ (getRing dry 0).hold.isSome = true ∧ dry.ctl.deferred = [] ∧ dry.ctl.later = []
      ∧ supUp free = true ∧ free.ctl.txns = [] ∧ (getRing free 0).hold = none
      ∧ gives (.admissionResult 0) (onE free) (fun e => decide (e = free)) = true
      ∧ gives (.txnAcknowledge 0) (onE free) (fun e => decide (e = free)) = true
      ∧ com.ctl.txns = [t] ∧ soleRing 0 com = true ∧ (getRing com 0).hold = some (heldOf 0x11 []) ∧ pairActive com = false
      ∧ gives (.txnAcknowledge 0) (onE com) (fun e => (e.ctl.txns.any fun t => decide (t.st = .acked) && t.apply == 9)
        && getF .HOST_TXN_STAT_ACKED 0 e == 128 && decide ((getRing e 0).comps = [(compWord 5 0 0x11 false, 9)])) = true
      ∧ rf.ctl.resetFn = [] ∧ gives (.resetFnComplete 3 0 true) (onE rf) (fun e => decide (e = rf)) = true
      ∧ soleRing 0 rst = true ∧ (getRing rst 0).hold = some (heldOf 0x03 []) ∧ rst.ctl.resetFn = [(3, 0, (heldOf 0x03 []).tag, 0)]
      ∧ gives (.resetFnComplete 3 0 true) (onE rst) (fun e => e.ctl.resetFn == []
        && decide ((getRing e 0).comps = [(compWord 5 0 3 false, 0)])) = true
      ∧ bitF .HOST_PARAM_ACT_MIRROR 0 3 mir = true ∧ mir.ctl.mirror = [(3, 0x10, [7])] ∧ bitF .HOST_PARAM_ACT_MIRROR 0 3 Engine.reset = false
      ∧ gives (.parameterMirrorEnd 3) (onE mir) (fun e => readByte e (paramBase mir 3 + paramSize mir 3 + 0x10) == 7
        && e.ctl.mirror == []) = true := by decide +kernel

/-- A directive that applies, of opcode `op`. -/
def applies (op : Nat) : Staged := ⟨op, 0, 5, 0, [], 1⟩

theorem witness_DirectivesApply :
    let zc : List Word64 := [BitVec.ofNat 64 (2 ^ 48 * 0x10 + 2 ^ 32 * 0x2000)]
    let xf : List Word64 := [BitVec.ofNat 64 (2 ^ 48 * 0x10 + 2 ^ 32 * 0x2000 + 2 ^ 29)]
    let item : List Word64 := [BitVec.ofNat 64 0x3FFF, BitVec.ofNat 64 (2 ^ 60), 0, 0, 0]
    let gain : List Word64 := [BitVec.ofNat 64 (2 ^ 43 * 0x100200 + 7), BitVec.ofNat 64 (2 ^ 48 * 0xFFFF)]
    isStrip 0x10 = false ∧ (getSink Engine.reset 0x10).st = .steady ∧ (0x2000 : Nat) ≠ (getSink Engine.reset 0x10).cur
      ∧ bits (rec0 zc) 31 29 = 0 ∧ bits (rec0 xf) 31 29 ≠ 0 ∧ bits (rec0 item) 63 62 = 0 ∧ dValid (quadOf item) = true
      ∧ healthyCells (markCell 0 Engine.reset) 0 = [] ∧ isSendGp (gpOf gain) = false
      ∧ (getSink (applyRec (applies 0x30) 0 zc Engine.reset) 0x10).st = .zcwait
      ∧ (getSink (applyRec (applies 0x30) 0 xf Engine.reset) 0x10).st = .fade
      ∧ tget Quad.zero (applyRec (applies 0x21) 0 item Engine.reset).sched.edit.items 0x3FFF = quadOf item
      ∧ (getGp (applyRec (applies 0x40) 0 gain Engine.reset) (gpOf gain)).h = 7 := by decide +kernel

theorem witness_DirectivesApply_loads :
    healthyCells ((List.range 7).foldl (fun e c => markCell c e) Engine.reset) 1 = [7] := by decide +kernel

theorem witness_CommitsAreValidated_any :
    let t := txnOf 7 .open_
    let other := { txnOf 0 .open_ with ring := 7 }
    let adm := withTxn other (dirE 0x23 0 [0, 0, 0, 0])
    let com := withTwo t (dirE 0x11 0 [0, BitVec.ofNat 64 (2 ^ 62), 0, 0])
    let st := withTwo t (setF .HOST_SCENE_SIZE_SIZE 0 1 (dirE 0xB0 0 [0, 4095]))
    let rec_ := withTxn other (setF .HOST_SCENE_SIZE_SIZE 0 1 (dirE 0xB1 0 [0, 4095, 0, 0, 0]))
    let rcl := { rec_ with ctl := { rec_.ctl with scenes := [(4095, some ⟨[], 0, 0, 0, 0⟩)] } }
    let rf := dirE 0x03 0 [0, BitVec.ofNat 64 (2 ^ 56 * 5 + 3)]
    takes 0x23 0 [0, 0, 0, 0] adm = true ∧ openTxn adm 0 = none ∧ freeSlot adm = some 1
      ∧ gives (.admitGraph (dirD 0 [0, 0, 0, 0])) (onE adm) (fun e => e.ctl.txns.any fun t => decide (t.st = .validating) && t.slot == 1) = true
      ∧ takes 0x11 0 [0, BitVec.ofNat 64 (2 ^ 62), 0, 0] com = true ∧ openTxn com 0 = some t
      ∧ gives (.txnCommit (dirD 0 [0, BitVec.ofNat 64 (2 ^ 62), 0, 0])) (onE com) (fun e => e.ctl.txns.any fun t => decide (t.st = .validating)) = true
      ∧ takes 0xB0 0 [0, 4095] st = true ∧ openTxn st 0 = some t
      ∧ gives (.sceneStore (dirD 0 [0, 4095])) (onE st) (fun e => (tget none e.ctl.scenes 4095).isSome && e.ctl.txns.length == 1) = true
      ∧ takes 0xB1 0 [0, 4095, 0, 0, 0] rcl = true ∧ freeSlot rcl = some 1 ∧ sceneAt (viewNext (popDir 0 rcl)) 4095 = some ⟨[], 0, 0, 0, 0⟩
      ∧ gives (.sceneRecall (dirD 0 [0, 4095, 0, 0, 0])) (onE rcl) (fun e => e.ctl.txns.any fun t => decide (t.st = .validating) && t.slot == 1) = true
      ∧ takes 0x03 0 [0, BitVec.ofNat 64 (2 ^ 56 * 5 + 3)] rf = true ∧ openTxn rf 0 = none
      ∧ gives (.resetFn (dirD 0 [0, BitVec.ofNat 64 (2 ^ 56 * 5 + 3)])) (onE rf) (fun e => e.ctl.resetFn.contains (5, 3, 5, 0)) = true := by
  decide +kernel

theorem witness_CommitsAreValidated_statuses :
    let t := txnOf 7 .open_
    let other := { txnOf 0 .open_ with ring := 7 }
    let ok := fun op ws e v => firstStatus (ringStatus (popDir 0 e) 0 op ++ (checkRecs (taken op (dirD 0 ws) e) 0 (parse (popDir 0 e) op (dirD 0 ws)).recs v).statuses)
    let adm := withTxn other (dirE 0x23 0 [0, 0, 0, 0])
    let x := taken 0x23 (dirD 0 [0, 0, 0, 0]) adm
    let com := withTwo t (dirE 0x11 0 [0, BitVec.ofNat 64 (2 ^ 62), 0, 0])
    let st := withTwo t (setF .HOST_SCENE_SIZE_SIZE 0 1 (dirE 0xB0 0 [0, 4095]))
    let rec_ := withTxn other (setF .HOST_SCENE_SIZE_SIZE 0 1 (dirE 0xB1 0 [0, 4095, 0, 0, 0]))
    let rcl := { rec_ with ctl := { rec_.ctl with scenes := [(4095, some ⟨[], 0, 0, 0, 0⟩)] } }
    let rf := dirE 0x03 0 [0, BitVec.ofNat 64 (2 ^ 56 * 5 + 3)]
    firstStatus (ringStatus (popDir 0 adm) 0 0x23 ++ txnLimits (newTxn 1 x) x
        ++ (checkRecs x 0 (parse (popDir 0 adm) 0x23 (dirD 0 [0, 0, 0, 0])).recs (viewAcked (popDir 0 adm))).statuses) = 0
      ∧ ok 0x11 [0, BitVec.ofNat 64 (2 ^ 62), 0, 0] com (popDir 0 com) = 0 ∧ ok 0xB0 [0, 4095] st (popDir 0 st) = 0
      ∧ sceneBytes (viewNext (popDir 0 st)) 4095 + t.bytes ≤ 1048576 * getF .HOST_SCENE_SIZE_SIZE 0 st
      ∧ ok 0xB1 [0, 4095, 0, 0, 0] rcl (viewNext (popDir 0 rcl)) = 0 ∧ ok 0x03 [0, BitVec.ofNat 64 (2 ^ 56 * 5 + 3)] rf (popDir 0 rf) = 0 := by
  decide +kernel

theorem witness_WaitsEnd_any :
    let dry := withTxn { txnOf 0 .open_ with ring := 7 } (holdE { heldOf 0x23 [0, 0, BitVec.ofNat 64 (2 ^ 32), 0] with graph := some Graph.empty })
    let c : Commit := { op := 0x11, tag := 5, flags := 0, w1 := 0, w2 := 9, w3 := 0, w4 := 0, w5 := 0, n := 1 }
    let adm := { txnOf 7 .validating with commit := some c, staged := [⟨0x23, 0, 5, 0, [0, 0, 0, 0], 1⟩] }
    let t := { txnOf 7 .validating with commit := some c, staged := [⟨0x32, 0, 5, 0, [1, BitVec.ofNat 64 (2 ^ 48 * 255)], 1⟩] }
    let late := { t with commit := some { c with w2 := 1 } }
    let run := fun t => withTwo t (holdE (heldOf 0x11 []))
    let rst := { holdE (heldOf 0x03 []) with ctl := { (holdE (heldOf 0x03 [])).ctl with resetFn := [(3, 0, 5, 0), (5, 3, 0, 8)] } }
    let mir := setBitF .HOST_PARAM_ACT_MIRROR 0 3 true { Engine.reset with ctl := { Ctl.reset with mirror := [(0, 0, [1]), (3, 0x10, [7])] } }
    txnOfRing dry 0 .validating = none ∧ supUp dry = true ∧ soleRing 0 dry = true ∧ (getRing dry 0).hold.isSome = true
      ∧ txnOfRing (run adm) 0 .validating = some adm ∧ hasAdmit adm = true ∧ adm.admitted = none ∧ supUp (run adm) = true
      ∧ gives (.admissionResult 0) (onE (run adm)) (fun e => e.ctl.txns.any fun t => t.slot == 7 && t.admitted.isSome) = true
      ∧ txnOfRing (run t) 0 .validating = some t ∧ isFabric c = false ∧ hasAdmit t = false ∧ soleRing 0 (run t) = true
      ∧ (getRing (run t) 0).hold = some (heldOf 0x11 []) ∧ (validateTxn t c (run t)).1 = 0 ∧ (validateTxn late { c with w2 := 1 } (run late)).1 ≠ 0
      ∧ gives (.txnAcknowledge 0) (onE (run t)) (fun e => e.ctl.txns.any fun t => decide (t.st = .acked) && t.apply == 9) = true
      ∧ gives (.txnAcknowledge 0) (onE (run late)) (fun e => e.ctl.txns.all fun t => t.slot != 7) = true
      ∧ (Instr.resetFnComplete 5 3 true).wf = true ∧ resetBusy rst 5 3 = true
      ∧ gives (.resetFnComplete 5 3 true) (onE rst) (fun e => !resetting e 5 3 && resetBusy e 3 0) = true
      ∧ gives (.resetFnComplete 5 3 false) (onE rst) (fun e => resetting e 5 3 && !resetBusy e 5 3) = true
      ∧ bitF .HOST_PARAM_ACT_MIRROR 0 3 mir = true ∧ mir.ctl.mirror = [(0, 0, [1])] ++ [(3, 0x10, [7])]
      ∧ gives (.parameterMirrorEnd 3) (onE mir) (fun e => e.ctl.mirror == [(0, 0, [1])]) = true := by decide +kernel

theorem witness_DirectivesApply_deletes :
    let e := { Engine.reset with ctl := { Ctl.reset with scenes := [(9, some ⟨[], 0, 0, 0, 4⟩)] } }
    (tget none e.ctl.scenes 9).isSome = true
      ∧ tget none (applyRec ⟨0xB2, 0, 5, 0, [], 5⟩ 0 [1, 9] e).ctl.scenes 9 = none
      ∧ (tget none (applyRec ⟨0xB2, 0, 5, 0, [], 3⟩ 0 [1, 9] e).ctl.scenes 9).isSome = true := by decide +kernel

/-! ### Changes across the fabric, ports, references -/

theorem witness_FabricChangesAgree :
    let c : Commit := { op := 0x11, tag := 5, flags := 0, w1 := BitVec.ofNat 64 (2 ^ 62 + 2 ^ 60), w2 := 9, w3 := 0, w4 := BitVec.ofNat 64 (2 ^ 32 * 77), w5 := 0, n := 1 }
    let t := fun st ap => { txnOf 7 st with commit := some c, apply := ap }
    let up := regsE [(.SYS_SUP_STAT_STATE, 0, 1)]
    let s := fun st ap => withTxn (t st ap) up
    let k : Coord := ⟨2 ^ 63 + 1, 0, 9, 0, false⟩
    let co := fun p => { up with ctl := { Ctl.reset with coords := [(77, some { k with p := p })] } }
    supUp up = true ∧ fabricTxn up 77 = none ∧ tget none (co 9).ctl.coords 77 = some k ∧ k.done = false ∧ k.mask / 2 ^ 63 % 2 = 1 ∧ k.mask / 2 ^ 0 % 2 = 1
      ∧ k.prepared / 2 ^ 0 % 2 = 0 ∧ fabricTxn (co 9) 77 = none ∧ fabFrame (co 9) < ((9 : Nat) : Int) - 2 ∧ ¬ fabFrame (co 2) < ((2 : Nat) : Int) - 2
      ∧ fabricTxn (s .prepared 2) 77 = some (t .prepared 2, c) ∧ pairActive (s .prepared 2) = false ∧ (t .prepared 2).staged = []
      ∧ frameNo (s .prepared 2) + 1 < (t .prepared 2).apply ∧ isCoord c = false ∧ fabricTxn (s .doubt 1) 77 = some (t .doubt 1, c)
      ∧ gives (.prepare 77 9 63) (onE up) (fun e => e.fab.out.length == 1 && decide (e.ctl = Ctl.reset)) = true
      ∧ gives (.prepared 77 63 0x0401) (onE (co 9)) (fun e => decide (tget none e.ctl.coords 77 = none)) = true
      ∧ gives (.prepared 77 63 0) (onE (co 9)) (fun e => (tget none e.ctl.coords 77).any fun d => d.prepared == 2 ^ 63) = true
      ∧ gives (.fabricPrepareDeadline 77 63) (onE (co 2)) (fun e => decide (tget none e.ctl.coords 77 = none)) = true
      ∧ gives (.fabricPrepareDeadline 77 63) (onE (co 9)) (fun e => decide (e = co 9)) = true
      ∧ gives (.allPrepared 77) (onE (s .prepared 2)) (fun e => decide (e.ctl.txns = [t .acked 2]) && getF .HOST_TXN_STAT_ACKED 0 e == 128) = true
      ∧ gives (.inDoubtEntry 77) (onE (s .prepared 1)) (fun e => decide (e.ctl.txns = [t .doubt 1])) = true
      ∧ gives (.inDoubtEntry 77) (onE (s .prepared 2)) (fun e => decide (e.ctl.txns = [t .prepared 2])) = true
      ∧ gives (.inDoubtTimeout 77 false) (onE (s .doubt 1)) (fun e => decide (e.ctl.txns = [])) = true
      ∧ gives (.abort 77) (onE (s .prepared 2)) (fun e => decide (e.ctl.txns = [])) = true
      ∧ gives (.lateApplyReport 77 63 255) (onE (co 9)) (fun e => decide (e = postEvent 0x0404 [2 ^ 32 * 77 + 255 * 256 + 63] (co 9))) = true := by
  decide +kernel

theorem witness_FabricChangesAgree_any :
    let c : Commit := { op := 0x11, tag := 5, flags := 0, w1 := BitVec.ofNat 64 (2 ^ 62 + 2 ^ 60), w2 := 9, w3 := 0, w4 := BitVec.ofNat 64 (2 ^ 32 * 77), w5 := 0, n := 1 }
    let x : Staged := ⟨0x32, 0, 5, 0, [1, BitVec.ofNat 64 (2 ^ 48 * 255)], 1⟩
    let t := fun st ap => { txnOf 7 st with commit := some c, apply := ap, staged := [x] }
    let s := fun st ap => withTwo (t st ap) (regsE [(.SYS_SUP_STAT_STATE, 0, 1)])
    fabricTxn (s .validating 0) 77 = some (t .validating 0, c) ∧ hasAdmit (t .validating 0) = false ∧ supUp (s .validating 0) = true
      ∧ (validateAt (t .validating 0) (some 9) 9 false (s .validating 0)).1 = 0 ∧ (validateAt (t .validating 0) (some 1) 1 false (s .validating 0)).1 ≠ 0
      ∧ ((9 : Nat) - frameOfs (s .validating 0)).toNat = 9
      ∧ gives (.prepare 77 9 63) (onE (s .validating 0)) (fun e => e.ctl.txns.any fun t => decide (t.st = .prepared) && t.apply == 9) = true
      ∧ gives (.prepare 77 1 63) (onE (s .validating 0)) (fun e => e.ctl.txns.all fun t => t.slot != 7) = true
      ∧ frameNo (s .prepared 2) + 1 < (t .prepared 2).apply ∧ (t .prepared 1).apply ≤ frameNo (s .prepared 1) + 1 ∧ isCoord c = false
      ∧ gives (.allPrepared 77) (onE (s .prepared 2)) (fun e => e.ctl.txns.any fun t => decide (t.st = .acked) && t.apply == 2) = true
      ∧ gives (.allPrepared 77) (onE (s .doubt 1)) (fun e => e.ctl.txns.any fun t => decide (t.st = .acked) && t.apply == 2 && t.late == some 1) = true
      ∧ gives (.inDoubtEntry 77) (onE (s .prepared 1)) (fun e => e.ctl.txns.any fun t => decide (t.st = .doubt)) = true
      ∧ gives (.inDoubtTimeout 77 false) (onE (s .doubt 1)) (fun e => e.ctl.txns.length == 1) = true
      ∧ gives (.inDoubtTimeout 77 true) (onE (s .doubt 1)) (fun e => e.ctl.txns.any fun t => decide (t.st = .acked) && t.apply == 2) = true
      ∧ gives (.abort 77) (onE (s .doubt 1)) (fun e => e.ctl.txns.all fun t => t.slot != 7) = true := by decide +kernel

/-- Port `p` in RUN, with register fields. -/
def portE (p : Nat) (l : List (Fld × Nat × Nat)) : Engine := regsE ((.PORT_STAT_STATE, p, 2) :: l)

theorem witness_PortsCapture :
    let sap := portE 0 [(.PORT_SAPCFG_SLOTS, 0, 31), (.PORT_SAPCFG_EN, 0, 1), (.PORT_SAPCFG_W, 0, 0)]
    let aes := portE 0x37 [(.PORT_AESCFG_EN, 15, 1)]
    let g := { Engine.reset with ports := { PortSt.reset with groups := [(7, ⟨some (.sync true), some (.frame 9), false, 0⟩)] } }
    portRuns sap 0 = true ∧ portChans sap 0 = 32 ∧ portKind 0 < 2 ∧ (domOfPort sap 0).1 ≠ 2 ∧ (getPort sap 0).overran = false ∧ portRuns Engine.reset 59 = false
      ∧ portRuns aes 0x37 = true ∧ portEn aes 0x37 = true ∧ (domOfPort aes 0x37).1 ≠ 2 ∧ (getPort aes 0x37).overran = false
      ∧ measured sap 0 = true ∧ measured Engine.reset 59 = false ∧ hasTheta sap 0 = true ∧ portRuns (regsE [(.PORT_STAT_STATE, 0, 1)]) 0 = false
      ∧ measured (regsE [(.PORT_STAT_STATE, 0, 1)]) 0 = true
      ∧ gives (.portWordCapture 0 31 0xFFFF8001 0 0) (onE sap) (fun e => tget [] e.mix.fifo 0x101F == [0x80010000]) = true
      ∧ gives (.portWordCapture 0 32 1 0 0) (onE sap) (fun e => decide (e = sap)) = true
      ∧ gives (.aes3Subframe 15 1 0x123456 false true 0 0) (onE aes) (fun e => tget [] e.mix.fifo 0x141F == [0x12345600] && getF .PORT_AESSTAT_VB 15 e == 1) = true
      ∧ gives (.aes3Subframe 15 1 0x123456 true true 0 0) (onE aes) (fun e => tget [] e.mix.fifo 0x141F == [0] && getF .PORT_AESSTAT_PARERR 15 e == 1) = true
      ∧ gives (.channelStatusBlock 15 1 (List.replicate 24 1) false) (onE aes) (fun e => getF .PORT_AESSTAT_CRCERR 15 e == 1) = true
      ∧ gives (.channelStatusBlock 15 0 (List.replicate 24 1) true) (onE aes) (fun e => getF .PORT_AESCS_CS 125 e == 0x01010101) = true
      ∧ gives (.qualification 0 (-10000)) (onE sap) (fun e => getF .PORT_STAT_QUALD 0 e == 1 && getF .PORT_STAT_RATEOFS 0 e == 55536) = true
      ∧ gives (.clockStopDetect 0) (onE sap) (fun e => getF .PORT_STAT_QUALD 0 e == 0 && (getPort e 0).stop && isLost e 0x101F) = true
      ∧ gives (.glitch 0) (onE sap) (fun e => (getPort e 0).glitch) = true
      ∧ gives (.rateMismatch 0 10001) (onE sap) (fun e => (getPort e 0).mism == some 10001) = true
      ∧ gives (.elasticOverrun 0 true) (onE sap) (fun e => (getPort e 0).overran) = true
      ∧ gives (.elasticOverrun 0 false) (onE sap) (fun e => (getPort e 0).under) = true
      ∧ (getGroup g 7).start = some (.sync true) ∧ (getGroup g 7).stop = some (.frame 9)
      ∧ gives (.startSyncEdge true true) (onE g) (fun e => decide ((getGroup e 7).start = some (.frame 3))) = true
      ∧ gives (.startSyncEdge true false) (onE g) (fun e => decide ((getGroup e 7).start = some (.frame 2))) = true := by decide +kernel

theorem witness_PortsCapture_any :
    let pdm := portE 0x20 [(.PORT_PDMCFG_EN, 0, 1)]
    let madi := portE 0x38 [(.PORT_MADICFG_EN, 0, 1), (.PORT_MADICFG_CH, 0, 1)]
    let ovr := { portE 0 [(.PORT_SAPCFG_SLOTS, 0, 31), (.PORT_SAPCFG_EN, 0, 1)] with ports := { PortSt.reset with port := [(0, { Port.idle with overran := true })] } }
    let fn := portE 0 [(.PORT_SAPCFG_EN, 0, 1), (.PORT_SAPCFG_SLOTS, 0, 1), (.PORT_SAPCFG_DOM, 0, 2)]
    let aes := portE 0x37 [(.PORT_AESCFG_EN, 15, 1)]
    portRuns pdm 0x20 = true ∧ 0 < portChans pdm 0x20 ∧ portKind 0x20 = 1 ∧ portRuns madi 0x38 = true ∧ 3 < portChans madi 0x38 ∧ portKind 0x38 = 3
      ∧ (2 ^ 24 + 7).testBit 24 = true ∧ portRuns ovr 0 = true ∧ (getPort ovr 0).overran = true ∧ measured ovr 0 = true ∧ (domOfPort ovr 0).1 ≠ 2
      ∧ lastTwo fn 0 = false ∧ lastTwo fn 1000000 = true ∧ (domOfPort fn 0).1 = 2 ∧ portRuns fn 0 = true ∧ 0 < portChans fn 0
      ∧ gives (.portWordCapture 0x38 3 (2 ^ 24 + 7) 0 0) (onE madi) (fun e => tget [] e.mix.fifo (portBase 0x38 + 3) == [0]) = true
      ∧ gives (.portWordCapture 0 0 1 0 0) (onE ovr) (fun e => tget [] e.mix.fifo 0x1000 == []) = true
      ∧ gives (.portWordCapture 0 0 1 0 1000000) (onE fn) (fun e => (tget [] e.mix.fifoNext 0x1000).length == 1 && (tget [] e.mix.fifo 0x1000).isEmpty) = true
      ∧ gives (.qualification 0 10001) (onE ovr) (fun e => decide (e = ovr)) = true
      ∧ gives (.channelStatusBlock 15 1 (List.replicate 24 1) true) (onE aes) (fun e => tget [] e.ports.csB 15 == List.replicate 24 1) = true := by decide +kernel

theorem witness_ReferencesAreMonitored :
    let on : List (Fld × Nat × Nat) := [(.CLK_REFCFG_EN, 7, 1), (.CLK_REFSTAT_PRESENT, 7, 1), (.CLK_REFSTAT_QUAL, 7, 1)]
    let s := regsE (on ++ [(.CLK_STAT_STATE, 0, 1), (.CLK_STAT_SEL, 0, 7)])
    let gone := regsE [(.CLK_REFCFG_EN, 7, 1)]
    let soft := setF .CLK_REFSTAT_SOFT 7 1 (setF .CLK_REFOFS_OFS 7 18000 s)
    let wtr := { s with clk := { ClkSt.reset with slots := [(7, { RefSlot.idle with waiting := true })] } }
    refEn s 7 = true ∧ isF .CLK_REFSTAT_PRESENT 7 s = true ∧ receiverOff s 7 = false ∧ refEn Engine.reset 7 = false ∧ refEn gone 7 = true
      ∧ isF .CLK_REFSTAT_PRESENT 7 gone = false ∧ receiverOff gone 7 = false ∧ isF .CLK_REFSTAT_SOFT 7 soft = true
      ∧ (signed 32 (getF .CLK_REFOFS_OFS 7 soft)).natAbs ≤ 1000 * (getF .CLK_DRIFT_SOFT 0 soft - 2)
      ∧ driftOver (getSlot soft 7).ofs (getF .CLK_DRIFT_RATE 0 soft) = false ∧ (getSlot wtr 7).waiting = true ∧ refQual wtr 7 = true
      ∧ gives (.lossOfSignal 7) (onE s) (fun e => getF .CLK_REFSTAT_PRESENT 7 e == 0 && getF .CLK_REFSTAT_LOSS 7 e == 1 && getF .CLK_REFSTAT_QUAL 7 e == 0
        && getF .CLK_STAT_STATE 0 e == 0) = true
      ∧ gives (.frequencyMeasurement 7 (-50001)) (onE s) (fun e => getF .CLK_REFOFS_OFS 7 e == 2 ^ 32 - 50001 && getF .CLK_REFSTAT_HARDS 7 e == 1
        && getF .CLK_REFSTAT_SOFT 7 e == 1 && getF .CLK_REFSTAT_QUAL 7 e == 0) = true
      ∧ gives (.frequencyMeasurement 7 50000) (onE s) (fun e => getF .CLK_REFSTAT_HARDS 7 e == 0 && getF .CLK_REFSTAT_SOFT 7 e == 1) = true
      ∧ gives (.referenceSignalReturn 7) (onE gone) (fun e => getF .CLK_REFSTAT_PRESENT 7 e == 1) = true
      ∧ gives (.softAlarmClear 7) (onE soft) (fun e => getF .CLK_REFSTAT_SOFT 7 e == 0) = true
      ∧ gives (.wtrExpiry 7) (onE wtr) (fun e => !(getSlot e 7).waiting) = true := by decide +kernel

theorem witness_ReferencesAreMonitored_ptp :
    let s := regsE [(.CLK_REFCFG_EN, 7, 1), (.CLK_REFCFG_TYPE, 7, 4), (.CLK_REFSTAT_PRESENT, 7, 1), (.SYS_SUP_STAT_STATE, 0, 2)]
    refType s 7 = 4 ∧ supUp s = false ∧ refEn s 7 = true ∧ isF .CLK_REFSTAT_PRESENT 7 s = true
      ∧ gives (.lossOfSignal 7) (onE s) (fun e => decide (e = s)) = true := by decide +kernel

theorem witness_TransitionsEndLocked :
    let sup : List (Fld × Nat × Nat) := [(.SYS_SUP_STAT_STATE, 0, 1)]
    let fr := regsE (sup ++ [(.CLK_SEL_MODE, 0, 3), (.CLK_STAT_STATE, 0, 1)])
    let ho := { regsE (sup ++ [(.CLK_SEL_MODE, 0, 2), (.CLK_STAT_STATE, 0, 1)]) with clk := { ClkSt.reset with hist := [5] } }
    let ph := fun n => regsE [(.CLK_STAT_STATE, 0, 3), (.CLK_STAT_PHASE, 0, n), (.CLK_STAT_SEL, 0, 7)]
    let lk := { regsE [(.CLK_STAT_STATE, 0, 1)] with clk := { ClkSt.reset with hist := List.replicate 59 4 } }
    supUp fr = true ∧ getF .CLK_SEL_MODE 0 fr = 3 ∧ getF .CLK_STAT_STATE 0 fr ≠ 0 ∧ getF .CLK_SEL_MODE 0 ho = 2 ∧ ho.clk.hist ≠ []
      ∧ getF .CLK_STAT_STATE 0 (ph 3) = 3 ∧ getF .CLK_STAT_PHASE 0 (ph 3) = 3 ∧ getF .CLK_STAT_STATE 0 lk = 1
      ∧ refType (setF .CLK_SEL_SWMODE 0 1 (ph 1)) (selSlot (ph 1)) ≠ 4
      ∧ gives .selectionRun (onE fr) (fun e => getF .CLK_STAT_STATE 0 e == 0 && getF .CLK_STAT_SELV 0 e == 0) = true
      ∧ gives .selectionRun (onE ho) (fun e => getF .CLK_STAT_STATE 0 e == 2) = true
      ∧ gives .holdPhaseEnd (onE (ph 0)) (fun e => e.clk.hist == []) = true
      ∧ gives .acqTimeout (onE (ph 1)) (fun e => getF .CLK_STAT_STATE 0 e == 0 && getF .CLK_STAT_SELV 0 e == 0) = true
      ∧ gives (.holdoverHistoryRecord 9) (onE lk) (fun e => e.clk.hist.length == 60 && getF .CLK_STAT_HOSEC 0 e == 60 && getF .CLK_STAT_HOVALID 0 e == 1) = true := by
  decide +kernel

theorem witness_TransitionsEndLocked_selection :
    let on := fun (n : Nat) => ([(.CLK_REFCFG_EN, n, 1), (.CLK_REFCFG_QLPROV, n, 2), (.CLK_REFSTAT_PRESENT, n, 1), (.CLK_REFSTAT_QUAL, n, 1)] : List (Fld × Nat × Nat))
    let sup : List (Fld × Nat × Nat) := [(.SYS_SUP_STAT_STATE, 0, 1)]
    let free := regsE (sup ++ on 7)
    let lock := regsE (sup ++ on 7 ++ [(.CLK_STAT_STATE, 0, 1), (.CLK_STAT_SEL, 0, 7)])
    let move := regsE (sup ++ on 7 ++ [(.CLK_STAT_STATE, 0, 3), (.CLK_STAT_SEL, 0, 7), (.CLK_STAT_PHASE, 0, 1)])
    let two := regsE (sup ++ on 3 ++ on 7 ++ [(.CLK_STAT_STATE, 0, 3), (.CLK_STAT_SEL, 0, 7)])
    let none_ := regsE (sup ++ [(.CLK_STAT_STATE, 0, 1), (.CLK_STAT_SEL, 0, 7)])
    let best := fun e => bestSlot (allSlots.foldl evalSlot e)
    best free = some 7 ∧ best lock = some 7 ∧ best move = some 7 ∧ best two = some 3 ∧ best none_ = none ∧ getF .CLK_SEL_MODE 0 free < 2
      ∧ refQual (allSlots.foldl evalSlot move) 7 = true ∧ refQual (allSlots.foldl evalSlot two) 7 = true
      ∧ gives .selectionRun (onE free) (fun e => getF .CLK_STAT_STATE 0 e == 3 && getF .CLK_STAT_SEL 0 e == 7 && getF .CLK_STAT_PHASE 0 e == 0) = true
      ∧ gives .selectionRun (onE lock) (fun e => getF .CLK_STAT_STATE 0 e == 1) = true
      ∧ gives .selectionRun (onE move) (fun e => getF .CLK_STAT_STATE 0 e == 3 && getF .CLK_STAT_PHASE 0 e == 1) = true
      ∧ gives .selectionRun (onE two) (fun e => getF .CLK_STAT_PENDV 0 e == 1 && getF .CLK_STAT_PENDING 0 e == 3) = true
      ∧ gives .selectionRun (onE none_) (fun e => getF .CLK_STAT_STATE 0 e == 0) = true := by decide +kernel

theorem witness_TransitionsEndLocked_phases :
    let ph := fun n (q : TransPlan) => { regsE [(.CLK_STAT_STATE, 0, 3), (.CLK_STAT_PHASE, 0, n), (.CLK_STAT_SEL, 0, 7)] with clk := { ClkSt.reset with plan := q } }
    let slew : TransPlan := { ClkSt.reset.plan with build := false, slew := 5, ty := 2 }
    let ptp : TransPlan := { slew with ty := 4 }
    let full := { regsE [(.CLK_STAT_STATE, 0, 1)] with clk := { ClkSt.reset with hist := List.replicate 61 4 } }
    phaseIn (ph 1 slew) 1 = true ∧ phaseIn (ph 1 slew) 0 = false ∧ phaseIn (ph 1 slew) 2 = false ∧ phaseIn (ph 0 slew) 1 = false ∧ phaseIn (ph 0 slew) 3 = false
      ∧ (ph 1 slew).clk.plan.build = false ∧ alignPhase (ph 1 ptp) 1000000001 = 1000000001 ∧ alignPhase (ph 1 slew) (-7) = -7
      ∧ getF .CLK_STAT_PHASE 0 (ph 2 slew) = 2 ∧ getF .CLK_STAT_STATE 0 full = 1
      ∧ gives .acqTimeout (onE (ph 0 slew)) (fun e => decide (e = ph 0 slew)) = true
      ∧ gives (.holdoverHistoryRecord 9) (onE full) (fun e => e.clk.hist.length == 61 && getF .CLK_STAT_HOSEC 0 e == 60) = true := by decide +kernel

/-! ### Network media and time -/

/-- A stream record on both paths: 48 kHz, P 6, one channel, its first source 5. -/
def streamRec : List Word64 := [BitVec.ofNat 64 (2 ^ 52 + 2 ^ 53 + 2 ^ 27 * 5), 0, BitVec.ofNat 64 (2 ^ 32 * 0xFFFF), 0, 0, 0, 0, 0, 0, 0, 0]

/-- A receive stream with that record. -/
def rxOf : RxS := { rec_ := streamRec, buf := [], labels := [], seqs := [], slotOfs := 0, missAt := 0, recover := false }

theorem witness_StreamsAreWatched :
    let rx := fun st => { regsE [(.NET_RXSTAT_STATE, 511, st), (.NET_RXSTAT_PATHS, 511, 3)] with net := { NetSt.reset with rx := [(511, some rxOf)] } }
    let x : TxS := { rec_ := streamRec, start := 0, j := 1, q := [List.replicate 6 0], at_ := 0, sent := 0, built := [] }
    let tx := fun run => { regsE [(.NET_TXSTAT_RUN, 511, run), (.NET_PORTCFG_EN, 1, 1)] with net := { NetSt.reset with tx := [(511, some x)] } }
    let on := regsE [(.NET_PORTCFG_EN, 1, 1), (.NET_PORTSTAT_LINK, 1, 1)]
    let w := BitVec.ofNat 64 (2 ^ 48 * 64 + 2 ^ 46)
    let h := write64 0x2000000008 w (regsE [(.NET_HTX_CFG_EN, 0, 1), (.NET_HTX_TAIL_TAIL, 0, 1), (.NET_PORTCFG_EN, 1, 1), (.SYS_SUP_STAT_STATE, 0, 1)])
    getRx (rx 1) 511 = some rxOf ∧ getF .NET_RXSTAT_STATE 511 (rx 1) ≠ 3 ∧ getF .NET_RXSTAT_STATE 511 (rx 3) = 3
      ∧ recPath rxOf.rec_ 0 = true ∧ recPath rxOf.rec_ 1 = true ∧ bitF .NET_RXSTAT_PATHS 511 1 (rx 1) = true
      ∧ gives (.streamLoss 511) (onE (rx 1)) (fun e => getF .NET_RXSTAT_STATE 511 e == 3 && getF .NET_RXSTAT_PATHS 511 e == 0 && isLost e 5) = true
      ∧ gives (.streamRecovery 511) (onE (rx 3)) (fun e => (getRx e 511).any fun x => x.recover) = true
      ∧ gives (.pathLoss 511 1 true) (onE (rx 1)) (fun e => getF .NET_RXSTAT_PATHS 511 e == 1) = true
      ∧ gives (.pathLoss 511 1 false) (onE (rx 1)) (fun e => decide (e = rx 1)) = true
      ∧ getTx (tx 1) 511 = some x ∧ mediaSchedule (tx 0) 1 = [] ∧ ((mediaSchedule (tx 1) 1).map fun p => p.2.s) = [511]
      ∧ (x.q.all fun l => decide (recP x.rec_ ≤ l.length)) = true ∧ (tx 1).pair.muted = false ∧ resetting (tx 1) 2 511 = false
      ∧ gives (.mediaPacketLaunch ⟨511, 1⟩) (onE (tx 1)) (fun e => getF .NET_TXSTAT_SEQ 511 e == 0 && (tget [] e.net.pkt 1023).length == 66
        && (getTx e 511).any fun x => x.j == 1 && x.sent == 2) = true
      ∧ gives (.mediaPacketLaunch ⟨510, 1⟩) (onE (tx 1)) (fun e => decide (e = tx 1)) = true
      ∧ gives (.ethLinkChange 1 false) (onE on) (fun e => getF .NET_PORTSTAT_LINK 1 e == 0 && getF .NET_PORTSTAT_DOWNS 1 e == 1) = true
      ∧ gives (.ethLinkChange 1 true) (onE on) (fun e => getF .NET_PORTSTAT_LINK 1 e == 1) = true
      ∧ fecOn on 1 = false ∧ (parseFrame (List.replicate 60 2)).udp = none ∧ forHost on 1 (List.replicate 60 2) = false
      ∧ gives (.ethFrameReceive 1 (List.replicate 60 2) 0 0 0) (onE on) (fun e => getF .NET_STAT_DROP 0 e == 1) = true
      ∧ htxWaiting Engine.reset = [] ∧ htxWaiting h = [0] ∧ bits (hostRead64 h (htxEntry h 0 + 8)) 47 46 = 1 ∧ getF .NET_PORTCFG_EN 1 h = 1
      ∧ htxTimed h 0 = false ∧ h.pair.muted = false
      ∧ gives (.hostTransmitEntry 1 0) (onE h) (fun e => (tget [] e.net.wire 1).length == 64) = true := by decide +kernel

theorem witness_TimeIsKept :
    let a : Announce := ⟨128, 6, 0x21, 0, 128, 9, 0⟩
    let w : Nat → PtpInst := fun more => { PtpInst.off with w0 := BitVec.ofNat 64 (2 ^ 58 + more) }
    let s : PtpInst → List (Fld × Nat × Nat) → Engine := fun p l => { regsE ([(.SYS_SUP_STAT_STATE, 0, 1)] ++ l) with ptp := { PtpSt.reset with inst := [(1, p)] } }
    let lst := s (w 0) [(.PTP_STAT_STATE1, 0, 4)]
    let slv := s { w 0 with master := some a } [(.PTP_STAT_STATE1, 0, 9), (.CLK_STAT_STATE, 0, 1), (.CLK_STAT_SEL, 0, 0), (.CLK_REFCFG_TYPE, 0, 4),
      (.CLK_REFCFG_INST, 0, 1)]
    let big := { slv with ptp := { slv.ptp with inst := [(1, { w 0 with master := some a, big := true })] } }
    let p2p := s (w (2 ^ 54)) [(.PTP_STAT_STATE1, 0, 9)]
    let two := s { w (2 ^ 54 + 2 ^ 55) with follow := [[1]] } [(.PTP_STAT_STATE1, 0, 9)]
    let step := { s (w 0) [] with ptp := { PtpSt.reset with step := some 7 } }
    let cap := { regsE [(.SYS_GPIO_FUNC_FUNC, 0, 0x88)] with ptp := { PtpSt.reset with time := 2 ^ 32 * 1000 } }
    let pul := fun per => { cap with ptp := { cap.ptp with pulses := [(3, some ⟨0, 1008, per, 0⟩)] } }
    instEn (getInst Engine.reset 1) = false ∧ instEn (getInst lst 1) = true ∧ supUp lst = true ∧ instMaster (getInst lst 1) = false
      ∧ (getInst lst 1).master = none ∧ ptpState lst 1 = 4
      ∧ gives (.announceReceived 1 a) (onE lst) (fun e => (getInst e 1).master == some a && ptpState e 1 == 8) = true
      ∧ (getInst slv 1).master ≠ none ∧ gives (.announceReceiptTimeout 1) (onE slv) (fun e => (getInst e 1).master == none && ptpState e 1 == 4) = true
      ∧ ptpState slv 1 = 9 ∧ timekeeper slv = some 1 ∧ coupled slv = true
      ∧ gives (.syncReceived 1 (-1000000) false) (onE slv) (fun e => !(getInst e 1).big && e.ptp.step == none) = true
      ∧ gives (.syncReceived 1 1000001 false) (onE slv) (fun e => (getInst e 1).big && e.ptp.step == none) = true
      ∧ gives (.syncReceived 1 (-1000001) false) (onE big) (fun e => !(getInst e 1).big && e.ptp.step == some (-1000001)) = true
      ∧ step.ptp.step = some 7 ∧ supUp step = true
      ∧ gives (.timeStep 0) (onE step) (fun e => e.ptp.time == 2 ^ 32 * 7 && e.ptp.rewrite == some (2 ^ 32 * 7) && getF .PTP_STAT_STEPS 0 e == 1) = true
      ∧ ptpState p2p 1 ≠ 6 ∧ instP2p (getInst p2p 1) = true ∧ p2p.pair.muted = false
      ∧ gives (.ptpMessageTransmit 1 2 0) (onE p2p) (fun e => (tget [] e.net.wire 1).length == 54 && tget 0 (getInst e 1).seqs 2 == 1) = true
      ∧ gives (.delayReqReceived 1 true 0 0 0) (onE p2p) (fun e => (tget [] e.net.wire 1).length == 54) = true
      ∧ gives (.ptpMessageTransmit 1 1 0) (onE p2p) (fun e => decide (e = p2p)) = true
      ∧ gives (.delayReqReceived 1 true 0 0 0) (onE two) (fun e => (tget [] e.net.wire 1).length == 54 && (getInst e 1).follow.length == 2) = true
      ∧ two.pair.muted = false ∧ (getInst two 1).follow = [[1]]
      ∧ gives (.ptpMessageTransmit 1 3 0) (onE two) (fun e => tget [] e.net.wire 1 == [1] && (getInst e 1).follow == []) = true
      ∧ bitF .SYS_GPIO_FUNC_FUNC 0 3 cap = true ∧ 4 ≤ clockNs cap 0 ∧ clockNs cap 0 < 10 ^ 18 ∧ bitF .SYS_GPIO_FUNC_FUNC 0 2 cap = false
      ∧ clockNs (pul 0) 0 = 1000
      ∧ gives (.pulseFire 3 0) (onE (pul 0)) (fun e => decide (tget none e.ptp.pulses 3 = none) && tget (0, 0) e.ptp.fired 3 == (1008, 1008)) = true
      ∧ gives (.pulseFire 3 0) (onE (pul 5)) (fun e => (tget none e.ptp.pulses 3).any fun p => p.next == 1013) = true := by decide +kernel

theorem witness_StreamsAreWatched_frames :
    let base := regsE [(.NET_PORTCFG_EN, 1, 1), (.NET_PORTCFG_EN, 2, 1), (.NET_PORTCFG_SPEED, 1, 1), (.NET_PORTCFG_FEC, 1, 1)]
    let rx := { base with net := { NetSt.reset with rx := [(511, some rxOf)] } }
    let f := mediaFrame rx streamRec 1 0 (List.replicate 12 0)
    let ptpRec := streamRec.set 1 (BitVec.ofNat 64 (2 ^ 16 * 319)) |>.set 5 (BitVec.ofNat 64 0xE0000181)
    let g := mediaFrame rx ptpRec 1 0 (List.replicate 12 0)
    let ptp := { base with ptp := { PtpSt.reset with inst := [(1, { PtpInst.off with w0 := BitVec.ofNat 64 (2 ^ 58) })] } }
    let off : Engine := Engine.reset
    (parseFrame f).udp.isSome = true ∧ ((parseFrame f).udp.any fun u => streamOf rx 1 u.1 u.2.1 u.2.2.1 == some 511) = true
      ∧ ((parseFrame f).udp.any fun u => streamOf base 1 u.1 u.2.1 u.2.2.1 == none) = true
      ∧ ((parseFrame g).udp.any fun u => u.2.2.2.1 == 319 && ptpAddr (getInst ptp 1) u.2.1) = true ∧ instEn (getInst ptp 1) = true
      ∧ getF .NET_PORTCFG_EN 1 off = 0 ∧ (List.replicate 1519 (0 : Byte)).length = 1519 ∧ getF .NET_HRX_CFG_EN 0 base = 0
      ∧ gives (.ethFrameReceive 1 g 0 0 0) (onE ptp) (fun e => decide (e = ptp)) = true
      ∧ gives (.ethFrameReceive 2 f 0 0 0) (onE base) (fun e => getF .NET_STAT_HRXDROP 0 e == 1) = true
      ∧ gives (.ethFrameReceive 1 f 0 0 0) (onE off) (fun e => decide (e = off)) = true := by decide +kernel

theorem witness_StreamsAreWatched_host :
    let w := BitVec.ofNat 64 (2 ^ 48 * 64 + 2 ^ 46 + 2 ^ 45)
    let h := write64 0x2000000018 (BitVec.ofNat 64 (2 ^ 32 * 1000)) (write64 0x2000000008 w
      (regsE [(.NET_HTX_CFG_EN, 0, 1), (.NET_HTX_TAIL_TAIL, 0, 1), (.NET_PORTCFG_EN, 1, 1), (.SYS_SUP_STAT_STATE, 0, 1)]))
    let far := write64 0x2000000010 (BitVec.ofNat 64 (2 ^ 16 * 2)) h
    let held := setXmit 1 { Xmit.idle with held := some 0 } h
    let busy := setXmit 1 { Xmit.idle with busy := 10 ^ 9 } h
    (htxWaiting h).find? (fun k => bits (hostRead64 h (htxEntry h k + 8)) 47 46 == 1) = some 0 ∧ htxTimed h 0 = true ∧ htxTime h 0 = 1000
      ∧ clockNs h 0 = 0 ∧ clockNs h 1000 = 1000 ∧ htxMay h 1 0 100000 = true ∧ htxMay busy 1 0 100000 = false ∧ htxTime far 0 = 2000001000
      ∧ (getXmit held 1).held = some 0 ∧ 60 ≤ htxLen h 0 ∧ htxLen h 0 ≤ 1518
      ∧ gives (.hostTransmitEntry 1 0) (onE h) (fun e => (getXmit e 1).held == some 0) = true
      ∧ gives (.hostTransmitEntry 1 1000) (onE busy) (fun e => (getXmit e 1).held == some 0) = true
      ∧ gives (.hostTransmitEntry 1 1000) (onE h) (fun e => (tget [] e.net.wire 1).length == 64 && getF .NET_STAT_LATE 0 e == 0) = true
      ∧ gives (.hostTransmitEntry 1 1004) (onE h) (fun e => (tget [] e.net.wire 1).length == 64 && getF .NET_STAT_LATE 0 e == 1) = true
      ∧ gives (.hostTransmitEntry 1 1001) (onE held) (fun e => (tget [] e.net.wire 1).length == 64 && getF .NET_STAT_LATE 0 e == 0) = true
      ∧ gives (.hostTransmitEntry 1 999) (onE held) (fun e => decide (e = held)) = true
      ∧ gives (.hostTransmitEntry 1 1004) (onE busy) (fun e => decide (e = busy)) = true
      ∧ gives (.hostTransmitEntry 1 0) (onE far) (fun e => (tget [] e.net.wire 1).isEmpty && (getXmit e 1).held == none) = true := by decide +kernel

theorem witness_TimeIsKept_masters :
    let a : Announce := ⟨128, 6, 0x21, 0, 128, 9, 0⟩
    let b : Announce := { a with prio1 := 127, gm := 8 }
    let s : PtpInst → List (Fld × Nat × Nat) → Engine := fun p l => { regsE ([(.SYS_SUP_STAT_STATE, 0, 1)] ++ l) with ptp := { PtpSt.reset with inst := [(1, p)] } }
    let w : Nat → PtpInst := fun more => { PtpInst.off with w0 := BitVec.ofNat 64 (2 ^ 58 + more) }
    let slv := s { w 0 with master := some a } [(.PTP_STAT_STATE1, 0, 9)]
    let gm := s (w (2 ^ 56 + 2 ^ 57 + 2 ^ 55)) [(.PTP_STAT_STATE1, 0, 6), (.CLK_STAT_STATE, 0, 1)]
    let busy := setXmit 1 { Xmit.idle with busy := 10 ^ 9 } gm
    let full := { gm with ptp := { gm.ptp with inst := [(1, { w (2 ^ 56 + 2 ^ 57 + 2 ^ 55) with dreqs := 4096 })] } }
    let e2e := s (w 0) [(.PTP_STAT_STATE1, 0, 9)]
    let owes := { busy with ptp := { busy.ptp with inst := [(1, { w (2 ^ 56 + 2 ^ 57) with follow := [[1], [2]] })] } }
    lexLt (dataList b) (dataList a) = true ∧ lexLt (dataList a) (dataList b) = false ∧ (getInst slv 1).master = some a ∧ a.gm ≠ b.gm
      ∧ gives (.announceReceived 1 b) (onE slv) (fun e => (getInst e 1).master == some b && ptpState e 1 == 8) = true
      ∧ gives (.announceReceived 1 a) (onE slv) (fun e => ptpState e 1 == 9) = true
      ∧ actsMaster gm 1 = true ∧ instP2p (getInst gm 1) = false ∧ generalMay gm 1 0 (List.replicate 64 0) = true ∧ generalMay busy 1 0 (List.replicate 64 0) = false
      ∧ mayAnswer gm 1 7 0 = true ∧ mayAnswer full 1 7 0 = false ∧ actsMaster full 1 = true ∧ actsMaster busy 1 = true ∧ gm.pair.muted = false
      ∧ gives (.ptpMessageTransmit 1 1 0) (onE gm) (fun e => (tget [] e.net.wire 1).length == 64) = true
      ∧ gives (.ptpMessageTransmit 1 1 0) (onE busy) (fun e => decide (e = busy)) = true
      ∧ gives (.delayReqReceived 1 false 3 7 0) (onE gm) (fun e => (tget [] e.net.wire 1).length == 54) = true
      ∧ gives (.delayReqReceived 1 false 3 7 0) (onE busy) (fun e => (getInst e 1).follow.length == 1) = true
      ∧ gives (.delayReqReceived 1 false 3 7 0) (onE full) (fun e => decide (e = full)) = true
      ∧ ptpState e2e 1 = 9 ∧ instP2p (getInst e2e 1) = false
      ∧ gives (.ptpMessageTransmit 1 2 0) (onE e2e) (fun e => (tget [] e.net.wire 1).length == 44) = true
      ∧ generalMay owes 1 0 [1] = false ∧ gives (.ptpMessageTransmit 1 3 0) (onE owes) (fun e => decide (e = owes)) = true := by decide +kernel

theorem witness_TimeIsKept_sync :
    let a : Announce := ⟨128, 6, 0x21, 0, 128, 9, 0⟩
    let p : PtpInst := { PtpInst.off with w0 := BitVec.ofNat 64 (2 ^ 58), master := some a }
    let s : List (Fld × Nat × Nat) → Engine := fun l => { regsE ([(.SYS_SUP_STAT_STATE, 0, 1)] ++ l) with ptp := { PtpSt.reset with inst := [(0, p), (1, p)] } }
    let un := s [(.PTP_STAT_STATE1, 0, 8)]
    let other := s [(.PTP_STAT_STATE0, 0, 9), (.PTP_STAT_STATE1, 0, 9)]
    ptpState un 1 = 8 ∧ instEn (getInst un 1) = true
      ∧ slotOfInst other 1 = none ∧ ptpState other 1 = 9 ∧ (timekeeper other = some 1 ∨ timekeeper other = some 0) := by decide +kernel

/-! ### The fabric -/

/-- Link `l` in the state given, the supervisor running, with register fields. -/
def linkE (l st : Nat) (r : List (Fld × Nat × Nat)) : Engine := regsE ([(.FAB_LINK_STAT_STATE, l, st), (.SYS_SUP_STAT_STATE, 0, 1)] ++ r)

theorem witness_LinksCarryMessages :
    let hello : Hello := ⟨9, 0, 0, 1, 0, 4, 3⟩
    let y : SyncSet := ⟨0, 0, 0, 0, 0, 0, 0, 0, 0, 70⟩
    let up := linkE 3 3 []
    let miss := { up with fab := { FabSt.reset with miss := [(3, 1)] } }
    let bad : IsoBlock := ⟨4095, 0, [], false⟩
    let fwd := { linkE 3 3 [(.FAB_NODE_FLOCK, 0, 1)] with fab := { FabSt.reset with slots := [(4096 * 3 + 5, some (.fwd 1 7))] } }
    let m : OutMsg := ⟨3, 1, 2, 6, 2, .other⟩
    let held := { up with fab := { FabSt.reset with out := [m] } }
    linkState (linkE 3 1 []) 3 = 1 ∧ linkState (linkE 3 4 []) 3 = 4 ∧ linkState (linkE 3 2 []) 3 = 2
      ∧ gives (.blockLock 3) (onE (linkE 3 1 [])) (fun e => linkState e 3 == 2) = true
      ∧ gives (.linkRetrain 3) (onE (linkE 3 4 [])) (fun e => linkState e 3 == 1) = true
      ∧ gives (.linkFailure 3 7) (onE (linkE 3 2 [])) (fun e => linkState e 3 == 4 && getF .FAB_LINK_STAT_CAUSE 3 e == 7 && getF .FAB_LINK_STAT_FAILS 3 e == 1) = true
      ∧ gives (.linkFailure 3 7) (onE (linkE 3 4 [])) (fun e => decide (e = linkE 3 4 [])) = true
      ∧ ((linkE 3 2 []).fab.nodes.any fun n => n.serial == hello.serial && n.excluded) = false
      ∧ helloOk (linkE 3 2 []) hello = true ∧ getF .FAB_LINK_DLY_DLY 3 (linkE 3 2 []) ≤ 50000 ∧ helloOk (linkE 3 2 []) { hello with fid := 1 } = false
      ∧ gives (.helloReceived 3 hello) (onE (linkE 3 2 [])) (fun e => linkState e 3 == 3 && tget 0 e.fab.peer 3 == 9) = true
      ∧ gives (.helloReceived 3 { hello with fid := 1 }) (onE (linkE 3 2 [])) (fun e => linkState e 3 == 2 && getF .FAB_LINK_STAT_CAUSE 3 e == 4) = true
      ∧ gives (.syncBlockSet 3 y) (onE (linkE 3 2 [(.FAB_LINK_CFG_ASYM, 3, 0xFFFF)])) (fun e => getF .FAB_LINK_DLY_DLY 3 e == 71) = true
      ∧ linkUp up 3 = true ∧ linkUp Engine.reset 3 = false ∧ tget 0 up.fab.miss 3 = 0 ∧ 1 ≤ tget 0 miss.fab.miss 3
      ∧ gives (.syncMissing 3) (onE up) (fun e => tget 0 e.fab.miss 3 == 1) = true
      ∧ gives (.syncMissing 3) (onE miss) (fun e => linkState e 3 == 4 && getF .FAB_LINK_STAT_CAUSE 3 e == 5) = true
      ∧ bad.crcOk = false ∧ gives (.isochronousBlock 3 bad) (onE up) (fun e => getF .FAB_LINK_CNT_CRCERR 3 e == 1) = true
      ∧ fabLocked fwd = true ∧ tget none fwd.fab.slots (4096 * 3 + 5) = some (.fwd 1 7)
      ∧ gives (.isochronousBlock 3 ⟨5, 0, [1], true⟩) (onE fwd) (fun e => e.fab.fwd == [(1, ⟨7, 0, [1], true⟩)]) = true
      ∧ supUp up = true ∧ ownAddr up = 0
      ∧ gives (.reliableMessage 3 ⟨5, 7, 4, .other⟩) (onE up) (fun e => e.fab.out.length == 1 && tget 0 e.fab.acked 3 == 5) = true
      ∧ gives (.reliableMessage 3 ⟨5, 0, 0, .other⟩) (onE up) (fun e => tget 0 e.fab.seqRx 5 == 1) = true
      ∧ gives (.reliableMessage 3 ⟨5, 0, 1, .other⟩) (onE up) (fun e => tget 0 e.fab.seqRx 5 == 0 && e.fab.gap == [⟨5, 0, 1, .other⟩]) = true
      ∧ gives (.reliableAck 3 1 2 6) (onE held) (fun e => e.fab.out == []) = true
      ∧ held.fab.out = [m] ∧ gives (.reliableRetry 3 1 2 6) (onE held) (fun e => getF .FAB_LINK_CNT_RETRY 3 e == 1 && getF .FAB_LINK_STAT_SUSPECT 3 e == 1) = true := by
  decide +kernel

theorem witness_LinksCarryMessages_hello :
    let far := linkE 3 2 [(.FAB_LINK_DLY_DLY, 3, 50001)]
    let up := { linkE 3 3 [] with fab := { FabSt.reset with peer := [(3, 9)] } }
    let hello : Hello := ⟨9, 0, 0, 1, 0, 4, 3⟩
    let shut := { linkE 3 2 [] with fab := { FabSt.reset with nodes := [⟨63, 9, true, 0, true⟩] } }
    helloOk far hello = true ∧ 50000 < getF .FAB_LINK_DLY_DLY 3 far
      ∧ gives (.helloReceived 3 hello) (onE far) (fun e => linkState e 3 == 2 && getF .FAB_LINK_STAT_CAUSE 3 e == 3) = true
      ∧ linkUp (linkE 3 1 []) 3 = false ∧ gives (.helloReceived 3 hello) (onE (linkE 3 1 [])) (fun e => decide (e = linkE 3 1 [])) = true
      ∧ linkUp up 3 = true ∧ gives (.helloReceived 3 hello) (onE up) (fun e => decide (e = up)) = true
      ∧ tget 0 up.fab.peer 3 ≠ 8 ∧ gives (.helloReceived 3 { hello with serial := 8 }) (onE up) (fun e => linkState e 3 == 4 && getF .FAB_LINK_STAT_CAUSE 3 e == 6) = true
      ∧ linkState shut 3 = 2 ∧ (shut.fab.nodes.any fun n => n.serial == 9 && n.excluded) = true
      ∧ gives (.helloReceived 3 hello) (onE shut) (fun e => linkState e 3 == 2 && getF .FAB_LINK_STAT_CAUSE 3 e == 8) = true := by decide +kernel

theorem witness_LinksCarryMessages_sync :
    let up := { linkE 3 3 [(.FAB_NODE_INFAB, 0, 1)] with fab := { FabSt.reset with peer := [(3, 9)], miss := [(3, 1)], noRoot := 5 } }
    let y : SyncSet := ⟨0, 0, 7, 63, 9, 0, 0, 0, 63, 50000⟩
    linkUp up 3 = true ∧ tget 0 up.fab.peer 3 = y.serial ∧ inFab up = true ∧ y.gen = getF .FAB_GEN_GEN 0 up ∧ y.rootSerial = up.fab.rootSerial
      ∧ getF .FAB_NODE_TM 0 up = 0
      ∧ gives (.syncBlockSet 3 y) (onE up) (fun e => linkState e 3 == 3 && getF .FAB_LINK_DLY_DLY 3 e == 50000 && tget 0 e.fab.miss 3 == 0
        && getF .FAB_LINK_STAT_PEER 3 e == 63 && e.fab.noRoot == 0) = true
      ∧ gives (.syncBlockSet 3 { y with dly := 50001 }) (onE up) (fun e => linkState e 3 == 2 && getF .FAB_LINK_STAT_CAUSE 3 e == 3) = true
      ∧ gives (.syncBlockSet 3 { y with serial := 8 }) (onE up) (fun e => linkState e 3 == 4 && getF .FAB_LINK_STAT_CAUSE 3 e == 6) = true
      ∧ linkUp (linkE 3 1 []) 3 = false ∧ linkState (linkE 3 1 []) 3 ≠ 2
      ∧ gives (.syncBlockSet 3 y) (onE (linkE 3 1 [])) (fun e => decide (e = linkE 3 1 [])) = true := by decide +kernel

-- The node whose link 0 carries its synchronisation is fabric-locked through it.
theorem witness_LinksCarryMessages_clock :
    let up := { regsE [(.FAB_LINK_STAT_STATE, 0, 3), (.FAB_NODE_INFAB, 0, 1)] with fab := { FabSt.reset with peer := [(0, 9)] } }
    inFab up = true ∧ syncLink up = 0 ∧ getF .FAB_NODE_TM 0 up = 0
      ∧ gives (.syncBlockSet 0 ⟨0, 0, 7, 63, 9, 0, 0, 0, 63, 50⟩) (onE up) (fun e => e.clk.fabQl == 7) = true := by decide +kernel

theorem witness_LinksCarryMessages_block :
    let lk := fun st => { linkE 3 3 [(.FAB_NODE_FLOCK, 0, 1), (.FAB_RXSTAT_STATE, 2047, st), (.FAB_RXSTAT_LP, 2047, 2)] with
      fab := { FabSt.reset with slots := [(4096 * 3 + 5, some (.rx 2047))] } }
    let b : IsoBlock := ⟨5, 0, [1, -2], true⟩
    let fwd := { b with origin := 2 ^ 16 - 2 }
    let bad := { lk 1 with sched := { (lk 1).sched with conc := [(0x1800 + 2047, { Conceal.clear with now := true, run := 3 })] } }
    fabLocked (lk 1) = true ∧ tget none (lk 1).fab.slots (4096 * 3 + b.ch) = some (.rx 2047) ∧ tget none (lk 1).fab.slots (4096 * 3 + 6) = none
      ∧ frameNo (lk 1) = 0 ∧ near16 (fabFrame (lk 1)) b.origin + (getF .FAB_RXSTAT_LP 2047 (lk 1) : Int) - frameOfs (lk 1) = 2
      ∧ near16 (fabFrame (lk 1)) fwd.origin + (getF .FAB_RXSTAT_LP 2047 (lk 1) : Int) - frameOfs (lk 1) = 0
      ∧ ((128 / frameLen (lk 1) : Nat) : Int) = 8
      ∧ gives (.isochronousBlock 3 b) (onE (lk 2)) (fun e => decide (e = lk 2)) = true
      ∧ gives (.isochronousBlock 3 { b with ch := 6 }) (onE (lk 1)) (fun e => decide (e = lk 1)) = true
      ∧ gives (.isochronousBlock 3 { b with origin := 6 }) (onE (lk 1)) (fun e => decide (e = lk 1)) = true
      ∧ gives (.isochronousBlock 3 b) (onE (lk 1)) (fun e => e.fab.arrived == [(2047, 2)]) = true
      ∧ (getConc (lk 1) (0x1800 + 2047)).now = false ∧ gives (.isochronousBlock 3 fwd) (onE (lk 1)) (fun e => readByte e (fabRing e 2047 0) == 1) = true
      ∧ (getConc bad (0x1800 + 2047)).now = true
      ∧ gives (.isochronousBlock 3 fwd) (onE bad) (fun e => !(getConc e (0x1800 + 2047)).now && (getConc e (0x1800 + 2047)).run == 0) = true := by decide +kernel

theorem witness_LinksCarryMessages_reliable :
    let up := linkE 3 3 []
    let wait := { up with fab := { FabSt.reset with gap := [⟨5, 0, 1, .other⟩] } }
    let m : OutMsg := ⟨3, 1, 2, 6, 0, .other⟩
    let held := { up with fab := { FabSt.reset with out := [m, { m with seq := 7 }] } }
    linkUp wait 3 = true ∧ supUp wait = true ∧ ownAddr wait = 0
      ∧ gives (.reliableMessage 3 ⟨5, 0, 0, .other⟩) (onE wait) (fun e => tget 0 e.fab.seqRx 5 == 2 && tget 0 e.fab.acked 3 == 1) = true
      ∧ gives (.reliableMessage 3 ⟨5, 0, 1, .other⟩) (onE wait) (fun e => e.fab.gap == wait.fab.gap && tget 0 e.fab.acked 3 == 2) = true
      ∧ (held.fab.out.find? fun m => m.isMsg 3 1 2 6) = some m
      ∧ gives (.reliableRetry 3 1 2 6) (onE held) (fun e => e.fab.out == [{ m with tries := 1 }, { m with seq := 7 }] && getF .FAB_LINK_STAT_SUSPECT 3 e == 0) = true := by
  decide +kernel

theorem witness_FabricIsKept :
    let inf := regsE [(.SYS_SUP_STAT_STATE, 0, 1), (.FAB_NODE_INFAB, 0, 1)]
    let late := { inf with fab := { FabSt.reset with noRoot := 10 } }
    let row : RouteRow := ⟨63, 3, 1, none⟩
    let rx := fun st prot => regsE [(.SYS_SUP_STAT_STATE, 0, 1), (.FAB_NODE_FLOCK, 0, 1), (.FAB_RXSTAT_STATE, 2047, st), (.FAB_RXSTAT_PROT, 2047, prot)]
    let x : FabNode := ⟨63, 9, false, 0, true⟩
    let root := { regsE [(.FAB_NODE_ROOT, 0, 1), (.FAB_LINK_STAT_STATE, 3, 3), (.FAB_LINK_STAT_PEER, 3, 63)] with fab := { FabSt.reset with nodes := [x] } }
    let lk := { regsE [(.FAB_NODE_FLOCK, 0, 1), (.FAB_RXSTAT_STATE, 5, 1)] with fab := { FabSt.reset with slots := [(1, some (.rx 5))] } }
    let un := regsE [(.CLK_STAT_STATE, 0, 1), (.CLK_REFCFG_TYPE, 0, 5)]
    inFab late = true ∧ 10 ≤ late.fab.noRoot ∧ gives .rootLossElection (onE late) (fun e => e.fab.electing) = true
      ∧ inFab inf = true ∧ hotActive inf = false
      ∧ gives (.routeTableInstall 77 [row]) (onE inf) (fun e => getF .FAB_GEN_GEN 0 e == 77 && getF .FAB_ROUTE_VALID 63 e == 1 && getF .FAB_ROUTE_PLINK 63 e == 3
        && getF .FAB_ROUTE_PHOPS 63 e == 1 && getF .FAB_ROUTE_VALID 62 e == 0) = true
      ∧ getF .FAB_RXSTAT_STATE 2047 (rx 1 1) = 1 ∧ getF .FAB_RXSTAT_PROT 2047 (rx 1 1) = 1 ∧ getF .FAB_RXSTAT_ONALT 2047 (rx 1 1) = 0
      ∧ gives (.failureNotice 63 3 [] [2047]) (onE (rx 1 1)) (fun e => getF .FAB_RXSTAT_ONALT 2047 e == 1 && getF .FAB_RXSTAT_STATE 2047 e == 1) = true
      ∧ fabLocked (rx 2 0) = true ∧ gives (.rerouteAttempt 2047 true true) (onE (rx 2 0)) (fun e => getF .FAB_RXSTAT_STATE 2047 e == 1) = true
      ∧ gives (.rerouteAttempt 2047 true false) (onE (rx 2 0)) (fun e => decide (e = pathEvent 2047 true 1 (rx 2 0))) = true
      ∧ isRoot root = true ∧ root.fab.nodes = [x] ∧ x.excluded = false ∧ linkUp root 3 = true ∧ getF .FAB_LINK_STAT_PEER 3 root = 63
      ∧ knownNode root 62 = false
      ∧ gives (.nodeExclusion 63) (onE root) (fun e => e.fab.nodes == [{ x with excluded := true }] && linkState e 3 == 2 && getF .FAB_LINK_STAT_CAUSE 3 e == 8) = true
      ∧ fabLocked lk = true ∧ getF .FAB_NODE_TM 0 lk = 0 ∧ 5 ∈ rxMapped lk ∧ getF .FAB_RXSTAT_STATE 5 lk = 1
      ∧ fabLocked un = false ∧ getF .CLK_STAT_STATE 0 un = 1 ∧ refType un (selSlot un) = 5
      ∧ gives (.fabricLockChange true (-5)) (onE un) (fun e => getF .FAB_NODE_FLOCK 0 e == 1 && frameOfs e == -5) = true := by decide +kernel

theorem witness_FabricIsKept_root :
    let e0 := regsE [(.SYS_SUP_STAT_STATE, 0, 1)]
    ∃ n : NodeInfo, n.serial = ownSerial e0 ∧ n.addr = none ∧ n.pref = none ∧ n.tmcand = true ∧ inFab e0 = false ∧ supUp e0 = true
      ∧ e0.fab.nodes = [] ∧ e0.fab.tx = [] ∧ e0.fab.slots = [] :=
  ⟨⟨ownSerial (regsE [(.SYS_SUP_STAT_STATE, 0, 1)]), 128, 0, true, none, none⟩, rfl, rfl, rfl, rfl, rfl, rfl, rfl, rfl, rfl⟩

-- The node of serial number 0 is the root of a fabric of two, and its time master where it alone is a candidate.
theorem witness_FabricIsKept_two :
    let e0 := regsE [(.SYS_SUP_STAT_STATE, 0, 1)]
    let n : NodeInfo := ⟨ownSerial e0, 1, 1, true, none, none⟩
    let ns := [n, ⟨ownSerial e0 + 1, 2, 0, false, some 63, none⟩]
    (ns.any fun n => n.serial == ownSerial e0) = true ∧ leastNode (fun n => (n.rprio, n.serial)) ns = some n ∧ supUp e0 = true := by
  refine ⟨?_, ?_, rfl⟩
  · simp
  · simp [leastNode, pairLt]

theorem witness_FabricIsKept_routes :
    let up := fun r => regsE ([(.SYS_SUP_STAT_STATE, 0, 1), (.FAB_NODE_INFAB, 0, 1)] ++ r)
    let path : TxPath := ⟨2, 4, true, 3, 0, 1, some (3, 2), false, false, false⟩
    let on := fun p r => { up r with fab := { FabSt.reset with tx := [(7, some p)] } }
    let rows : List RouteRow := [⟨63, 3, 1, some (2, 3)⟩, ⟨0, 1, 2, none⟩]
    let alt := up [(.FAB_RXSTAT_STATE, 2047, 1), (.FAB_RXSTAT_PROT, 2047, 1), (.FAB_RXSTAT_ONALT, 2047, 1)]
    let lost := up [(.FAB_RXSTAT_STATE, 2047, 2)]
    gives (.routeTableInstall 9 rows) (onE (up [])) (fun e => getF .FAB_ROUTE_VALID 63 e == 1 && getF .FAB_ROUTE_AVALID 63 e == 1 && getF .FAB_ROUTE_ALINK 63 e == 2
        && getF .FAB_ROUTE_AHOPS 63 e == 3 && getF .FAB_ROUTE_VALID 0 e == 1 && getF .FAB_ROUTE_AVALID 0 e == 0 && getF .FAB_ROUTE_VALID 1 e == 0) = true
      ∧ getPath (on path []) 7 = some path ∧ onAlt (on path []) 7 = false ∧ (path.priDown && (path.altDown || path.alt.isNone)) = false
      ∧ gives (.failureNotice 5 0 [7] []) (onE (on path [])) (fun e => getPath e 7 == some { path with priDown := true } && e.fab.switch.contains 7) = true
      ∧ onAlt (on path [(.FAB_TXSTAT_ONALT, 7, 1)]) 7 = true
      ∧ gives (.failureNotice 5 3 [7] []) (onE (on path [(.FAB_TXSTAT_ONALT, 7, 1)])) (fun e => getPath e 7 == some { path with altDown := true }) = true
      ∧ gives (.failureNotice 5 3 [] [2047]) (onE alt) (fun e => getF .FAB_RXSTAT_STATE 2047 e == 2 && isLost e (0x1800 + 2047)) = true
      ∧ getF .FAB_RXSTAT_STATE 2047 lost = 2 ∧ fabLocked lost = false
      ∧ gives (.rerouteAttempt 2047 true true) (onE lost) (fun e => decide (e = pathEvent 2047 true 1 lost)) = true
      ∧ getF .FAB_RXSTAT_STATE 2047 alt = 1 ∧ getF .FAB_RXSTAT_PROT 2047 alt = 1 ∧ getF .FAB_RXSTAT_ONALT 2047 alt = 1
      ∧ gives (.rerouteAttempt 2047 true true) (onE alt) (fun e => getF .FAB_RXSTAT_ONALT 2047 e == 0 && getF .FAB_RXSTAT_STATE 2047 e == 1) = true
      ∧ gives (.rerouteAttempt 2047 true false) (onE alt) (fun e => getF .FAB_RXSTAT_ONALT 2047 e == 1 && getF .FAB_RXSTAT_STATE 2047 e == 1) = true
      ∧ getPath (up []) 7 = none ∧ gives (.rerouteAttempt 7 false true) (onE (up [])) (fun e => decide (e = up [])) = true
      ∧ getPath (on { path with priDown := true, alt := none } []) 7 = some { path with priDown := true, alt := none }
      ∧ gives (.rerouteAttempt 7 false true) (onE (on { path with priDown := true, alt := none } [])) (fun e => (getPath e 7).any fun q => !q.priDown && q.dst == 2) = true
      ∧ getPath (on { path with priDown := true } []) 7 = some { path with priDown := true }
      ∧ gives (.rerouteAttempt 7 false true) (onE (on { path with priDown := true } [])) (fun e => (getPath e 7).any fun q => !q.priDown && !q.altDown) = true
      ∧ gives (.rerouteAttempt 7 false true) (onE (on path [(.FAB_TXSTAT_ONALT, 7, 1)])) (fun e => e.fab.switchNow.contains 7) = true
      ∧ gives (.rerouteAttempt 7 false false) (onE (on path [])) (fun e => decide (e = on path [])) = true := by decide +kernel

theorem witness_FabricIsKept_nodes :
    let x : FabNode := ⟨63, 9, true, 0, true⟩
    let root := { regsE [(.FAB_NODE_ROOT, 0, 1)] with fab := { FabSt.reset with nodes := [x, ⟨62, 8, false, 0, true⟩] } }
    let tm := fun b => regsE [(.FAB_NODE_TM, 0, 1), (.FAB_NODE_FLOCK, 0, b)]
    isRoot root = true ∧ knownNode root 62 = true ∧ (root.fab.nodes.any fun n => n.addr == 62 && n.excluded) = false
      ∧ (root.fab.nodes.any fun n => n.addr == 63 && n.excluded) = true ∧ gives (.nodeExclusion 63) (onE root) (fun e => decide (e = root)) = true
      ∧ gives (.nodeExclusion 62) (onE root) (fun e => e.fab.nodes == [x, ⟨62, 8, true, 0, true⟩] && e.health.recs.length == 1) = true
      ∧ fabLocked (tm 1) = true ∧ getF .FAB_NODE_TM 0 (tm 1) = 1 ∧ gives (.fabricLockChange false 4) (onE (tm 1)) (fun e => decide (e = tm 1)) = true
      ∧ fabLocked (tm 0) = false ∧ gives (.fabricLockChange true 4) (onE (tm 0)) (fun e => getF .FAB_NODE_FLOCK 0 e == 1 && frameOfs e == 0) = true
      ∧ onFabricSlot Engine.reset = false ∧ gives (.fabricLockChange true 4) (onE Engine.reset) (fun e => decide (e = Engine.reset)) = true := by decide +kernel

/-! ### Redundant pairs -/

/-- A member of a pair in the role given. -/
def pairE (role : Nat) (p : PairSt) (l : List (Fld × Nat × Nat)) : Engine := { regsE ((.PAIR_STAT_ROLE, 0, role) :: l) with pair := p }

theorem witness_RolesAreDecided :
    let p := PairSt.reset
    let low := pairE 0 { p with deciding := true, lowRun := 3 } [(.PAIR_CFG_MODE, 0, 1)]
    let high := pairE 0 { p with deciding := true, highRun := 12 } [(.PAIR_CFG_MODE, 0, 1), (.PAIR_CFG_SIDE, 0, 1)]
    let peer := pairE 3 p [(.PAIR_STAT_AUTO, 0, 1)]
    let arm := pairE 3 { p with pulseRun := 6000 } []
    let act := pairE 1 p []
    let rel := pairE 2 p []
    let take := pairE 3 { p with highRun := 3, pulseAt := some 0 } [(.PAIR_CFG_MODE, 0, 1), (.PAIR_STAT_PSTATE, 0, 3), (.PAIR_STAT_AUTO, 0, 1)]
    let other : Heartbeat := ⟨0, 3, 3, 2, true, 0, false, false, [], 0⟩
    let hand := pairE 1 { p with hand := 1, peer := some other } [(.PAIR_CFG_MODE, 0, 2), (.SYS_FRAME_CNT_LO_FRAME, 0, 1), (.PAIR_STAT_LINK_OK, 0, 1)]
    let refuse := pairE 1 { p with hand := 1 } [(.PAIR_CFG_MODE, 0, 2), (.SYS_FRAME_CNT_LO_FRAME, 0, 1)]
    let take2 := pairE 3 { p with hand := 1 } [(.PAIR_CFG_MODE, 0, 2), (.SYS_FRAME_CNT_LO_FRAME, 0, 1), (.PAIR_STAT_PSTATE, 0, 2)]
    low.pair.deciding = true ∧ 3 ≤ low.pair.lowRun ∧ pairMode low = 1 ∧ high.pair.lowRun < 3 ∧ 12 ≤ high.pair.highRun ∧ high.pair.heard = false
      ∧ gives .roleDecision (onE low) (fun e => pairRole e == 3 && peerState e == 0 && e.pair.muted) = true
      ∧ gives .roleDecision (onE high) (fun e => pairRole e == 1 && e.pair.eclLow && !e.pair.muted) = true
      ∧ gives (.eclipseSample true) (onE peer) (fun e => getF .PAIR_STAT_LINE 0 e == 1 && e.pair.highRun == 1) = true
      ∧ gives (.lineTestPulse true) (onE peer) (fun e => getF .PAIR_STAT_LTOK 0 e == 1 && e.pair.pulseAt == some 0) = true
      ∧ gives (.lineTestPulse true) (onE act) (fun e => !e.pair.lineBad) = true
      ∧ pairRole peer = 3 ∧ getF .PAIR_STAT_AUTO 0 peer = 1 ∧ pulseFresh peer = false
      ∧ gives (.autoDisarm false) (onE peer) (fun e => getF .PAIR_STAT_AUTO 0 e == 0 && pairRole e == 3) = true
      ∧ secFrames arm ≤ arm.pair.pulseRun ∧ gives (.autoDisarm true) (onE arm) (fun e => getF .PAIR_STAT_AUTO 0 e == 1) = true
      ∧ pairRole act = 1 ∧ gives (.deadManRelease 0) (onE act) (fun e => e.host.warmReq.isSome && !e.pair.eclLow) = true
      ∧ pairRole rel = 2 ∧ gives .releasedMute (onE rel) (fun e => e.pair.muted) = true
      ∧ mayTake take = true ∧ gives .takeover (onE take) (fun e => pairRole e == 1 && getF .PAIR_STAT_TAKEN 0 e == 1 && e.health.readmit
        && e.pair.warmT == some 0) = true
      ∧ hand.pair.hand ≠ 0 ∧ (hand.pair.hand : Int) ≤ fabFrame hand ∧ hand.pair.handBy = none ∧ otherQualified hand = true ∧ pairMode hand = 2
      ∧ gives .handover (onE hand) (fun e => pairRole e == 3 && peerState e == 2 && e.pair.hand == 0 && e.pair.muted) = true
      ∧ otherQualified refuse = false ∧ gives .handover (onE refuse) (fun e => pairRole e == 1 && e.pair.hand == 0) = true
      ∧ qualified take2 = true ∧ gives .handover (onE take2) (fun e => pairRole e == 1 && !e.pair.muted) = true := by decide +kernel

theorem witness_RolesAreDecided_more :
    let p := PairSt.reset
    let hot := pairE 0 { p with deciding := true, lowRun := 3 } [(.PAIR_CFG_MODE, 0, 2)]
    let wait := pairE 0 { p with deciding := true, highRun := 11 } [(.PAIR_CFG_MODE, 0, 1), (.PAIR_CFG_SIDE, 0, 1)]
    let heard := pairE 0 { p with deciding := true, highRun := 12, heard := true } [(.PAIR_CFG_MODE, 0, 1)]
    let run := pairE 3 { p with pulseRun := 4 } [(.PAIR_STAT_AUTO, 0, 0)]
    let auto := pairE 3 { p with pulseAt := some 0 } [(.PAIR_STAT_AUTO, 0, 1)]
    let act := pairE 1 p [(.PAIR_CFG_MODE, 0, 1)]
    let other : Heartbeat := ⟨0, 3, 3, 1, true, 0, false, false, [], 0⟩
    let warm := pairE 1 { p with hand := 1, peer := some other } [(.PAIR_CFG_MODE, 0, 1), (.SYS_FRAME_CNT_LO_FRAME, 0, 1), (.PAIR_STAT_LINK_OK, 0, 1)]
    let none_ := pairE 2 { p with hand := 1 } [(.SYS_FRAME_CNT_LO_FRAME, 0, 1)]
    hot.pair.deciding = true ∧ 3 ≤ hot.pair.lowRun ∧ pairMode hot = 2
      ∧ gives .roleDecision (onE hot) (fun e => pairRole e == 3 && peerState e == 1 && e.pair.muted && e.pair.syncing && !e.sched.running) = true
      ∧ wait.pair.lowRun < 3 ∧ wait.pair.highRun < 12 ∧ gives .roleDecision (onE wait) (fun e => decide (e = wait)) = true
      ∧ heard.pair.heard = true ∧ gives .roleDecision (onE heard) (fun e => decide (e = heard)) = true
      ∧ pairRole run = 3 ∧ gives (.lineTestPulse false) (onE run) (fun e => e.pair.pulseRun == 0) = true
      ∧ pairRole none_ = 2 ∧ gives (.lineTestPulse true) (onE none_) (fun e => decide (e = none_)) = true
      ∧ getF .PAIR_STAT_AUTO 0 run = 0 ∧ gives (.autoDisarm false) (onE run) (fun e => decide (e = run)) = true
      ∧ pulseFresh auto = true ∧ gives (.autoDisarm false) (onE auto) (fun e => decide (e = auto)) = true
      ∧ run.pair.pulseRun < secFrames run ∧ gives (.autoDisarm true) (onE run) (fun e => decide (e = run)) = true
      ∧ pairRole act < 2 ∧ pairMode act ≠ 0 ∧ gives (.deadManRelease 2) (onE act) (fun e => pairRole e == 2 && e.pair.deciding && e.host.warmReq.isNone) = true
      ∧ gives (.deadManRelease 1) (onE act) (fun e => pairRole e == 2 && !e.pair.deciding) = true
      ∧ 2 ≤ pairRole run ∧ gives (.deadManRelease 1) (onE run) (fun e => decide (e = run)) = true
      ∧ otherQualified warm = true ∧ pairMode warm ≠ 2 ∧ (warm.pair.hand : Int) ≤ fabFrame warm ∧ warm.pair.handBy = none
      ∧ gives .handover (onE warm) (fun e => pairRole e == 3 && e.pair.hand == 0 && e.pair.muted && !e.sched.running) = true
      ∧ none_.pair.hand ≠ 0 ∧ (none_.pair.hand : Int) ≤ fabFrame none_
      ∧ gives .handover (onE none_) (fun e => pairRole e == 2 && e.pair.hand == 0) = true := by decide +kernel

theorem witness_PairsAreKeptInStep :
    let p := PairSt.reset
    let tide := pairE 3 { p with tideRun := 1, tideMiss := 3, hbMiss := 2 } []
    let lost := pairE 3 { p with tideMiss := 3, hbMiss := 2 } [(.PAIR_STAT_TIDE_OK, 0, 1), (.PAIR_STAT_LINK_OK, 0, 1)]
    let kept := pairE 3 { p with tideMiss := 2, hbMiss := 1 } [(.PAIR_STAT_TIDE_OK, 0, 1), (.PAIR_STAT_LINK_OK, 0, 1)]
    let h : Heartbeat := ⟨8, 1, 0, 1, true, 0, false, false, [], 0⟩
    let hb := pairE 3 { p with hbSeq := some 7, hbRun := 1 } [(.PAIR_CFG_MODE, 0, 1), (.FAB_LINK_STAT_STATE, 3, 3)]
    let hot := pairE 3 { p with groups := [(63, some (0, 1))], agree := [(63, 60000)] } [(.PAIR_CFG_MODE, 0, 2), (.PAIR_STAT_PSTATE, 0, 2)]
    let ep := pairE 3 { p with epochNow := some 4 } [(.PAIR_CFG_MODE, 0, 1)]
    let area := { ep with sched := { ep.sched with areas := [(15, 2)] } }
    let warm := pairE 1 { p with warmT := some 0 } [(.PAIR_CFG_MODE, 0, 1), (.SYS_FRAME_CNT_LO_FRAME, 0, 2), (.HOST_PWR_STAT_STATE, 0, 0)]
    tide.pair.tideSeen = false
      ∧ gives .tideEdge (onE tide) (fun e => getF .PAIR_STAT_TIDE_OK 0 e == 1 && e.pair.tideSeen && e.pair.tideMiss == 0) = true
      ∧ gives .tideLost (onE lost) (fun e => getF .PAIR_STAT_TIDE_OK 0 e == 0) = true
      ∧ gives .tideLost (onE kept) (fun e => getF .PAIR_STAT_TIDE_OK 0 e == 1) = true
      ∧ lost.pair.hbSeen = false ∧ gives .heartbeatLost (onE lost) (fun e => getF .PAIR_STAT_LINK_OK 0 e == 0) = true
      ∧ gives .heartbeatLost (onE kept) (fun e => getF .PAIR_STAT_LINK_OK 0 e == 1) = true
      ∧ pairMode hb = 1 ∧ linkUp hb (pairLink hb) = true ∧ hb.pair.hbSeq = some 7 ∧ getF .PAIR_STAT_LINK_OK 0 hb = 0
      ∧ gives (.heartbeatBlock h) (onE hb) (fun e => e.pair.peer == some h && getF .PAIR_STAT_LINK_OK 0 e == 1) = true
      ∧ isHot hot = true ∧ ((pairGroups hot).any fun x => x.1 == 63) = true ∧ secFrames hot ≤ tget 0 hot.pair.agree 63 ∧ peerState hot = 2
      ∧ groupInSync hot 63 = false ∧ (∀ x ∈ pairGroups hot, x.1 ≠ 63 → groupInSync hot x.1 = true)
      ∧ gives (.inSync 63) (onE hot) (fun e => groupInSync e 63 && peerState e == 3) = true
      ∧ gives (.convergenceTimeout 63) (onE hot) (fun e => decide (e = postEvent 0x0907 [2 ^ 63] hot)) = true
      ∧ gives .replicationLate (onE hot) (fun e => peerState e == 0 && e.pair.replLost) = true
      ∧ ep.pair.epochNow = some 4 ∧ ep.pair.flip = false
      ∧ gives .epochAbandon (onE ep) (fun e => e.pair.epochNow == none && getF .PAIR_EPOCH_ABANDONED 0 e == 1) = true
      ∧ pairRole area = 3 ∧ pairMode area ≠ 0 ∧ area.pair.epochNow ≠ none ∧ ([5, 6] : List Byte).length = stateSize area 3
      ∧ gives (.epochComplete [⟨3, [5, 6]⟩] []) (onE area) (fun e => e.pair.flip && readBytes e (stateBase area 3 + 2) 2 == [5, 6]) = true
      ∧ warm.pair.warmT = some 0 ∧ 0 + 2 ≤ frameNo warm ∧ warm.sched.running = false ∧ inRun warm = true
      ∧ gives .warmGraphStart (onE warm) (fun e => e.sched.running && pairRole e == 1) = true := by decide +kernel

/-- Ring 0's next directive is a `PAIR_SYNC` of the kind given, on a member of a hot pair. -/
def syncE (role kind frame : Nat) : Engine :=
  let e := dirE 0xA1 0 [1, BitVec.ofNat 64 (2 ^ 60 * kind), BitVec.ofNat 64 frame]
  let e := setF .PAIR_STAT_FORMED 0 1 (setF .PAIR_STAT_ROLE 0 role (setF .PAIR_CFG_MODE 0 2 e))
  setF .FAB_LINK_STAT_STATE 3 3 <| setF .PAIR_STAT_LINK_OK 0 1 { e with pair := { e.pair with peer := some ⟨8, 4 - role, 3, 2, true, 0, false, false, [], 0⟩ } }

theorem witness_PairsAreKeptInStep_sync :
    let d := fun kind frame => dirD 0 [1, BitVec.ofNat 64 (2 ^ 60 * kind), BitVec.ofNat 64 frame]
    let ok := fun kind frame e => firstStatus (ringStatus (popDir 0 e) 0 0xA1
      ++ (checkRecs (taken 0xA1 (d kind frame) e) 0 (parse (popDir 0 e) 0xA1 (d kind frame)).recs (popDir 0 e)).statuses)
    takes 0xA1 0 (d 0 0).words (syncE 3 0 0) = true ∧ openTxn (syncE 3 0 0) 0 = none ∧ firstKind (syncE 3 0 0) 0xA1 (d 0 0) = 0
      ∧ (parse (popDir 0 (syncE 3 0 0)) 0xA1 (d 0 0)).recs = [[0, 0]] ∧ ok 0 0 (syncE 3 0 0) = 0
      ∧ gives (.pairSyncResync (d 0 0)) (onE (syncE 3 0 0)) (fun e => e.pair.syncing && peerState e == 1 && !e.sched.running) = true
      ∧ takes 0xA1 0 (d 1 999).words (syncE 1 1 999) = true ∧ firstKind (syncE 1 1 999) 0xA1 (d 1 999) = 1 ∧ ok 1 999 (syncE 1 1 999) = 0
      ∧ gives (.pairSyncHandover (d 1 999)) (onE (syncE 1 1 999)) (fun e => e.pair.hand == 999 && e.pair.handBy == some (0, 5)
        && (getRing e 0).hold.any fun h => h.op == 0xA1) = true := by decide +kernel

theorem witness_PairsAreKeptInStep_more :
    let p := PairSt.reset
    let seen := pairE 3 { p with hbSeen := true } [(.PAIR_STAT_LINK_OK, 0, 1)]
    let down := pairE 3 p [(.PAIR_STAT_LINK_OK, 0, 0), (.PAIR_STAT_TIDE_OK, 0, 0)]
    let h : Heartbeat := ⟨0, 3, 0, 1, true, 0, false, false, [], 0⟩
    let hb := pairE 1 { p with hbSeq := some (2 ^ 32 - 1), hbMiss := 2 } [(.PAIR_CFG_MODE, 0, 1), (.FAB_LINK_STAT_STATE, 3, 3), (.PAIR_STAT_LINK_OK, 0, 1)]
    let young := pairE 3 { p with groups := [(63, some (0, 1))], agree := [(63, 1)] } [(.PAIR_CFG_MODE, 0, 2), (.PAIR_STAT_PSTATE, 0, 0)]
    let act := pairE 1 p [(.PAIR_CFG_MODE, 0, 1)]
    let solo := pairE 1 p []
    let ep := pairE 3 { p with epochNow := some 4 } [(.PAIR_CFG_MODE, 0, 1)]
    let full := pairE 3 { p with epochNow := some 4, flip := true } [(.PAIR_CFG_MODE, 0, 1)]
    let two := { ep with sched := { ep.sched with areas := [(15, 2), (3, 1)] } }
    let warm := pairE 3 { p with warmT := some 0 } [(.SYS_FRAME_CNT_LO_FRAME, 0, 2)]
    seen.pair.hbSeen = true ∧ gives .heartbeatLost (onE seen) (fun e => decide (e = seen)) = true
      ∧ getF .PAIR_STAT_LINK_OK 0 down = 0 ∧ gives .heartbeatLost (onE down) (fun e => decide (e = down)) = true
      ∧ getF .PAIR_STAT_TIDE_OK 0 down = 0 ∧ gives .tideLost (onE down) (fun e => decide (e = down)) = true
      ∧ pairMode solo = 0 ∧ gives (.heartbeatBlock h) (onE solo) (fun e => decide (e = solo)) = true
      ∧ pairMode hb ≠ 0 ∧ linkUp hb (pairLink hb) = true ∧ hb.pair.hbSeq = some (2 ^ 32 - 1)
      ∧ gives (.heartbeatBlock h) (onE hb) (fun e => e.pair.peer == some h && e.pair.hbSeen && e.pair.hbMiss == 0 && e.pair.hbSeq == some 0
        && getF .PAIR_STAT_LINK_OK 0 e == 1 && pairRole e == 1) = true
      ∧ isHot young = true ∧ ((pairGroups young).any fun x => x.1 == 63) = true ∧ tget 0 young.pair.agree 63 < secFrames young
      ∧ gives (.inSync 63) (onE young) (fun e => decide (e = young)) = true
      ∧ peerState young ≠ 2 ∧ gives (.convergenceTimeout 63) (onE young) (fun e => decide (e = young)) = true
      ∧ pairRole act = 1 ∧ pairMode act ≠ 0 ∧ gives .replicationLate (onE act) (fun e => decide (e = postEvent 0x0907 [0] act)) = true
      ∧ gives .replicationLate (onE solo) (fun e => decide (e = solo)) = true
      ∧ full.pair.flip = true ∧ gives .epochAbandon (onE full) (fun e => decide (e = full)) = true
      ∧ gives (.epochComplete [] []) (onE full) (fun e => decide (e = full)) = true
      ∧ two.pair.epochNow ≠ none ∧ two.pair.flip = false
      ∧ gives (.epochComplete [⟨3, [5, 6]⟩, ⟨0, [7]⟩] [(9, 4)]) (onE two) (fun e => e.pair.flip && e.pair.heldNext == [(9, 4)]) = true
      ∧ warm.pair.warmT = some 0 ∧ pairRole warm ≠ 1 ∧ gives .warmGraphStart (onE warm) (fun e => decide (e = warm)) = true := by decide +kernel

/-! ### Crossbar, DRAM -/

/-- A request of master `m` for eight bytes. -/
def wantOf (m a : Nat) (wr : Bool) : XWant := ⟨m, 63, wr, a, 8, if wr then [1, 2, 3, 4, 5, 6, 7, 8] else [], 128⟩

/-- A request under way at a target. -/
def openReq (m a : Nat) (wr : Bool) : XReq := ⟨m, 63, wr, a, 8, if wr then [1, 2, 3, 4, 5, 6, 7, 8] else [], false, 0, 0, [], false⟩

/-- The engine with one request under way at target `t`. -/
def reqE (t : Nat) (x : XReq) (l : List (Fld × Nat × Nat)) : Engine :=
  let e := writeBytes 0x11FFFFF0 [9, 8, 7] (writeBytes 0x1000000038 [6, 5] (regsE l))
  { e with xmem := { e.xmem with open_ := [(t, [x])] } }

theorem witness_CrossbarAnswers :
    let w := wantOf 39 0x11FFFFF8 true
    let gap := wantOf 39 0x32000000 false
    let e := reqE 7 (openReq 39 0x11FFFFF0 false) []
    let q := reqE 12 { openReq 39 0x1000000038 false with queued := true, left := 1 } []
    let done := reqE 12 { openReq 39 0x1000000038 false with queued := true, left := 0, got := [6, 5] } []
    let bad := setEcc 0x293FFFF8 1 Engine.reset
    w.wf = true ∧ gap.wf = true ∧ mayStart Engine.reset 7 [w] w = true ∧ targetOf gap.addr = none
      ∧ gives (.xbarGrant 7 [w]) State.reset (fun e => (openAt e 7).length == 1 && getF .XBAR_TGT_WAITMAX 7 e == 128 && getF .XBAR_STAT_INUSE 0 e == 1) = true
      ∧ gives (.xbarGrant 7 [gap]) State.reset (fun e => tget (0, []) e.xmem.resp 39 == (1, []) && getF .XBAR_ERR_CODE 0 e == 1) = true
      ∧ openAt e 7 = [openReq 39 0x11FFFFF0 false] ∧ inQueue e (openReq 39 0x11FFFFF0 false) = false ∧ targetOf 0x11FFFFF0 = some 7
      ∧ regionOk e 39 0x11FFFFF0 8 false = true ∧ e.ecc = []
      ∧ gives (.xbarResponse 7) (onE e) (fun e => tget (0, []) e.xmem.resp 39 == (0, [9, 8, 7, 0, 0, 0, 0, 0]) && openAt e 7 == []) = true
      ∧ gives (.xbarTimeout 7) (onE e) (fun e => tget (0, []) e.xmem.resp 39 == (2, []) && getF .XBAR_ERR_CODE 0 e == 2) = true
      ∧ inQueue q { openReq 39 0x1000000038 false with queued := true, left := 1 } = true
      ∧ gives (.xbarResponse 12) (onE q) (fun e => decide (e = q)) = true
      ∧ inQueue done { openReq 39 0x1000000038 false with queued := true, left := 0, got := [6, 5] } = false
      ∧ gives (.xbarResponse 12) (onE done) (fun e => tget (0, []) e.xmem.resp 39 == (0, [6, 5])) = true
      ∧ openAt Engine.reset 7 = [] ∧ isolatedBlock Engine.reset 31 = false ∧ Engine.reset.sched.caps.contains (.block 31 7) = false
      ∧ gives (.requestParityError 31 4) State.reset (fun e => decide (e.sched.caps = [.block 31 7]) && getF .XBAR_ERR_MASTER 0 e == 31) = true
      ∧ gives (.requestParityError 39 4) State.reset (fun e => decide (e.sched = Sched.reset) && getF .XBAR_ERR_CODE 0 e == 3) = true
      ∧ isPatrolled 0x293FFFF8 = true ∧ eccAt Engine.reset 0x293FFFF8 = 0 ∧ eccAt bad 0x293FFFF8 = 1 ∧ targetOf 0x293FFFF8 = some 11
      ∧ gives (.regionScrub 0x293FFFF8) (onE bad) (fun e => eccAt e 0x293FFFF8 == 0 && getF .XBAR_MEMSTAT_CE 11 e == 1) = true := by
  decide +kernel

theorem witness_DramIsServed :
    let run : List (Fld × Nat × Nat) := [(.DDRC_STAT_STATE, 0, 2), (.SYS_DOMAIN_STAT_LOCKED, 0, 15)]
    let x := openReq 39 0x1000000038 true
    let rd := { openReq 39 0x1000000038 false with queued := true, left := 1 }
    let wait := reqE 12 x run
    let d := (entriesOf { x with len := 64, data := List.replicate 64 3 }).headD ⟨0, 0, false, 0, 0, [], false, false, false, false⟩
    let wq := { regsE run with xmem := { Xmem.reset with ddrq := [{ d with rmw := false, wr := true, at_ := 56, data := [1, 2, 3, 4, 5, 6, 7, 8] }], debt := 8 } }
    let rq := reqE 12 rd run
    let rq := { rq with xmem := { rq.xmem with ddrq := entriesOf rd } }
    let free := { regsE (run ++ [(.DDRC_SCRUB_EN, 0, 1), (.DDRC_SR_SREN, 0, 1), (.HOST_PWR_STAT_STATE, 0, 1)]) with
      xmem := { Xmem.reset with debt := 5, scrubAt := 2 ^ 35 - 64 } }
    let asleep := regsE [(.DDRC_STAT_STATE, 0, 4), (.HOST_PWR_STAT_STATE, 0, 0)]
    nextDram Engine.reset = none ∧ openAt wait 12 = [x] ∧ targetUp wait x.addr = true ∧ ownerOk wait 39 x.addr 8 true false = true
      ∧ wait.xmem.ddrq.length + (entriesOf x).length ≤ 64
      ∧ gives .ddrQueueEntry (onE wait) (fun e => e.xmem.ddrq.length == 2 && getF .DDRC_STAT_QNOW 0 e == 2 && e.xmem.ddrq.map (·.at_) == [0, 56]) = true
      ∧ ddrRun Engine.reset = false ∧ ddrRun wq = true ∧ wq.ecc = [] ∧ rankOut wq (0x1000000000 + d.off) = false ∧ wq.xmem.ddrq.length = 1
      ∧ gives .ddrEntryComplete (onE wq) (fun e => e.xmem.ddrq.isEmpty && readBytes e 0x1000000038 8 == [1, 2, 3, 4, 5, 6, 7, 8]) = true
      ∧ rq.xmem.ddrq = entriesOf rd ∧ (entriesOf rd).length = 1 ∧ openAt rq 12 = [rd]
      ∧ gives .ddrEntryComplete (onE rq) (fun e => (openAt e 12).map (fun y => (y.left, y.got)) == [(0, [6, 5, 0, 0, 0, 0, 0, 0])]) = true
      ∧ gives .caParityError (onE wq) (fun e => e.xmem.ddrq.all (·.retried) && getF .DDRC_UE_CARETRY 0 e == 1) = true
      ∧ gives .writeCrcError (onE wq) (fun e => e.xmem.ddrq.all (·.crc) && getF .DDRC_UE_WCRETRY 0 e == 1) = true
      ∧ wq.xmem.debt ≤ refreshLimit wq
      ∧ gives .trefiTick (onE wq) (fun e => e.xmem.debt == 8 && getF .DDRC_REF_DEBT 0 e == 8) = true
      ∧ gives .idleBurst (onE free) (fun e => e.xmem.debt == 4) = true
      ∧ rankOut free (0x1000000000 + free.xmem.scrubAt) = false ∧ free.ecc = [] ∧ inQuiescent free = true
      ∧ gives .ddrScrub (onE free) (fun e => e.xmem.scrubAt == 0 && getF .DDRC_SCRUB_PASSES 0 e == 1) = true
      ∧ gives .selfRefreshEntry (onE free) (fun e => getF .DDRC_STAT_STATE 0 e == 4 && e.xmem.debt == 0) = true
      ∧ inQuiescent asleep = false ∧ gives .selfRefreshExit (onE asleep) (fun e => getF .DDRC_STAT_STATE 0 e == 2) = true
      ∧ gives (.temperatureReading (some 86)) (onE free) (fun e => getF .DDRC_STAT_HOT 0 e == 1 && getF .DDRC_TEMP_LAST 0 e == 86) = true
      ∧ gives (.temperatureReading (some 85)) (onE free) (fun e => getF .DDRC_STAT_HOT 0 e == 0) = true
      ∧ gives (.temperatureReading (some (-128))) (onE free) (fun e => getF .DDRC_TEMP_LAST 0 e == 128) = true
      ∧ gives (.temperatureReading none) (onE { free with xmem := { free.xmem with noSens := 2 } }) (fun e => getF .DDRC_STAT_SENSFAIL 0 e == 1) = true
      ∧ free.ctl.resetFn = []
      ∧ gives (.retrainingPause 0 75) (onE free) (fun e => tget 0 e.xmem.drift 0 == 75 && decide (e.regs = free.regs)) = true
      ∧ gives (.retrainingPause 0 101) (onE free) (fun e => getF .DDRC_STAT_STATE 0 e == 6 && e.ctl.resetFn == [(6, 0, 0, 8)]) = true := by
  decide +kernel

theorem witness_CrossbarAnswers_more :
    let w := wantOf 39 0x11FFFFF8 true
    let v := { wantOf 36 0x11FFFFF0 false with waited := 0 }
    let gap := wantOf 39 0x32000000 false
    let dead := { openReq 39 0x11FFFFF0 false with dead := true }
    let live := openReq 36 0x11FFFFF0 false
    let e := reqE 7 live []
    let both := { e with xmem := { e.xmem with open_ := [(7, [dead, live])] } }
    let q := reqE 12 { openReq 39 0x1000000038 false with queued := true, left := 1 } []
    let far := setF .SYS_CELL_FENCED_FENCED 8 (2 ^ 31) Engine.reset
    let rg := setEcc 0x11FFFFF8 2 Engine.reset
    let dir := setEcc 0x20000008 2 Engine.reset
    let mon := setEcc 0x283FFFF8 2 Engine.reset
    let boot := setEcc 0x29000008 2 Engine.reset
    w.wf = true ∧ v.wf = true ∧ grantOf Engine.reset 7 ([gap].filter (mayStart Engine.reset 7 [gap])) = none
      ∧ gives (.xbarGrant 7 [gap]) State.reset (fun e => decide (e.xmem.open_ = [])) = true
      ∧ (grantOf Engine.reset 7 ([v, w].filter (mayStart Engine.reset 7 [v, w]))).isSome = true
      ∧ gives (.xbarGrant 7 [v, w]) State.reset (fun e => (openAt e 7).length == 1) = true
      ∧ takeLive (openAt Engine.reset 7) = none ∧ takeLive (openAt both 7) = some (live, [dead])
      ∧ inQueue both live = false ∧ live.queued = false ∧ live.m < 64
      ∧ gives (.xbarResponse 7) (onE both) (fun e => openAt e 7 == [dead] && tget (0, []) e.xmem.resp 36 == (0, [9, 8, 7, 0, 0, 0, 0, 0])) = true
      ∧ gives (.xbarTimeout 7) (onE both) (fun e => openAt e 7 == [dead] && tget (0, []) e.xmem.resp 36 == (2, [])) = true
      ∧ gives (.xbarTimeout 12) (onE q) (fun e => (openAt e 12).all (·.dead) && (openAt e 12).length == 1) = true
      ∧ isolatedBlock far 31 = true ∧ gives (.requestParityError 31 4) (onE far) (fun e => decide (e.sched = far.sched)) = true
      ∧ isPatrolled 0x11FFFFF8 = true ∧ eccAt rg 0x11FFFFF8 = 2 ∧ rg.sched.caps.contains (.range 3 0x7FF) = false
      ∧ gives (.regionScrub 0x11FFFFF8) (onE rg) (fun e => decide (e.sched.caps = [.range 3 0x7FF])) = true
      ∧ isPatrolled 0x20000008 = true ∧ 2 ≤ eccAt dir 0x20000008 ∧ gives (.regionScrub 0x20000008) (onE dir) (fun e => resetting e 8 0) = true
      ∧ isPatrolled 0x283FFFF8 = true ∧ 2 ≤ eccAt mon 0x283FFFF8 ∧ gives (.regionScrub 0x283FFFF8) (onE mon) (fun e => getF .XBAR_MEMSTAT_UE 10 e == 1) = true
      ∧ isPatrolled 0x29000008 = true ∧ 2 ≤ eccAt boot 0x29000008 ∧ gives (.regionScrub 0x29000008) (onE boot) (fun e => e.host.warmReq.isSome) = true := by
  decide +kernel

theorem witness_DramIsServed_more :
    let on : List (Fld × Nat × Nat) := [(.DDRC_STAT_STATE, 0, 2), (.SYS_DOMAIN_STAT_LOCKED, 0, 15)]
    let down : List (Fld × Nat × Nat) := [(.DDRC_STAT_STATE, 0, 2), (.SYS_DOMAIN_STAT_LOCKED, 0, 13)]
    let rd : DdrEntry := ⟨39, 0, false, 0, 64, [], true, false, false, false⟩
    let wr : DdrEntry := ⟨39, 0, true, 56, 0, [1, 2, 3, 4, 5, 6, 7, 8], false, false, false, false⟩
    let q := fun r l => { regsE r with xmem := { Xmem.reset with ddrq := l } }
    let again := q on [{ wr with retried := true, crc := true }, { rd with retried := true }, wr]
    let spoilt := setEcc 0x1000000000 2 (q on [rd, wr])
    let slept := q [(.DDRC_STAT_STATE, 0, 4), (.SYS_DOMAIN_STAT_LOCKED, 0, 15), (.HOST_PWR_STAT_STATE, 0, 1)] []
    let deep := { q on [wr] with xmem := { (q on [wr]).xmem with debt := 40 } }
    let host := regsE [(.DDRC_STAT_STATE, 0, 2), (.DDRC_TEMP_SRC, 0, 1), (.DDRC_TEMP_HOSTVAL, 0, 128)]
    let x := openReq 39 0x1000000038 true
    let wait := reqE 12 x down
    nextDram wait = some x ∧ dmDown wait = true ∧ gives .ddrQueueEntry (onE wait) (fun e => decide (e = wait)) = true
      ∧ dmDown (q [(.DDRC_STAT_STATE, 0, 1), (.SYS_DOMAIN_STAT_LOCKED, 0, 15)] [wr]) = false
      ∧ dmDown (q down [rd, wr]) = true
      ∧ gives .ddrEntryComplete (onE (q down [wr])) (fun e => e.xmem.ddrq == [] && decide (e.mem = [])) = true
      ∧ ddrRun spoilt = true ∧ ((metBy spoilt 0x1000000000 64).any fun g => decide (2 ≤ g.2)) = true
      ∧ gives .ddrEntryComplete (onE (q on [{ wr with bad := true }])) (fun e => e.xmem.ddrq == [] && decide (e.mem = [])) = true
      ∧ ((metBy (q on [rd, wr]) 0x1000000000 64).any fun g => decide (2 ≤ g.2)) = false
      ∧ gives .ddrEntryComplete (onE (q on [rd, wr])) (fun e => e.xmem.ddrq == [wr]) = true
      ∧ (again.xmem.caFails.filter fun f => decide (frameNo again ≤ f + secondFrames again)) = []
      ∧ gives .writeCrcError (onE (q on [rd])) (fun e => decide (e = q on [rd])) = true
      ∧ ddrRun deep = true ∧ deep.xmem.ddrq ≠ [] ∧ gives .idleBurst (onE deep) (fun e => decide (e = deep)) = true
      ∧ refreshLimit deep < deep.xmem.debt ∧ gives .trefiTick (onE deep) (fun e => e.xmem.debt == 40) = true
      ∧ gives .ddrScrub (onE deep) (fun e => decide (e = deep)) = true
      ∧ gives .selfRefreshEntry (onE deep) (fun e => decide (e = deep)) = true
      ∧ getF .DDRC_STAT_STATE 0 slept = 4 ∧ inQuiescent slept = true ∧ nextDram slept = none ∧ gives .selfRefreshExit (onE slept) (fun e => decide (e = slept)) = true
      ∧ slept.xmem.noSens < 2 ∧ gives (.temperatureReading none) (onE slept) (fun e => e.xmem.noSens == 1) = true
      ∧ getF .DDRC_STAT_STATE 0 (regsE [(.DDRC_STAT_STATE, 0, 0)]) = 0
      ∧ getF .DDRC_TEMP_SRC 0 host = 1 ∧ gives (.temperatureReading none) (onE host) (fun e => getF .DDRC_STAT_HOT 0 e == 1 && getF .DDRC_STAT_SENSFAIL 0 e == 0) = true
      ∧ gives (.temperatureReading (some 20)) (onE host) (fun e => getF .DDRC_TEMP_LAST 0 e == 128) = true
      ∧ getF .DDRC_CFG_RANKS 0 (regsE [(.DDRC_CFG_RANKS, 0, 0)]) < 1 ∧ ddrRun (q on []) = true ∧ 0 ≤ getF .DDRC_CFG_RANKS 0 (q on [])
      ∧ gives (.retrainingPause 0 90) (onE (q on [])) (fun e => tget 0 e.xmem.drift 0 == 90) = true := by decide +kernel

/-! ### The host, power and boot -/

theorem witness_RegistersAnswer :
    let run := regsE [(.HOST_PWR_STAT_STATE, 0, 0)]
    let step := setF .PTP_STAT_STEPS 0 1 run
    let cap := setF .PTP_CAP_S_CAP 3 77 run
    let low := { setF .XBAR_ERR_MASTER 0 39 run with latch := [(latchKey 0 0x108, 12)] }
    let sram := writeBytes 0x11FFFFF8 [1, 2, 3, 4, 5, 6, 7, 8] (setF .HOST_BAR2_BASE_LO_BASE 0 0x110 run)
    rowsAt 6 0x98 ≠ [] ∧ isLatched 6 0x98 = false ∧ isLatched 0 0x108 = true ∧ tget 0 low.latch (latchKey 0 0x108) = 11 + 1
      ∧ latchedBy 0 0x104 = [0x108] ∧ rowsAt 0 0x104 ≠ [] ∧ rowsAt 0 0x108 ≠ [] ∧ ((rowsAt 6 0x18).any fun p => p.1.fld == .PTP_STAT_STEPS && p.1.acc == .RW1C) = true
      ∧ gives (.registerWrite 6 0x18 0xFFFFFFFF) (onE step) (fun e => getF .PTP_STAT_STEPS 0 e == 0) = true
      ∧ gives (.registerWrite 6 0x18 0xFFFFF7FF) (onE step) (fun e => getF .PTP_STAT_STEPS 0 e == 1) = true
      ∧ gives (.rcRead 6 0x98) (onE cap) (fun e => e.host.rd == [77, 0, 0, 0] && getF .PTP_CAP_S_CAP 3 e == 0) = true
      ∧ gives (.rcRead 0 0x108) (onE low) (fun e => e.host.rd == [11, 0, 0, 0]) = true
      ∧ gives (.latchingRead 0 0x104 0) (onE low) (fun e => tget 0 e.latch (latchKey 0 0x108) == 1) = true
      ∧ inQuiescent run = false ∧ inQuiescent Engine.reset = true
      ∧ gives (.sysFrameCfgWrite 0xA1) (onE run) (fun e => getF .SYS_FRAME_CFG_REJ 0 e == 1 && getF .SYS_FRAME_CFG_FLOG 0 e == 4) = true
      ∧ gives (.sysFrameCfgWrite 0xD3) State.reset (fun e => getF .SYS_FRAME_CFG_FLOG 0 e == 6 && getF .SYS_FRAME_CFG_RATE 0 e == 3 && e.sched.stale) = true
      ∧ gives (.sysFrameCfgWrite 0x40) State.reset (fun e => getF .SYS_FRAME_CFG_FLOG 0 e == 2 && getF .SYS_FRAME_CFG_RATE 0 e == 0) = true
      ∧ gives (.bar0Access 0xFFFD 4 true 1) (onE run) (fun e => getF .HOST_PCIE_STAT_WERR 0 e == 1 && e.host.aer) = true
      ∧ gives (.bar0Access 0 8 false 0) (onE run) (fun e => e.host.rdStatus == 2) = true
      ∧ run.xmem.posted = [] ∧ gives (.bar0Access 0x14 4 true 5) (onE run) (fun e => getF .HOST_REGWIN_BLK 0 e == 5) = true
      ∧ bar2At sram 0xFFFFF8 % 512 + 8 = 512 ∧ targetOf (bar2At sram 0xFFFFF8) = some 7 ∧ regionOk sram 39 (bar2At sram 0xFFFFF8) 8 false = true ∧ sram.ecc = []
      ∧ gives (.bar2Access 0xFFFFF8 false [] 8) (onE sram) (fun e => e.host.rd == [1, 2, 3, 4, 5, 6, 7, 8] && e.host.rdStatus == 0) = true
      ∧ targetOf (bar2At sram 0x1000000) = none
      ∧ gives (.bar2Access 0x1000000 false [] 8) (onE sram) (fun e => e.host.rdStatus == 1 && getF .XBAR_ERR_CODE 0 e == 1) = true
      ∧ gives (.bar2Access 0x1000000 true [1] 0) (onE sram) (fun e => e.host.aer && getF .XBAR_ERR_CODE 0 e == 1) = true
      ∧ gives (.configurationRequest 0x10 true 0xFFFFFFFF) (onE run) (fun e => tget 0 e.host.cfg 0x10 == 0xFFFF0000) = true := by decide +kernel

theorem witness_HostLinkWorks :
    let msi := { Engine.reset with ctl := { Ctl.reset with msi := [(63, true)] }, host := { HostIf.reset with msix := [(252, 0x1000), (253, 8), (254, 99), (255, 0)] } }
    let busy := { Engine.reset with host := { HostIf.reset with manBusy := true, manifest := [(1, 2, 3)] } }
    let run := regsE [(.HOST_PWR_STAT_STATE, 0, 0)]
    let flash := { setF .HOST_QSPI_CTL_BUSY 0 1 Engine.reset with host := { HostIf.reset with qfifo := List.replicate 255 0 } }
    let front := dirE 0x31 0 [1, 0]
    gives (.linkDown 0) State.reset (fun e => getF .HOST_PCIE_STAT_DOWNS 0 e == 1 && e.host.linkOff && getF .HOST_CR_CFG_EN 7 e == 0) = true
      ∧ gives (.linkDown 4) State.reset (fun e => getF .HOST_PCIE_STAT_DOWNS 0 e == 0 && e.host.linkOff) = true
      ∧ [1, 2, 4].contains 4 = true ∧ gives (.pcieLinkUp 4 4) State.reset (fun e => getF .HOST_PCIE_STAT_SPEED 0 e == 4 && getF .HOST_PCIE_STAT_LINKUP 0 e == 1) = true
      ∧ tget false msi.ctl.msi 63 = true ∧ msixWord msi 255 % 2 = 0 ∧ msi.host.linkOff = false ∧ msixWord Engine.reset 255 % 2 = 1
      ∧ gives (.msiXMessage 63) (onE msi) (fun e => e.host.msiOut == some (63, 2 ^ 35 + 0x1000, 99) && e.ctl.msi.isEmpty) = true
      ∧ openTxn Engine.reset 7 = none
      ∧ gives (.outboundReadError 7 false true) State.reset (fun e => getF .HOST_CR_STAT_HALT 7 e == 1 && getF .HOST_PCIE_STAT_CTO 0 e == 1) = true
      ∧ gives (.manifestWrite 0xFFFFFFFF) State.reset (fun e => e.host.manBusy) = true
      ∧ gives (.manifestVerified true [(7, 8, 9)]) (onE busy) (fun e => e.host.manifest == [(7, 8, 9)] && getF .HOST_BOOT_STAT_MANOK 0 e == 1) = true
      ∧ gives (.manifestVerified false []) (onE busy) (fun e => e.host.manifest == [(1, 2, 3)] && getF .HOST_BOOT_STAT_MANOK 0 e == 0) = true
      ∧ inQuiescent run = false ∧ inQuiescent Engine.reset = true
      ∧ gives (.qspiCommand 0x80000001) (onE run) (fun e => decide (e = run)) = true
      ∧ gives (.qspiCommand 0x80000001) State.reset (fun e => getF .HOST_QSPI_CTL_BUSY 0 e == 1) = true
      ∧ gives (.qspiCommandComplete [1, 2]) (onE flash) (fun e => getF .HOST_QSPI_CTL_BUSY 0 e == 0 && e.host.qfifo.length == 256) = true
      ∧ nextDir 0x31 (dirD 0 [1, 0]) front = true ∧ (getRing front 0).hold = none ∧ openTxn front 0 = none
      ∧ (frontOf (getRing front 0).words).any (fun f => f.op == 0x31) = true ∧ soleRing 0 (popDir 0 front) = true
      ∧ gives (.outboundReadError 0 true false) (onE front) (fun e => tget 0 e.ctl.used 0 == 1) = true := by decide +kernel

theorem witness_PowerStatesAreRequested :
    let ask := fun r st => { regsE [(.HOST_PWR_STAT_STATE, 0, st)] with host := { HostIf.reset with pwrReq := some r } }
    let go := { ask 0 1 with sched := { Sched.reset with stale := false } }
    let retain := { regsE [(.SYS_AO_CFG_ALEN, 0, 1)] with held := 64 }
    let ptp := { regsE [(.SYS_SUP_STAT_STATE, 0, 1), (.SYS_AO_CFG_PTPSET, 0, 1)] with ptp := { PtpSt.reset with locked := true, time := 2 ^ 32 * 5000000000 } }
    let warm := regsE [(.SYS_TEMP_TALARM, 0, 100)]
    gives .quiescentRequest State.reset (fun e => e.host.pwrReq == some 1 && getF .HOST_PWR_CTL_REQ 0 e == 1) = true
      ∧ gives .runRequest State.reset (fun e => e.host.pwrReq == some 0) = true
      ∧ gives .retainRequest State.reset (fun e => e.host.pwrReq == some 2) = true
      ∧ getF .HOST_PWR_STAT_STATE 0 (ask 1 0) = 0 ∧ getF .HOST_PWR_STAT_STATE 0 (powerTick (ask 1 0)) = 1
      ∧ getF .HOST_PWR_STAT_STATE 0 (ask 0 1) = 1 ∧ getF .HOST_PWR_STAT_STATE 0 (powerTick (ask 0 1)) = 1
      ∧ go.sched.stale = false ∧ go.host.pwrReq = some 0 ∧ getF .HOST_PWR_STAT_STATE 0 (powerTick go) = 0 ∧ getF .HOST_PWR_STAT_REJ 0 (powerTick (ask 2 0)) = 1
      ∧ retain.held = 64 ∧ gives (.retainWake true) (onE retain) (fun e => e.held == 8 && e.host.coreOn) = true
      ∧ gives (.retainWake false) State.reset (fun e => decide (e = Engine.reset)) = true
      ∧ supUp ptp = true ∧ ptp.ptp.locked = true ∧ gives (.aoPtpSet 999999) (onE ptp) (fun e => aoSec e == 5) = true
      ∧ supUp Engine.reset = false ∧ gives (.aoPtpSet 0) State.reset (fun e => decide (e = Engine.reset)) = true
      ∧ gives .vbatLoss (onE retain) (fun e => e.host.vbLost && decide (e.mem = [])) = true
      ∧ gives (.thermalSample (-128)) (onE warm) (fun e => getF .SYS_TEMP_CUR 0 e == 128 && !e.host.hot) = true
      ∧ gives (.thermalSample 100) (onE warm) (fun e => e.host.hot && getF .SYS_TEMP_MAX 0 e == 100) = true
      ∧ gives (.thermalSample 95) (onE { warm with host := { warm.host with hot := true } }) (fun e => e.host.hot) = true
      ∧ gives (.thermalSample 94) (onE { warm with host := { warm.host with hot := true } }) (fun e => !e.host.hot) = true
      ∧ gives (.domainLossOfLock 8) State.reset (fun e => e.health.domLost == 256 && bitF .SYS_DOMAIN_STAT_LOST 0 8 (showDomains e)
        && !bitF .SYS_DOMAIN_STAT_LOCKED 0 8 (showDomains e) && !bitF .SYS_DOMAIN_STAT_LOST 0 7 (showDomains e)) = true
      ∧ resetBusy Engine.reset 5 3 = false
      ∧ gives (.subQueueParityError 3) State.reset (fun e => e.ctl.resetFn == [(5, 3, 0, 8)] && e.health.recs == [(3, 9, 0x3FFFF, 0)]) = true := by decide +kernel

/-- A boot in progress from a flash slot. -/
def bootE (l : List (Fld × Nat × Nat)) : Engine := regsE ((.HOST_BOOT_STAT_STAGE, 0, 1) :: l)

theorem witness_ColdResetAndBoot :
    let p0 := { Engine.reset with held := 8 }
    let osc := { Engine.reset with held := 1 }
    let trip := { Engine.reset with held := 2 }
    let scan := { Engine.reset with held := 16 }
    let old := bootE []
    let push := regsE [(.HOST_BOOT_STAT_STAGE, 0, 2)]
    let ready := regsE [(.HOST_BOOT_STAT_STAGE, 0, 4), (.HOST_BOOT_STAT_SVN, 0, 9)]
    let dirty := { writeBytes 0x17FFFFFFFF [1] (regsE [(.SYS_TEMP_CUR, 0, 3)]) with cells := [(1, Cell.idle)] }
    gives (.coldReset true true 0 false) (onE dirty) (fun e => e.held == 8 && e.mem.isEmpty && e.cells.isEmpty) = true
      ∧ gives .oscInLoss (onE dirty) (fun e => e.held == 1 && e.mem.isEmpty) = true
      ∧ gives .thermalTrip (onE dirty) (fun e => e.held == 2 && e.mem.isEmpty) = true
      ∧ gives (.boundaryScanTestMode true) (onE dirty) (fun e => e.held == 16 && getF .SYS_TEMP_CUR 0 e == 0) = true
      ∧ gives (.supplyMonitorTrip true) (onE dirty) (fun e => e.held == 8 && e.mem.isEmpty) = true
      ∧ p0.held = 8 ∧ osc.held = 1 ∧ trip.held = 2 ∧ scan.held = 16 ∧ getF .HOST_BOOT_STAT_BOOTSEL 0 osc ≠ 3
      ∧ getF .HOST_BOOT_STAT_STAGE 0 old = 1 ∧ (Instr.bootReady true ⟨true, false⟩ 3 0 [255] [(true, 7), (false, 31)] false ⟨true, true⟩).wf = true
      ∧ getF .HOST_BOOT_STAT_STAGE 0 push = 2 ∧ push.host.pushed = false
      ∧ gives .go (onE push) (fun e => e.host.pushed) = true ∧ gives .go State.reset (fun e => decide (e = Engine.reset)) = true
      ∧ gives .hostPushTimeout (onE push) (fun e => getF .HOST_BOOT_STAT_STAGE 0 e == 5 && getF .HOST_BOOT_STAT_ERR 0 e == 3) = true
      ∧ getF .HOST_BOOT_STAT_STAGE 0 ready = 4 ∧ getF .HOST_BOOT_STAT_SVN 0 ready < 2 ^ Fld.SYS_FUSE_SVNMIN.width
      ∧ gives .commitsvn State.reset (fun e => decide (e = Engine.reset)) = true := by decide +kernel

theorem witness_ResetsClimbTheLadder :
    let ask := fun w => { Engine.reset with held := 32, host := { HostIf.reset with warmReq := some 5, warmAt := w } }
    let cyc := { Engine.reset with host := { HostIf.reset with cycleReq := some 9 } }
    let late := regsE [(.HOST_BOOT_STAT_WARM, 0, 1), (.HOST_BOOT_STAT_STAGE, 0, 1)]
    gives (.warmResetRequest 0x6C170001) State.reset (fun e => e.host.warmReq == some 6) = true
      ∧ gives (.warmResetRequest 0x6C180001) State.reset (fun e => decide (e = Engine.reset)) = true
      ∧ gives (.powerCycleRequest 0x6C170002) State.reset (fun e => e.host.cycleReq == some 9) = true
      ∧ gives .fxLossOfLock State.reset (fun e => e.held == 32 && e.host.warmReq == some 5 && getF .SYS_SUP_STAT_STATE 0 e == 3 && pairRole e == 2) = true
      ∧ (ask []).host.warmReq = some 5 ∧ (ask []).host.warmAt = [] ∧ (ask [0, 0]).host.warmAt = [0, 0] ∧ aoSec (ask [0, 0]) ≤ 0 + 60
      ∧ gives (.warmReset true) (onE (ask [0, 0])) (fun e => e.held == 32 && e.host.cycleReq == some 9) = true
      ∧ gives (.warmReset false) State.reset (fun e => decide (e = Engine.reset)) = true
      ∧ cyc.host.cycleReq ≠ none ∧ gives .powerCycle (onE cyc) (fun e => e.held == 4 && e.host.failN) = true
      ∧ getF .HOST_BOOT_STAT_WARM 0 late = 1 ∧ getF .HOST_BOOT_STAT_STAGE 0 late ≠ 4
      ∧ gives .warmResetDeadline (onE late) (fun e => e.held == 4 && e.host.failN) = true
      ∧ gives .warmResetDeadline State.reset (fun e => decide (e = Engine.reset)) = true := by decide +kernel

/-- A boot with a fused minimum, which a reset leaves to the part, below, at and above the image's. -/
theorem witness_ColdResetAndBoot_svn :
    let e := setF .SYS_FUSE_SVNMIN 0 3 (bootE [])
    getF .HOST_BOOT_STAT_STAGE 0 e = 1 ∧ getF .SYS_FUSE_SVNMIN 0 e ≤ 3 ∧ 2 < getF .SYS_FUSE_SVNMIN 0 e ∧ e.held = 0 := by
  intro e
  have h : getF .HOST_BOOT_STAT_STAGE 0 e = 1 := (getF_setF_of_ne (by decide) ..).trans (by decide +kernel)
  have m : getF .SYS_FUSE_SVNMIN 0 e = 3 := getF_setF_self ..
  exact ⟨h, by omega, by omega, rfl⟩

theorem witness_ColdResetAndBoot_more :
    let fx := { regsE [(.SYS_TEMP_CUR, 0, 3)] with held := 32 }
    let push := { regsE [(.HOST_BOOT_STAT_STAGE, 0, 2)] with host := { HostIf.reset with pushed := true } }
    let wait := regsE [(.HOST_BOOT_STAT_STAGE, 0, 2)]
    let second := regsE [(.HOST_BOOT_STAT_STAGE, 0, 3)]
    let fall := bootE [(.HOST_BOOT_STAT_BOOTSEL, 0, 2)]
    let again := bootE [(.HOST_BOOT_STAT_BOOTSEL, 0, 2), (.HOST_BOOT_STAT_WARM, 0, 1)]
    gives .oscInLoss (onE fx) (fun e => e.held == 1) = true
      ∧ (Instr.bootReady false ⟨true, true⟩ 3 0 [255] [] true ⟨true, false⟩).wf = true
      ∧ ¬ (getF .HOST_BOOT_STAT_STAGE 0 wait = 1 ∨ getF .HOST_BOOT_STAT_STAGE 0 wait = 3 ∨ (getF .HOST_BOOT_STAT_STAGE 0 wait = 2 ∧ wait.host.pushed = true))
      ∧ gives (.bootReady true ⟨false, false⟩ 3 0 [] [] true ⟨true, true⟩) (onE wait) (fun e => decide (e = wait)) = true
      ∧ getF .HOST_BOOT_STAT_STAGE 0 push = 2 ∧ push.host.pushed = true
      ∧ getF .HOST_BOOT_STAT_STAGE 0 second = 3
      ∧ getF .HOST_BOOT_STAT_BOOTSEL 0 fall = 2 ∧ getF .HOST_BOOT_STAT_STAGE 0 fall = 1 ∧ getF .HOST_BOOT_STAT_WARM 0 fall = 0 ∧ getF .HOST_BOOT_STAT_WARM 0 again ≠ 0 := by decide +kernel

theorem witness_ResetsClimbTheLadder_more :
    let asked := { Engine.reset with host := { HostIf.reset with warmReq := some 5 } }
    let far := { Engine.reset with host := { HostIf.reset with warmReq := some 15, warmAt := [0, 0, 0] } }
    let cold := { asked with held := 1 }
    let kept := { asked with held := 64 }
    gives (.warmResetRequest 0x6C170001) (onE asked) (fun e => e.host.warmReq == some 5) = true
      ∧ gives (.warmResetRequest 0x6C170002) State.reset (fun e => decide (e = Engine.reset)) = true
      ∧ gives (.powerCycleRequest 0x6C170001) State.reset (fun e => decide (e = Engine.reset)) = true
      ∧ cold.held % 32 ≠ 0 ∧ gives (.warmReset true) (onE cold) (fun e => decide (e = cold)) = true
      ∧ kept.held / 64 % 2 = 1 ∧ gives (.warmReset true) (onE kept) (fun e => decide (e = kept)) = true
      ∧ asked.held % 32 = 0 ∧ asked.held / 64 % 2 = 0 ∧ (asked.host.warmAt.filter fun t => decide (aoSec asked ≤ t + 60)).length < 2
      ∧ 2 ≤ (far.host.warmAt.filter fun t => decide (aoSec far ≤ t + 60)).length
      ∧ gives (.warmReset true) (onE far) (fun e => e.host.cycleReq == some 9 && e.host.warmReq.isNone) = true := by decide +kernel

/-! ### Containment -/

theorem witness_ContainmentIsRecorded :
    let e := { Engine.reset with health := { Health.reset with recs := [(7, 15, 2 ^ 24 - 1, 2 ^ 64 - 1)] } }
    7 < 8 ∧ 15 < 16 ∧ 2 ^ 24 - 1 < 2 ^ 24 ∧ 2 ^ 64 - 1 < 2 ^ 64 ∧ e.sched.caps = [] ∧ e.health.recs = [(7, 15, 2 ^ 24 - 1, 2 ^ 64 - 1)]
      ∧ getF .SYS_CONTAIN_FRAME_HI_FRAME 0 (applyCaps e) = 2 ^ 32 - 1 ∧ getF .SYS_CONTAIN_LAST_IDENT 0 (applyCaps e) = 2 ^ 24 - 1 := by decide +kernel


end Sys2Proof.Machine
end

/-! ## The statements of scope: fields, bytes, and the host's registers -/

section
/-! PROOFS. Stores and reads of several bytes, and little-endian values (R505). -/
namespace Sys2Proof.Machine

/-! ### What a store leaves, as one equation -/

theorem writeBytes_eq (a : Nat) (bs : List Byte) (e : Engine) : writeBytes a bs e = { e with mem := (writeBytes a bs e).mem } := by
  induction bs generalizing a e with
  | nil => rfl
  | cons b bs ih => exact ih (a + 1) (writeByte a b e)

theorem clearEcc_eq (a n k : Nat) (e : Engine) : clearEcc a n k e = { e with ecc := (clearEcc a n k e).ecc } := by
  induction k generalizing e with
  | zero => rfl
  | succ k ih =>
    rw [clearEcc]
    split
    · exact ih { e with ecc := tput 0 e.ecc (gran (a + k)) 0 }
    · exact ih e

/-- A store reaches the bytes and the check bits, and nothing else of the engine. -/
theorem store_eq (a : Nat) (bs : List Byte) (e : Engine) :
    store a bs e = { e with mem := (store a bs e).mem, ecc := (store a bs e).ecc } := by
  rw [store, clearEcc_eq, writeBytes_eq]

/-! ### Reading back several bytes -/

@[simp] theorem length_readBytes (e : Engine) (a n : Nat) : (readBytes e a n).length = n := by
  induction n generalizing a with
  | zero => rfl
  | succ n ih => simp only [readBytes, List.length_cons, ih]

theorem getElem_readBytes (e : Engine) (a n k : Nat) (h : k < (readBytes e a n).length) : (readBytes e a n)[k] = readByte e (a + k) := by
  induction n generalizing a k with
  | zero => exact absurd h (by simp)
  | succ n ih =>
    cases k with
    | zero => rfl
    | succ k => exact (ih (a + 1) k _).trans (by rw [Nat.add_right_comm, Nat.add_assoc])

/-- Memory that holds the bytes of a list one by one reads as the list. -/
theorem readBytes_eq_of_readByte {e : Engine} {a : Nat} {bs : List Byte}
    (h : ∀ k (hk : k < bs.length), readByte e (a + k) = bs[k]) : readBytes e a bs.length = bs :=
  List.ext_getElem (length_readBytes ..) fun k hk hk' => (getElem_readBytes e a _ k hk).trans (h k hk')

@[simp] theorem readBytes_writeBytes_self (a : Nat) (bs : List Byte) (e : Engine) : readBytes (writeBytes a bs e) a bs.length = bs :=
  readBytes_eq_of_readByte fun k hk => readByte_writeBytes_of_inside a k bs e hk

@[simp] theorem readBytes_store_self (a : Nat) (bs : List Byte) (e : Engine) : readBytes (store a bs e) a bs.length = bs :=
  readBytes_eq_of_readByte fun k hk => readByte_store_of_inside a k bs e hk

/-! ### Little-endian bytes (R505) -/

@[simp] theorem length_leBytes (v n : Nat) : (leBytes v n).length = n := by
  induction n generalizing v with
  | zero => rfl
  | succ n ih => simp only [leBytes, List.length_cons, ih]

theorem getElem_leBytes (v n j : Nat) (h : j < (leBytes v n).length) : (leBytes v n)[j] = BitVec.ofNat 8 (v / 256 ^ j) := by
  induction n generalizing v j with
  | zero => exact absurd h (by simp)
  | succ n ih =>
    cases j with
    | zero => simp only [leBytes, List.getElem_cons_zero, Nat.pow_zero, Nat.div_one]
    | succ j => exact (ih (v / 256) j _).trans (by rw [Nat.div_div_eq_div_mul, Nat.pow_succ'])

/-- The bytes of a number, put together again, are the number at their width. -/
@[simp] theorem leNat_leBytes (v n : Nat) : leNat (leBytes v n) = v % 256 ^ n := by
  induction n generalizing v with
  | zero => simp only [leBytes, leNat, Nat.pow_zero, Nat.mod_one]
  | succ n ih =>
    have hpow : 256 ^ (n + 1) = 256 * 256 ^ n := Nat.pow_succ'
    rw [leBytes, leNat, ih, BitVec.toNat_ofNat, hpow, Nat.mod_mul]

theorem readBytes_store_leBytes (a v n : Nat) (e : Engine) : readBytes (store a (leBytes v n) e) a n = leBytes v n := by
  simpa only [length_leBytes] using readBytes_store_self a (leBytes v n) e

theorem readBytes_writeBytes_leBytes (a v n : Nat) (e : Engine) : readBytes (writeBytes a (leBytes v n) e) a n = leBytes v n := by
  simpa only [length_leBytes] using readBytes_writeBytes_self a (leBytes v n) e

@[simp] theorem read32_write32_self (a v : Nat) (e : Engine) : read32 (write32 a v e) a = v % 2 ^ 32 :=
  (congrArg leNat (readBytes_writeBytes_leBytes a v 4 e)).trans (leNat_leBytes v 4)

@[simp] theorem read64_write64_self (a : Nat) (v : Word64) (e : Engine) : read64 (write64 a v e) a = v := by
  rw [read64, write64, readBytes_writeBytes_leBytes, leNat_leBytes, Nat.mod_eq_of_lt (by simpa using v.isLt), BitVec.ofNat_toNat,
    BitVec.setWidth_eq]

/-- A stored number's byte `j`, counted from the lowest address, holds its bits `8j + 7` to `8j`. -/
theorem readByte_store_leBytes (a v n j : Nat) (e : Engine) (h : j < n) :
    (readByte (store a (leBytes v n) e) (a + j)).toNat = v / 256 ^ j % 256 := by
  rw [readByte_store_of_inside a j _ e (by rwa [length_leBytes]), getElem_leBytes, BitVec.toNat_ofNat]

/-! ### Writes of one register field -/

theorem onlyFields_setF (f : Fld) (i v : Nat) (e : Engine) : onlyFields [f] e (setF f i v e) := by
  refine ⟨fun g j hg => getF_setF_of_ne ?_ .., rfl⟩
  rintro rfl
  exact absurd hg (by simp)

theorem onlyFields_bumpF (f : Fld) (i n : Nat) (e : Engine) : onlyFields [f] e (bumpF f i n e) := onlyFields_setF ..

end Sys2Proof.Machine
end

section
open Sys2Proof Sys2Proof.Machine

/-- Settles O8: the register table answers a write of one field, a saturating count being such a write. -/
theorem fieldsAndCounters : Obligations.FieldsAndCounters :=
  ⟨getF_bumpF_self, getF_setF, fun f i v e => ⟨onlyFields_setF f i v e, onlyFields_bumpF f i v e⟩⟩

/-- Settles O9, from the laws of memory: bytes inside and outside a store. -/
theorem storeWritesItsBytes : Obligations.StoreWritesItsBytes :=
  fun a bs e => ⟨readBytes_store_self a bs e, fun b hb => readByte_store_of_outside a b bs e hb, store_eq a bs e⟩

/-- Settles O10, by the equation of each byte of a number and that of the number its bytes make (R505). -/
theorem valuesAreLittleEndian : Obligations.ValuesAreLittleEndian :=
  ⟨fun a v n j e h => readByte_store_leBytes a v n j e h,
    fun a v n e => by rw [readBytes_store_leBytes, leNat_leBytes],
    fun a v e => read32_write32_self a v e, fun a v e => read64_write64_self a v e⟩

end

section
/-! PROOFS. The register tables as software sees them (R11, R80, R504): each register field has one row, so that a write or a read of a
register acts on each of its fields by itself. -/
namespace Sys2Proof.Machine

/-! ### Rows -/

/-- The tables name each field in one row, in the order of `Fld`. -/
theorem ctorIdx_fieldRows : fieldRows.map (·.fld.ctorIdx) = List.range 560 := by decide +kernel

theorem fieldRows_pairwise : fieldRows.Pairwise fun r q => r.fld ≠ q.fld := by
  have h : (fieldRows.map (·.fld.ctorIdx)).Nodup := ctorIdx_fieldRows ▸ List.nodup_range
  exact (List.pairwise_map.1 h).imp fun hne he => hne (congrArg Fld.ctorIdx he)

theorem rowsAt_eq (blk off : Nat) : rowsAt blk off = fieldRows.filterMap fun r => (rowIdx r blk off).map (r, ·) := by
  refine congrArg (fieldRows.filterMap ·) (funext fun r => ?_)
  cases rowIdx r blk off <;> rfl

/-- No field stands twice at an offset. -/
theorem rowsAt_pairwise (blk off : Nat) : (rowsAt blk off).Pairwise fun p q => p.1.fld ≠ q.1.fld := by
  rw [rowsAt_eq]
  refine fieldRows_pairwise.filterMap _ fun r q hne p hp p' hp' => ?_
  obtain ⟨i, -, rfl⟩ := Option.map_eq_some_iff.1 hp
  obtain ⟨j, -, rfl⟩ := Option.map_eq_some_iff.1 hp'
  exact hne

/-! ### An operation over the fields at an offset, each by itself -/

/-- The step writes no field but its row's own, whose new value is `val` of the old one, and nothing of the engine but registers. -/
structure WritesOwnField (step : Engine → FieldRow × Nat → Engine) (val : FieldRow × Nat → Nat → Nat) : Prop where
  regs_only : ∀ e p, step e p = { e with regs := (step e p).regs }
  getF_own : ∀ e p, getF p.1.fld p.2 (step e p) = val p (getF p.1.fld p.2 e)
  getF_other : ∀ e p g j, ¬ (p.1.fld = g ∧ p.2 = j) → getF g j (step e p) = getF g j e

section
variable {step : Engine → FieldRow × Nat → Engine} {val : FieldRow × Nat → Nat → Nat} (hs : WritesOwnField step val)
include hs

theorem WritesOwnField.foldl_regs_only (l : List (FieldRow × Nat)) (e : Engine) :
    l.foldl step e = { e with regs := (l.foldl step e).regs } := by
  induction l generalizing e with
  | nil => rfl
  | cons p l ih => rw [List.foldl_cons, ih, hs.regs_only]

theorem WritesOwnField.getF_foldl_of_ne {l : List (FieldRow × Nat)} {g : Fld} {j : Nat} (h : ∀ p ∈ l, ¬ (p.1.fld = g ∧ p.2 = j))
    (e : Engine) : getF g j (l.foldl step e) = getF g j e := by
  induction l generalizing e with
  | nil => rfl
  | cons p l ih =>
    obtain ⟨hp, hl⟩ := List.forall_mem_cons.1 h
    rw [List.foldl_cons, ih hl, hs.getF_other e p g j hp]

theorem WritesOwnField.getF_foldl_of_mem {l : List (FieldRow × Nat)} (hl : l.Pairwise fun p q => p.1.fld ≠ q.1.fld)
    {p : FieldRow × Nat} (hp : p ∈ l) (e : Engine) : getF p.1.fld p.2 (l.foldl step e) = val p (getF p.1.fld p.2 e) := by
  induction l generalizing e with
  | nil => cases hp
  | cons q l ih =>
    obtain ⟨hq, hl⟩ := List.pairwise_cons.1 hl
    rcases List.mem_cons.1 hp with rfl | hp
    · rw [List.foldl_cons, hs.getF_foldl_of_ne fun q' hq' hc => hq q' hq' hc.1.symm, hs.getF_own]
    · rw [List.foldl_cons, ih hl hp, hs.getF_other e q _ _ fun hc => hq p hp hc.1]

end

/-! ### Plain stores (R11, R504) -/

/-- What a write of `v` makes of the old value of the field of a row. -/
def storedField (v : Nat) (p : FieldRow × Nat) (old : Nat) : Nat :=
  match p.1.acc with
  | .RW => (storedAs p.1.chk (fieldBits p.1 v)).elim old (· % 2 ^ p.1.fld.width)
  | .RW1C => old &&& (2 ^ p.1.fld.width - 1 - fieldBits p.1 v)
  | _ => old

theorem storedField_RW {v x old : Nat} {p : FieldRow × Nat} (ha : p.1.acc = .RW) (hx : storedAs p.1.chk (fieldBits p.1 v) = some x) :
    storedField v p old = x % 2 ^ p.1.fld.width := by simp only [storedField, ha, hx, Option.elim]

theorem storedField_RW_any {v old : Nat} {p : FieldRow × Nat} (ha : p.1.acc = .RW) (hc : p.1.chk = .any) :
    storedField v p old = fieldBits p.1 v := by
  rw [storedField_RW ha (by rw [hc]; rfl), fieldBits, Nat.mod_mod]

theorem storedField_RO {v old : Nat} {p : FieldRow × Nat} (ha : p.1.acc = .RO) : storedField v p old = old := by
  simp only [storedField, ha]

theorem storedField_RW1C {v old : Nat} {p : FieldRow × Nat} (ha : p.1.acc = .RW1C) :
    storedField v p old = old &&& (2 ^ p.1.fld.width - 1 - fieldBits p.1 v) := by simp only [storedField, ha]

theorem storeField_writesOwnField (v : Nat) : WritesOwnField (storeField v) (storedField v) where
  regs_only e p := by
    unfold storeField
    cases p.1.acc with
    | RW =>
      cases h : storedAs p.1.chk (fieldBits p.1 v) with
      | none => simp only [h]
      | some x => simp only [h]; rfl
    | RW1C => rfl
    | _ => rfl
  getF_own e p := by
    unfold storeField storedField
    cases p.1.acc with
    | RW => cases h : storedAs p.1.chk (fieldBits p.1 v) <;> simp only [h, getF_setF_self, Option.elim]
    | RW1C =>
      have := Nat.two_pow_pos p.1.fld.width
      exact (getF_setF_self ..).trans (Nat.mod_eq_of_lt (Nat.and_lt_two_pow _ (by omega)))
    | _ => rfl
  getF_other e p g j hg := by
    unfold storeField
    cases p.1.acc with
    | RW => cases h : storedAs p.1.chk (fieldBits p.1 v) <;> simp only [h, getF_setF, if_neg hg]
    | RW1C => exact (getF_setF ..).trans (if_neg hg)
    | _ => rfl

theorem plainWrite_regs_only (blk off v : Nat) (e : Engine) : plainWrite blk off v e = { e with regs := (plainWrite blk off v e).regs } :=
  (storeField_writesOwnField v).foldl_regs_only ..

theorem getF_plainWrite_of_mem {blk off : Nat} {p : FieldRow × Nat} (h : p ∈ rowsAt blk off) (v : Nat) (e : Engine) :
    getF p.1.fld p.2 (plainWrite blk off v e) = storedField v p (getF p.1.fld p.2 e) :=
  (storeField_writesOwnField v).getF_foldl_of_mem (rowsAt_pairwise ..) h e

theorem getF_plainWrite_of_ne {blk off : Nat} {g : Fld} {j : Nat} (h : ∀ p ∈ rowsAt blk off, ¬ (p.1.fld = g ∧ p.2 = j)) (v : Nat)
    (e : Engine) : getF g j (plainWrite blk off v e) = getF g j e :=
  (storeField_writesOwnField v).getF_foldl_of_ne h e

/-- The blocks whose registers have no write rule of their own. -/
theorem regWrite_plain {b : Nat} (hb : b = 5 ∨ b = 6 ∨ b = 8 ∨ b = 11) (off v : Nat) (e : Engine) :
    regWrite b off v e = plainWrite b off v e := by
  have ha : areaOk b off v e = true := by rcases hb with rfl | rfl | rfl | rfl <;> simp [areaOk, areaRules]
  rcases hb with rfl | rfl | rfl | rfl <;> simp only [regWrite, ha, Bool.not_true, Bool.false_eq_true, if_false]

/-! ### Reads (R11, R80) -/

/-- One field of a read: an RC field goes back to its reset value. -/
def clearField (e : Engine) (p : FieldRow × Nat) : Engine := if p.1.acc = .RC then setF p.1.fld p.2 (p.1.fld.reset p.2) e else e

theorem clearRc_eq_foldl (rows : List (FieldRow × Nat)) (e : Engine) : clearRc rows e = rows.foldl clearField e := rfl

theorem clearField_writesOwnField :
    WritesOwnField clearField fun p old => if p.1.acc = .RC then p.1.fld.reset p.2 % 2 ^ p.1.fld.width else old where
  regs_only e p := by unfold clearField; split <;> rfl
  getF_own e p := by
    unfold clearField
    split
    · exact getF_setF_self ..
    · rfl
  getF_other e p g j hg := by
    unfold clearField
    split
    · exact (getF_setF ..).trans (if_neg hg)
    · rfl

theorem clearRc_regs_only (rows : List (FieldRow × Nat)) (e : Engine) : clearRc rows e = { e with regs := (clearRc rows e).regs } :=
  clearField_writesOwnField.foldl_regs_only ..

@[simp] theorem clearRc_mem (rows : List (FieldRow × Nat)) (e : Engine) : (clearRc rows e).mem = e.mem := by rw [clearRc_regs_only]
@[simp] theorem clearRc_latch (rows : List (FieldRow × Nat)) (e : Engine) : (clearRc rows e).latch = e.latch := by rw [clearRc_regs_only]

theorem getF_clearRc_of_mem {blk off : Nat} {p : FieldRow × Nat} (h : p ∈ rowsAt blk off) (e : Engine) :
    getF p.1.fld p.2 (clearRc (rowsAt blk off) e)
      = if p.1.acc = .RC then p.1.fld.reset p.2 % 2 ^ p.1.fld.width else getF p.1.fld p.2 e :=
  clearField_writesOwnField.getF_foldl_of_mem (rowsAt_pairwise ..) h e

/-- Latching writes latches only. -/
theorem latchAll_eq (blk off : Nat) (e : Engine) : latchAll blk off e = { e with latch := (latchAll blk off e).latch } := by
  unfold latchAll
  induction latchedBy blk off generalizing e with
  | nil => rfl
  | cons o l ih => exact ih { e with latch := tput 0 e.latch (latchKey blk o) (wordOf e (rowsAt blk o) + 1) }

@[simp] theorem latchAll_mem (blk off : Nat) (e : Engine) : (latchAll blk off e).mem = e.mem := by rw [latchAll_eq]
@[simp] theorem getF_latchAll (g : Fld) (j blk off : Nat) (e : Engine) : getF g j (latchAll blk off e) = getF g j e :=
  getF_of_regs (by rw [latchAll_eq]) g j

/-- A low word of which one word hangs latches that word. -/
theorem tget_latchAll {blk off o : Nat} (h : latchedBy blk off = [o]) (e : Engine) :
    tget 0 (latchAll blk off e).latch (latchKey blk o) = wordOf e (rowsAt blk o) + 1 := by
  simp only [latchAll, h, List.foldl_cons, List.foldl_nil, tget_tput_self]

/-- The low words are read themselves, not through a latch. -/
theorem isLatched_of_latchedBy {blk off o : Nat} (h : latchedBy blk off = [o]) : isLatched blk off = false := by
  unfold latchedBy at h
  split at h
  · next hb => obtain ⟨rfl, rfl⟩ := hb; rfl
  · split at h
    · next hb => obtain ⟨rfl, rfl⟩ := hb; rfl
    · split at h
      · cases h
      · split at h
        · next hb => obtain ⟨rfl, rfl⟩ := hb; rfl
        · cases h

/-- The registers whose reads answer what the tables hold: all but the flash FIFO, the pins and the local clock, which a read first brings up
to date. -/
def readsTable (blk off : Nat) : Prop := rowsAt blk off ≠ [] ∧ (blk = 1 → off ≠ 0x44) ∧ (blk = 0 → off ≠ 0x248) ∧ (blk = 6 → off ≠ 0)

/-- The word that such a read answers: the latched one where a latch holds it. -/
theorem readReg_of_readsTable {blk off : Nat} (h : readsTable blk off) (t : Nat) (e : Engine) :
    (readReg blk off t e).2 = clearRc (rowsAt blk off) (latchAll blk off e)
      ∧ (isLatched blk off = false → (readReg blk off t e).1 = wordOf e (rowsAt blk off))
      ∧ ∀ l, isLatched blk off = true → tget 0 e.latch (latchKey blk off) = l + 1 → (readReg blk off t e).1 = l := by
  obtain ⟨hrows, hfifo, hpins, hclock⟩ := h
  have hbefore : beforeRead blk off t e = e := by
    rw [beforeRead, if_neg fun hc => hclock hc.1 hc.2, if_neg fun hc => hpins hc.1 hc.2]
  have hempty : (rowsAt blk off).isEmpty = false := List.isEmpty_eq_false_iff.2 hrows
  simp only [readReg, if_neg fun hc : blk = 1 ∧ off = 0x44 => hfifo hc.1 hc.2, hbefore, hempty, Bool.false_eq_true, if_false, true_and]
  refine ⟨fun hl => ?_, fun l hl hk => ?_⟩
  · simp only [hl, Bool.false_eq_true, if_false]
  · simp only [hl, if_true, hk]

/-! ### The frame's configuration (R53) -/

theorem flog_mem_rowsAt : (⟨.SYS_FRAME_CFG_FLOG, 0, 0x100, 0, 1, 5, .RW, .range 2 6⟩, 0) ∈ rowsAt 0 0x100 := by decide +kernel
theorem pull_mem_rowsAt : (⟨.SYS_FRAME_CFG_PULL, 0, 0x100, 0, 1, 3, .RW, .range 0 2⟩, 0) ∈ rowsAt 0 0x100 := by decide +kernel
theorem rate_mem_rowsAt : (⟨.SYS_FRAME_CFG_RATE, 0, 0x100, 0, 1, 0, .RW, .range 0 3⟩, 0) ∈ rowsAt 0 0x100 := by decide +kernel

/-- A field with a range stores a value of it. -/
theorem getF_plainWrite_range {blk off lo hi v : Nat} {p : FieldRow × Nat} (h : p ∈ rowsAt blk off) (ha : p.1.acc = .RW)
    (hc : p.1.chk = .range lo hi) (hlo : lo ≤ fieldBits p.1 v) (hhi : fieldBits p.1 v ≤ hi) (e : Engine) :
    getF p.1.fld p.2 (plainWrite blk off v e) = fieldBits p.1 v := by
  have hx : storedAs p.1.chk (fieldBits p.1 v) = some (fieldBits p.1 v) := by rw [hc]; exact if_pos ⟨hlo, hhi⟩
  rw [getF_plainWrite_of_mem h, storedField_RW ha hx, fieldBits, Nat.mod_mod]

/-- What follows from a new configuration shows in the window and the cadence alone. -/
def cfgFollowers : List Fld := [.SYS_WINDOW_WINDOW, .CLK_CAD_N, .CLK_CAD_IDX, .CLK_CAD_LEN]

theorem getF_refreshCad_followCfg {g : Fld} (h : g ∉ cfgFollowers) (j x : Nat) (e : Engine) :
    getF g j (refreshCad x (followCfg e)) = getF g j e := by
  simp only [cfgFollowers, List.mem_cons, List.not_mem_nil, or_false, not_or] at h
  obtain ⟨hw, hn, hi, hl⟩ := h
  simp only [refreshCad, followCfg]
  rw [getF_setF_of_ne (Ne.symm hl), getF_setF_of_ne (Ne.symm hn), getF_setF_of_ne (Ne.symm hi), getF_setF_of_ne (Ne.symm hw)]

/-- In Quiescent the write is the plain one, but for what follows from it. -/
theorem getF_effSysFrameCfgWrite {e : Engine} (hq : inQuiescent e = true) {g : Fld} (h : g ∉ cfgFollowers) (j v : Nat) :
    getF g j (effSysFrameCfgWrite v e) = getF g j (plainWrite 0 0x100 v e) := by
  simp only [effSysFrameCfgWrite, hq, Bool.not_true, Bool.false_eq_true, if_false]
  generalize plainWrite 0 0x100 v e = n
  split
  · rfl
  · exact (getF_refreshCad_followCfg h ..).trans (getF_of_regs rfl g j)

/-- A change of F or of the house rate invalidates the admitted graph. -/
theorem effSysFrameCfgWrite_stale {e : Engine} (hq : inQuiescent e = true) {v : Nat}
    (h : getF .SYS_FRAME_CFG_FLOG 0 (plainWrite 0 0x100 v e) ≠ getF .SYS_FRAME_CFG_FLOG 0 e
      ∨ getF .SYS_FRAME_CFG_RATE 0 (plainWrite 0 0x100 v e) ≠ getF .SYS_FRAME_CFG_RATE 0 e) :
    (effSysFrameCfgWrite v e).sched.stale = true := by
  simp only [effSysFrameCfgWrite, hq, Bool.not_true, Bool.false_eq_true, if_false]
  generalize plainWrite 0 0x100 v e = n at h ⊢
  rw [if_neg fun hc => h.elim (· hc.1) (· hc.2.1)]
  simpa [refreshCad, followCfg] using .inr h

end Sys2Proof.Machine
end

section
/-! PROOFS. Accesses of the host through the crossbar (R431, R437, R456). -/
namespace Sys2Proof.Machine

/-! ### Crossbar errors -/

@[simp] theorem xbarError_xmem (code m a : Nat) (e : Engine) : (xbarError code m a e).xmem = e.xmem := by
  simp only [xbarError, postEvent_xmem, bumpF_xmem, setF_xmem]

/-- The counter of an error by its code (Table 14.11) is none of the fields that record the error itself. -/
theorem errorCounter_ne {g : Fld} (h : g ∉ [Fld.XBAR_ERRCNT_NODEST, .XBAR_ERRCNT_TIMEOUT, .XBAR_ERRCNT_PARITY]) (code : Nat) :
    (if code = 1 then Fld.XBAR_ERRCNT_NODEST else if code = 2 then .XBAR_ERRCNT_TIMEOUT else .XBAR_ERRCNT_PARITY) ≠ g := by
  rintro rfl
  split at h
  · exact h (by decide)
  · split at h <;> exact h (by decide)

@[simp] theorem getF_xbarError_code (code m a : Nat) (e : Engine) :
    getF .XBAR_ERR_CODE 0 (xbarError code m a e) = code % 2 ^ Fld.XBAR_ERR_CODE.width := by
  simp only [xbarError]
  rw [getF_postEvent (by decide), bumpF, getF_setF_of_ne (errorCounter_ne (by decide) code)]
  simp

@[simp] theorem getF_xbarError_master (code m a : Nat) (e : Engine) :
    getF .XBAR_ERR_MASTER 0 (xbarError code m a e) = m % 2 ^ Fld.XBAR_ERR_MASTER.width := by
  simp only [xbarError]
  rw [getF_postEvent (by decide), bumpF, getF_setF_of_ne (errorCounter_ne (by decide) code)]
  simp

/-! ### One access -/

/-- An address of no target is answered NODEST, and recorded. -/
theorem access_of_no_target {a : Nat} (h : targetOf a = none) (e : Engine) (m : Nat) (wr bar2 : Bool) (data : List Byte) (n : Nat) :
    access e m a wr bar2 data n = ⟨.nodest, [], xbarError 1 m a e⟩ := by
  have ho : ownerOk e m a n wr bar2 = false := by simp only [ownerOk, h]
  simp only [access, ho, Bool.not_false, if_true]

/-- Targets 0 to 7 are the banks of region SRAM (Table 14.4). -/
theorem region_of_targetOf {a t : Nat} (h : targetOf a = some t) (ht : t < 8) : 0x10000000 ≤ a ∧ a < 0x12000000 := by
  rcases Nat.lt_or_ge a 0x10000000 with hlo | hlo
  · rw [targetOf, if_pos hlo] at h
    injection h with h
    omega
  rcases Nat.lt_or_ge a 0x12000000 with hhi | hhi
  · exact ⟨hlo, hhi⟩
  · rw [targetOf, if_neg (by omega), if_neg (by omega)] at h
    repeat (split at h; · injection h with h; omega)
    cases h

theorem metBy_eq_nil {e : Engine} {a : Nat} (hecc : e.ecc = []) (ht : targetOf a ≠ some 12) (n : Nat) : metBy e a n = [] := by
  have hrank : rankOut e a = false := by simp [rankOut, ht]
  simp [metBy, badIn, hecc, hrank]

/-- A read of region SRAM without errors answers its bytes, those of tables as the tables hold them. -/
theorem access_region_read {e : Engine} {m a n t : Nat} (ht : t < 8) (h : targetOf a = some t) (hm : isDma m = false)
    (hok : regionOk e m a n false = true) (hecc : e.ecc = []) (bar2 : Bool) (data : List Byte) :
    access e m a false bar2 data n = ⟨.done, overTables e a (readBytes e a n), e⟩ := by
  obtain ⟨hlo, hhi⟩ := region_of_targetOf h ht
  have hne (k : Nat) (hk : 8 ≤ k) : targetOf a ≠ some k := by rw [h]; intro hc; injection hc; omega
  have hcases : t = 0 ∨ t = 1 ∨ t = 2 ∨ t = 3 ∨ t = 4 ∨ t = 5 ∨ t = 6 ∨ t = 7 := by omega
  have howner : ownerOk e m a n false bar2 = true := by
    unfold ownerOk
    rcases hcases with rfl | rfl | rfl | rfl | rfl | rfl | rfl | rfl <;> simpa only [h] using hok
  have hshape : shapeOk a n false = true := by
    unfold shapeOk
    rcases hcases with rfl | rfl | rfl | rfl | rfl | rfl | rfl | rfl <;> simp only [h]
  have hup : targetUp e a = true := by simp only [targetUp, hne 12 (by omega), if_false]
  have htyped : typedTable a = false := by
    simp only [typedTable, Bool.and_eq_false_iff, decide_eq_false_iff_not]; omega
  have hserve : serveAt e m a = a := by simp only [serveAt, hm, Bool.false_eq_true, false_and, if_false]
  simp only [access, howner, hshape, hup, htyped, hne 12 (by omega), hne 15 (by omega), Bool.not_true, Bool.or_self, Bool.false_eq_true,
    false_and, if_false, readUnits, hserve, metBy_eq_nil hecc (hne 12 (by omega)), List.foldl_nil, List.any_nil]

/-! ### BAR2 -/

@[simp] theorem Resp.then_done (r : Resp) : r.then_ .done = r := by cases r <;> rfl

theorem drainPosted_of_nil {e : Engine} (h : e.xmem.posted = []) : drainPosted e = e := by
  obtain ⟨⟩ := e
  simp only at h
  simp only [drainPosted, h, List.foldl_nil]
  rw [← h]

theorem bar2Read_zero (a f : Nat) (e : Engine) : bar2Read a 0 e f = (.done, [], e) := by cases f <;> rfl

theorem bar2Write_nil (a f : Nat) (e : Engine) : bar2Write a [] e f = (.done, e) := by cases f <;> rfl

/-- A read within one unit of 512 bytes is one access. -/
theorem bar2Read_one {a n : Nat} (hn : n ≠ 0) (h : a % 512 + n ≤ 512) (e : Engine) :
    bar2Read a n e (n + 1)
      = ((access e 39 a false true [] n).code, (access e 39 a false true [] n).data, (access e 39 a false true [] n).e) := by
  have hmin : min n (512 - a % 512) = n := by omega
  simp only [bar2Read, hn, if_false, hmin, Nat.sub_self, bar2Read_zero, Resp.then_done, List.append_nil]

/-- A write within one unit of 512 bytes is one access. -/
theorem bar2Write_one {a : Nat} {bs : List Byte} (hn : bs ≠ []) (h : a % 512 + bs.length ≤ 512) (e : Engine) :
    bar2Write a bs e (bs.length + 1)
      = ((access e 39 a true true bs bs.length).code, (access e 39 a true true bs bs.length).e) := by
  have hmin : min bs.length (512 - a % 512) = bs.length := by omega
  simp only [bar2Write, List.isEmpty_eq_false_iff.2 hn, Bool.false_eq_true, if_false, hmin, List.take_length, List.drop_length,
    bar2Write_nil, Resp.then_done]

end Sys2Proof.Machine
end

section
/-! PROOFS. The six parts of O56: register writes and reads, `SYS_FRAME_CFG`, BAR0, BAR2 and configuration space. -/
namespace Sys2Proof.Machine

/-! ### Register writes (R11, R504) -/

theorem isReg_of_lt {b off : Nat} (hb : b < 13) (hoff : off < 0x8000) (h4 : off % 4 = 0) : isReg b off = true := by
  simp [isReg, hb, hoff, h4]

theorem registerWrite_stores {s : State} {b off v : Nat} (hb : b = 5 ∨ b = 6 ∨ b = 8 ∨ b = 11) (hoff : off < 0x8000) (h4 : off % 4 = 0)
    (hv : v < 2 ^ 32) (hl : s.e.held = 0) :
    completes (.registerWrite b off v) s fun e => e = { s.e with regs := e.regs }
      ∧ (∀ r i, (r, i) ∈ rowsAt b off → (r.acc = .RW → r.chk = .any → getF r.fld i e = v / 2 ^ r.lo % 2 ^ r.fld.width)
          ∧ (r.acc = .RO → getF r.fld i e = getF r.fld i s.e)
          ∧ (r.acc = .RW1C → getF r.fld i e = getF r.fld i s.e &&& (2 ^ r.fld.width - 1 - v / 2 ^ r.lo % 2 ^ r.fld.width)))
      ∧ ∀ f i, (∀ r, (r, i) ∈ rowsAt b off → r.fld ≠ f) → getF f i e = getF f i s.e := by
  have hwf : (Instr.registerWrite b off v).wf = true := by
    rw [Instr.wf_registerWrite, isReg_of_lt (by omega) hoff h4]; simpa [isWord] using hv
  refine completes_of_live (exec_registerWrite ..) hwf hl ?_
  rw [effRegisterWrite, regWrite_plain hb]
  refine ⟨plainWrite_regs_only .., fun r i hr => ?_, fun f i hf => ?_⟩
  · rw [getF_plainWrite_of_mem hr]
    exact ⟨fun ha hc => storedField_RW_any ha hc, fun ha => storedField_RO ha, fun ha => storedField_RW1C ha⟩
  · refine getF_plainWrite_of_ne ?_ v s.e
    rintro ⟨r, k⟩ hr ⟨hfld, rfl⟩
    exact hf r hr hfld

/-! ### Register reads (R11, R80) -/

theorem rcRead_answers {s : State} {b off : Nat} (hreg : isReg b off = true) (hl : s.e.held = 0) (hr : readsTable b off)
    (hlat : isLatched b off = false) :
    completes (.rcRead b off) s fun e => e.host.rd = leBytes (wordOf s.e (rowsAt b off)) 4 ∧ e.host.rdStatus = 0 ∧ e.mem = s.e.mem
      ∧ ∀ r i, (r, i) ∈ rowsAt b off → getF r.fld i e = if r.acc = .RC then r.fld.reset i % 2 ^ r.fld.width else getF r.fld i s.e := by
  obtain ⟨hafter, hword, -⟩ := readReg_of_readsTable hr 0 s.e
  refine completes_of_live (exec_rcRead ..) (by rw [Instr.wf_rcRead, hreg]) hl ⟨congrArg (leBytes · 4) (hword hlat), rfl, ?_, ?_⟩
  · exact (congrArg Engine.mem hafter).trans (by rw [clearRc_mem, latchAll_mem])
  · intro r i h
    refine (getF_of_regs (congrArg Engine.regs hafter) r.fld i).trans ?_
    rw [getF_clearRc_of_mem h, getF_latchAll]

theorem rcRead_answers_latch {s : State} {b off l : Nat} (hreg : isReg b off = true) (hl : s.e.held = 0) (hr : readsTable b off)
    (hlat : isLatched b off = true) (hk : tget 0 s.e.latch (latchKey b off) = l + 1) :
    completes (.rcRead b off) s fun e => e.host.rd = leBytes l 4 := by
  obtain ⟨-, -, hword⟩ := readReg_of_readsTable hr 0 s.e
  exact completes_of_live (exec_rcRead ..) (by rw [Instr.wf_rcRead, hreg]) hl (congrArg (leBytes · 4) (hword l hlat hk))

theorem latchingRead_latches {s : State} {b off o : Nat} (hreg : isReg b off = true) (hl : s.e.held = 0) (hr : readsTable b off)
    (ho : latchedBy b off = [o]) :
    completes (.latchingRead b off 0) s fun e => e.host.rd = leBytes (wordOf s.e (rowsAt b off)) 4
      ∧ tget 0 e.latch (latchKey b o) = wordOf s.e (rowsAt b o) + 1 := by
  obtain ⟨hafter, hword, -⟩ := readReg_of_readsTable hr 0 s.e
  refine completes_of_live (exec_latchingRead ..) (by rw [Instr.wf_latchingRead, hreg]) hl
    ⟨congrArg (leBytes · 4) (hword (isLatched_of_latchedBy ho)), ?_⟩
  refine (congrArg (fun e => tget 0 e.latch (latchKey b o)) hafter).trans ?_
  rw [clearRc_latch, tget_latchAll ho]

/-! ### `SYS_FRAME_CFG` (R53) -/

theorem sysFrameCfgWrite_rejected {s : State} {v : Nat} (hv : v < 2 ^ 32) (hl : s.e.held = 0) (hq : inQuiescent s.e = false) :
    completes (.sysFrameCfgWrite v) s fun e => getF .SYS_FRAME_CFG_REJ 0 e = 1 ∧ onlyFields [.SYS_FRAME_CFG_REJ] s.e e := by
  refine completes_of_live (exec_sysFrameCfgWrite ..) (by simpa [isWord] using hv) hl ?_
  simp only [effSysFrameCfgWrite, hq, Bool.not_false, if_true]
  exact ⟨getF_setF_self .., onlyFields_setF ..⟩

theorem sysFrameCfgWrite_taken {s : State} {v : Nat} (hv : v < 2 ^ 32) (hl : s.e.held = 0) (hq : inQuiescent s.e = true)
    (hlo : 2 ≤ v / 32 % 8) (hhi : v / 32 % 8 ≤ 6) (hp : v / 8 % 4 ≤ 2) (hr : v % 8 ≤ 3) :
    completes (.sysFrameCfgWrite v) s fun e =>
      getF .SYS_FRAME_CFG_FLOG 0 e = v / 32 % 8 ∧ getF .SYS_FRAME_CFG_PULL 0 e = v / 8 % 4 ∧ getF .SYS_FRAME_CFG_RATE 0 e = v % 8
        ∧ (v / 32 % 8 ≠ getF .SYS_FRAME_CFG_FLOG 0 s.e ∨ v % 8 ≠ getF .SYS_FRAME_CFG_RATE 0 s.e → e.sched.stale = true) := by
  have hflog : getF .SYS_FRAME_CFG_FLOG 0 (plainWrite 0 0x100 v s.e) = v / 32 % 8 :=
    getF_plainWrite_range flog_mem_rowsAt rfl rfl hlo hhi s.e
  have hpull : getF .SYS_FRAME_CFG_PULL 0 (plainWrite 0 0x100 v s.e) = v / 8 % 4 :=
    getF_plainWrite_range pull_mem_rowsAt rfl rfl (Nat.zero_le _) hp s.e
  have hrate : getF .SYS_FRAME_CFG_RATE 0 (plainWrite 0 0x100 v s.e) = v % 8 := by
    have hbits : fieldBits ⟨.SYS_FRAME_CFG_RATE, 0, 0x100, 0, 1, 0, .RW, .range 0 3⟩ v = v % 8 := by simp [fieldBits]
    exact (getF_plainWrite_range rate_mem_rowsAt rfl rfl (Nat.zero_le _) (hbits ▸ hr) s.e).trans hbits
  refine completes_of_live (exec_sysFrameCfgWrite ..) (by simpa [isWord] using hv) hl ⟨?_, ?_, ?_, fun hch => ?_⟩
  · rw [getF_effSysFrameCfgWrite hq (by decide), hflog]
  · rw [getF_effSysFrameCfgWrite hq (by decide), hpull]
  · rw [getF_effSysFrameCfgWrite hq (by decide), hrate]
  · exact effSysFrameCfgWrite_stale hq (by rwa [hflog, hrate])

/-! ### BAR0 (R455, R456) -/

theorem bar0Access_wf {off n : Nat} (hoff : off < 0x10000) (h1 : 1 ≤ n) (hn : n ≤ 4096) (wr : Bool) (v : Nat) :
    (Instr.bar0Access off n wr v).wf = true := by simp [hoff, h1, hn]

theorem bar0Access_write_fails {s : State} {off n v : Nat} (hwf : (Instr.bar0Access off n true v).wf = true) (hl : s.e.held = 0)
    (hbad : n ≠ 4 ∨ off % 4 ≠ 0) :
    completes (.bar0Access off n true v) s fun e => getF .HOST_PCIE_STAT_WERR 0 e
        = min (getF .HOST_PCIE_STAT_WERR 0 s.e + 1) (2 ^ Fld.HOST_PCIE_STAT_WERR.width - 1) ∧ e.host.aer = true
      ∧ onlyFields [.HOST_PCIE_STAT_WERR] { s.e with host := e.host } e := by
  refine completes_of_live (exec_bar0Access ..) hwf hl ?_
  simp only [effBar0Access, hbad, if_true, failWrite]
  exact ⟨getF_bumpF_self .., rfl, onlyFields_bumpF ..⟩

theorem bar0Access_read_fails {s : State} {off n v : Nat} (hwf : (Instr.bar0Access off n false v).wf = true) (hl : s.e.held = 0)
    (hbad : n ≠ 4 ∨ off % 4 ≠ 0) :
    completes (.bar0Access off n false v) s fun e => e.host.rdStatus = 2 ∧ e.regs = s.e.regs ∧ e.mem = s.e.mem := by
  refine completes_of_live (exec_bar0Access ..) hwf hl ?_
  simp only [effBar0Access, hbad, if_true, Bool.false_eq_true, if_false, answerHost, and_self]

/-- An aligned write of a double word below 0x4000 is the write of that HOST_ register. -/
theorem bar0Access_is_registerWrite {s : State} {off v : Nat} (h4 : off % 4 = 0) (hoff : off < 0x4000) (hv : v < 2 ^ 32) (hl : s.e.held = 0)
    (hp : s.e.xmem.posted = []) :
    completes (.bar0Access off 4 true v) s fun e => ∀ t, exec (.registerWrite 1 off v) s = .next t → e = t.e := by
  have hreg : (Instr.registerWrite 1 off v).wf = true := by
    rw [Instr.wf_registerWrite, isReg_of_lt (by omega) (by omega) h4]; simpa [isWord] using hv
  refine completes_of_live (exec_bar0Access ..) (bar0Access_wf (by omega) (by omega) (by omega) ..) hl fun t ht => ?_
  rw [exec_registerWrite, runLive_of_live hreg hl] at ht
  injection ht with ht
  subst ht
  simp only [effBar0Access, h4, drainPosted_of_nil hp, bar0Reg, hoff, if_true, ne_eq, not_true_eq_false, or_self, if_false,
    effRegisterWrite]

/-! ### BAR2 (R456) -/

theorem bar2Access_read_unsupported {s : State} {off n : Nat} (hwf : (Instr.bar2Access off false [] n).wf = true) (hl : s.e.held = 0)
    (hn : n ≠ 0) (hp : s.e.xmem.posted = []) (hline : bar2At s.e off % 512 + n ≤ 512) (ht : targetOf (bar2At s.e off) = none) :
    completes (.bar2Access off false [] n) s fun e => e.host.rdStatus = 1 ∧ getF .XBAR_ERR_CODE 0 e = 1 ∧ getF .XBAR_ERR_MASTER 0 e = 39 := by
  refine completes_of_live (exec_bar2Access ..) hwf hl ?_
  simp only [effBar2Access, drainPosted_of_nil hp, Bool.false_eq_true, if_false, bar2Read_one hn hline, access_of_no_target ht]
  exact ⟨rfl, getF_xbarError_code .., getF_xbarError_master ..⟩

theorem bar2Access_write_unsupported {s : State} {off : Nat} {bs : List Byte} (hwf : (Instr.bar2Access off true bs 0).wf = true)
    (hl : s.e.held = 0) (hbs : bs ≠ []) (hp : s.e.xmem.posted = []) (hline : bar2At s.e off % 512 + bs.length ≤ 512)
    (ht : targetOf (bar2At s.e off) = none) :
    completes (.bar2Access off true bs 0) s fun e => e.host.aer = true ∧ getF .XBAR_ERR_CODE 0 e = 1 := by
  refine completes_of_live (exec_bar2Access ..) hwf hl ?_
  have hp' : (xbarError 1 39 (bar2At s.e off) s.e).xmem.posted = [] := by rw [xbarError_xmem, hp]
  simp only [effBar2Access, drainPosted_of_nil hp, if_true, bar2Write_one hbs hline, access_of_no_target ht, drainPosted_of_nil hp',
    reduceCtorEq, if_false, failWrite]
  exact ⟨rfl, (getF_setF_of_ne (by decide) ..).trans (getF_xbarError_code ..)⟩

theorem bar2Access_reads_region {s : State} {off n t : Nat} (hwf : (Instr.bar2Access off false [] n).wf = true) (hl : s.e.held = 0)
    (hn : n ≠ 0) (hp : s.e.xmem.posted = []) (hline : bar2At s.e off % 512 + n ≤ 512) (ht : t < 8)
    (htarget : targetOf (bar2At s.e off) = some t) (hok : regionOk s.e 39 (bar2At s.e off) n false = true) (hecc : s.e.ecc = []) :
    completes (.bar2Access off false [] n) s fun e =>
      e.host.rd = overTables s.e (bar2At s.e off) (readBytes s.e (bar2At s.e off) n) ∧ e.host.rdStatus = 0 ∧ e.mem = s.e.mem := by
  refine completes_of_live (exec_bar2Access ..) hwf hl ?_
  simp only [effBar2Access, drainPosted_of_nil hp, Bool.false_eq_true, if_false, bar2Read_one hn hline,
    access_region_read ht htarget rfl hok hecc, answerHost, and_self]

/-! ### Configuration space (R454) -/

theorem configurationRequest_deviceId (s : State) :
    completes (.configurationRequest 0 false 0) s fun e => (e.host.rd.drop 2).map (·.toNat) = [0x40, 0x06] ∧ e.regs = s.e.regs := by
  refine completes_of_run (exec_configurationRequest ..) (by decide) ⟨?_, rfl⟩
  have hid := Config.vendorId.isLt
  simp only [effConfigurationRequest, cfgRead, answerHost, leBytes, Bool.false_eq_true, if_false, List.drop, List.map, BitVec.toNat_ofNat,
    List.cons.injEq, and_true]
  omega

theorem configurationRequest_bar0 {s : State} {v : Nat} (hv : v < 2 ^ 32) :
    completes (.configurationRequest 0x10 true v) s fun e => tget 0 e.host.cfg 0x10 = v / 65536 * 65536 ∧ e.regs = s.e.regs := by
  refine completes_of_run (exec_configurationRequest ..) (by simpa [isWord] using hv) ⟨?_, rfl⟩
  refine (tget_tput_self ..).trans ?_
  omega

end Sys2Proof.Machine
end

section
open Sys2Proof Sys2Proof.Machine

/-- Settles O56: each register field has a row of its own, so that a write or a read of a register acts on each by itself; BAR0 is that
register access, and BAR2 one crossbar access. -/
theorem registersAnswer : Obligations.RegistersAnswer := by
  refine ⟨fun s b off v hb hoff h4 hv hl => registerWrite_stores hb hoff h4 hv hl, ?_, ?_, ?_, ?_, ?_⟩
  · intro s b off hb hoff h4 hl hrows hfifo hpins hclock
    have hreg := isReg_of_lt hb hoff h4
    have hr : readsTable b off := ⟨hrows, hfifo, hpins, hclock⟩
    exact ⟨rcRead_answers hreg hl hr, fun hlat l hk => rcRead_answers_latch hreg hl hr hlat hk,
      fun o ho => latchingRead_latches hreg hl hr ho⟩
  · exact fun s v hv hl => ⟨sysFrameCfgWrite_rejected hv hl, sysFrameCfgWrite_taken hv hl⟩
  · intro s off n v hoff h1 hn hl
    have hwf := bar0Access_wf hoff h1 hn
    exact ⟨fun hbad => ⟨bar0Access_write_fails (hwf true v) hl hbad, bar0Access_read_fails (hwf false v) hl hbad⟩,
      fun h4 hoff' hv hp => bar0Access_is_registerWrite h4 hoff' hv hl hp⟩
  · intro s off n hoff h1 hn hl hp hline
    have hn0 : n ≠ 0 := by omega
    have hread : (Instr.bar2Access off false [] n).wf = true := by simp [hoff, hn]
    refine ⟨fun ht => ⟨bar2Access_read_unsupported hread hl hn0 hp hline ht, ?_⟩,
      fun t ht htarget hok hecc => bar2Access_reads_region hread hl hn0 hp hline ht htarget hok hecc⟩
    rintro bs rfl
    have hbs : bs ≠ [] := List.ne_nil_of_length_pos h1
    exact bar2Access_write_unsupported (by simp [hoff, hn]) hl hbs hp hline ht
  · exact fun s => ⟨configurationRequest_deviceId s, fun v hv => configurationRequest_bar0 hv⟩

end

section
/-! PROOFS. The change of state of an ASRC channel (R205): what leaving LOCKED and entering ACQUIRE or LOCKED write, and the frame boundary
at which a change that waits takes effect. -/
namespace Sys2Proof.Machine

/-! ### The loss of a source (R189) -/

@[simp] theorem isLost_declareLost_self (k : Nat) (e : Engine) : isLost (declareLost k e) k = true := by
  unfold declareLost
  split
  · assumption
  · simp [isLost]

@[simp] theorem declareLost_regs (k : Nat) (e : Engine) : (declareLost k e).regs = e.regs := by unfold declareLost; split <;> rfl
@[simp] theorem declareLost_sinks (k : Nat) (e : Engine) : (declareLost k e).mix.sinks = e.mix.sinks := by
  unfold declareLost; split <;> rfl
@[simp] theorem getF_declareLost (g : Fld) (j k : Nat) (e : Engine) : getF g j (declareLost k e) = getF g j e :=
  getF_of_regs (declareLost_regs ..) g j

@[simp] theorem isLost_declareFound_self (k : Nat) (e : Engine) : isLost (declareFound k e) k = false := by
  simp [isLost, declareFound]

theorem isLost_of_mix {e e' : Engine} (h : e'.mix = e.mix) (k : Nat) : isLost e' k = isLost e k := by rw [isLost, isLost, h]

/-! ### Leaving LOCKED -/

theorem leaveLocked_of_not_locked {e : Engine} {ch : Nat} (h : getF .ROUTE_BRSTAT_STATE ch e ≠ 2) : leaveLocked ch e = e := if_neg h

theorem leaveLocked_unlocks {e : Engine} {ch : Nat} (h : getF .ROUTE_BRSTAT_STATE ch e = 2) :
    getF .ROUTE_BRSTAT_UNLK ch (leaveLocked ch e) = 1 ∧ isLost (leaveLocked ch e) (0x3100 + ch) = true
      ∧ (leaveLocked ch e).mix.sinks = e.mix.sinks := by
  rw [leaveLocked, if_pos h]
  refine ⟨?_, isLost_declareLost_self .., declareLost_sinks ..⟩
  exact (getF_declareLost ..).trans (getF_setF_self .ROUTE_BRSTAT_UNLK ch 1 e)

/-! ### Entering ACQUIRE -/

@[simp] theorem enterAcquire_mix (ch : Nat) (e : Engine) : (enterAcquire ch e).mix = e.mix := by
  unfold enterAcquire; dsimp only; split <;> rfl
@[simp] theorem enterAcquire_mem (ch : Nat) (e : Engine) : (enterAcquire ch e).mem = e.mem := by
  unfold enterAcquire; dsimp only; split <;> rfl

theorem getF_enterAcquire_state (ch : Nat) (e : Engine) : getF .ROUTE_BRSTAT_STATE ch (enterAcquire ch e) = 1 := by
  unfold enterAcquire
  dsimp only
  split
  · exact (getF_setF_of_ne (by decide) ..).trans (getF_setF_self ..)
  · exact getF_setF_self ..

theorem getF_enterAcquire_unlk (ch : Nat) (e : Engine) :
    getF .ROUTE_BRSTAT_UNLK ch (enterAcquire ch e) = getF .ROUTE_BRSTAT_UNLK ch e := by
  unfold enterAcquire
  dsimp only
  split
  · exact (getF_setF_of_ne (by decide) ..).trans (getF_setF_of_ne (by decide) ..)
  · exact getF_setF_of_ne (by decide) ..

/-! ### Entering LOCKED -/

theorem enterLocked_locks (ch r : Nat) (e : Engine) :
    getF .ROUTE_BRSTAT_STATE ch (enterLocked ch r e) = 2 ∧ isLost (enterLocked ch r e) (0x3100 + ch) = false
      ∧ (enterLocked ch r e).mem = e.mem := by
  refine ⟨?_, isLost_declareFound_self .., rfl⟩
  -- the fields written after the state are the octave stage, the ratio and the delay
  refine (getF_setF_of_ne (f := .ROUTE_BRSTAT_DLYOFS) (by decide) ..).trans ?_
  refine (getF_setF_of_ne (f := .ROUTE_BRSTAT_RATIO) (by decide) ..).trans ?_
  exact (getF_setF_of_ne (f := .ROUTE_BRSTAT_OCT) (by decide) ..).trans (getF_setF_self ..)

/-! ### The frame boundary -/

/-- The channel as the change that waits finds it: one that was off has entered ACQUIRE. -/
def acquiring (ch : Nat) (e : Engine) : Engine := if getF .ROUTE_BRSTAT_STATE ch e = 0 then enterAcquire ch e else e

theorem acquiring_of_on {e : Engine} {ch : Nat} (h : getF .ROUTE_BRSTAT_STATE ch e ≠ 0) : acquiring ch e = e := if_neg h

@[simp] theorem acquiring_mem (ch : Nat) (e : Engine) : (acquiring ch e).mem = e.mem := by
  unfold acquiring; split <;> simp only [enterAcquire_mem]

theorem acquiring_not_locked {e : Engine} {ch : Nat} (h : getF .ROUTE_BRSTAT_STATE ch e ≠ 2) :
    getF .ROUTE_BRSTAT_STATE ch (acquiring ch e) ≠ 2 := by
  unfold acquiring
  split
  · rw [getF_enterAcquire_state]; decide
  · exact h

theorem isAsrc_iff (e : Engine) (ch : Nat) :
    isAsrc e ch = true ↔ isF .ROUTE_BRCFG_EN ch e = true ∧ (getF .ROUTE_BRCFG_KIND ch e = 5 ∨ getF .ROUTE_BRCFG_KIND ch e = 6) := by
  simp [isAsrc]

section
variable {e : Engine} {ch r : Nat} (ha : isAsrc e ch = true)
include ha

/-- At the boundary an ASRC channel takes the change that waits, by its number. -/
theorem channelTick_of_due :
    (tget (0, 0) e.mix.asrcDue ch = (2, r) → channelTick e ch
        = if getF .ROUTE_BRSTAT_STATE ch (acquiring ch e) = 2 then enterAcquire ch (leaveLocked ch (acquiring ch e)) else acquiring ch e)
      ∧ (tget (0, 0) e.mix.asrcDue ch = (3, r) → channelTick e ch
        = if getF .ROUTE_BRSTAT_STATE ch (acquiring ch e) = 2 then acquiring ch e else enterLocked ch r (acquiring ch e))
      ∧ (tget (0, 0) e.mix.asrcDue ch = (4, r) → channelTick e ch = setF .ROUTE_BRSTAT_STATE ch 3 (leaveLocked ch (acquiring ch e))) := by
  obtain ⟨hen, hkind⟩ := (isAsrc_iff e ch).1 ha
  have hused : ¬ ((!isF .ROUTE_BRCFG_EN ch e) = true ∨ getF .ROUTE_BRCFG_KIND ch e = 0 ∨ 6 < getF .ROUTE_BRCFG_KIND ch e) := by
    rw [hen]; simp only [Bool.not_true, Bool.false_eq_true, false_or]; omega
  have hfixed : ¬ getF .ROUTE_BRCFG_KIND ch e < 5 := by omega
  simp only [channelTick, if_neg hused, if_neg hfixed]
  refine ⟨fun hd => ?_, fun hd => ?_, fun hd => ?_⟩ <;> rw [hd] <;> rfl

theorem channelTick_locks (hst : getF .ROUTE_BRSTAT_STATE ch e ≠ 2) (hd : tget (0, 0) e.mix.asrcDue ch = (3, r)) :
    getF .ROUTE_BRSTAT_STATE ch (channelTick e ch) = 2 ∧ isLost (channelTick e ch) (0x3100 + ch) = false
      ∧ (channelTick e ch).mem = e.mem := by
  obtain ⟨-, hlock, -⟩ := channelTick_of_due (r := r) ha
  rw [hlock hd, if_neg (acquiring_not_locked hst)]
  simpa only [acquiring_mem] using enterLocked_locks ch r (acquiring ch e)

theorem channelTick_unlocks (hst : getF .ROUTE_BRSTAT_STATE ch e = 2) (hd : tget (0, 0) e.mix.asrcDue ch = (2, r)) :
    getF .ROUTE_BRSTAT_STATE ch (channelTick e ch) = 1 ∧ getF .ROUTE_BRSTAT_UNLK ch (channelTick e ch) = 1
      ∧ isLost (channelTick e ch) (0x3100 + ch) = true ∧ (channelTick e ch).mix.sinks = e.mix.sinks := by
  obtain ⟨hunlock, -, -⟩ := channelTick_of_due (r := r) ha
  obtain ⟨hunlk, hlost, hsinks⟩ := leaveLocked_unlocks hst
  rw [hunlock hd, acquiring_of_on (by omega), if_pos hst, getF_enterAcquire_state, getF_enterAcquire_unlk,
    isLost_of_mix (enterAcquire_mix ..), enterAcquire_mix]
  exact ⟨rfl, hunlk, hlost, hsinks⟩

theorem channelTick_leaves_range (hd : tget (0, 0) e.mix.asrcDue ch = (4, r)) :
    getF .ROUTE_BRSTAT_STATE ch (channelTick e ch) = 3
      ∧ (getF .ROUTE_BRSTAT_STATE ch e = 2 → isLost (channelTick e ch) (0x3100 + ch) = true) := by
  obtain ⟨-, -, hrange⟩ := channelTick_of_due (r := r) ha
  rw [hrange hd]
  refine ⟨getF_setF_self .., fun hst => ?_⟩
  obtain ⟨-, hlost, -⟩ := leaveLocked_unlocks hst
  rw [acquiring_of_on (by omega), isLost_of_mix (setF_mix ..), hlost]

end

/-! ### The commands: the change waits -/

theorem asrcChange_waits (ch st r : Nat) (e : Engine) :
    tget (0, 0) (asrcChange ch st r e).mix.asrcDue ch = (st + 1, r)
      ∧ asrcChange ch st r e = { e with mix := { e.mix with asrcDue := (asrcChange ch st r e).mix.asrcDue } } :=
  ⟨by simp only [asrcChange, tget_tput_self], rfl⟩

/-- A command of an ASRC channel whose conditions hold leaves its change waiting for the boundary. -/
theorem completes_of_asrcChange {c : Instr} {s : State} {m : String} {eff : Engine → Engine} {ch st r : Nat}
    (hexec : exec c s = runLive m c.wf eff s) (hwf : c.wf = true) (hl : s.e.held = 0) (heff : eff s.e = asrcChange ch st r s.e) :
    completes c s fun e => tget (0, 0) e.mix.asrcDue ch = (st + 1, r) ∧ e = { s.e with mix := { s.e.mix with asrcDue := e.mix.asrcDue } } := by
  refine completes_of_live hexec hwf hl ?_
  rw [heff]
  exact asrcChange_waits ch st r s.e

end Sys2Proof.Machine
end

section
open Sys2Proof Sys2Proof.Machine

/-- Settles O34: each command leaves its change of state waiting in the channel's entry, and at the boundary the channel enters LOCKED, or
leaves it for ACQUIRE or RANGE, by the entry that waits. -/
theorem asrcChannelsLock : Obligations.AsrcChannelsLock := by
  refine ⟨fun s ch r hch hl ha => ⟨fun hst hr => ?_, fun hst => ?_, fun hr => ?_⟩, fun e ch r _ ha => ?_⟩
  · exact completes_of_asrcChange (exec_asrcLock ..) (by simpa using hch) hl (if_pos ⟨ha, hst, hr⟩)
  · exact completes_of_asrcChange (exec_asrcUnlock ..) (by simpa using hch) hl (if_pos ⟨ha, hst⟩)
  · exact completes_of_asrcChange (exec_asrcRange ..) (by simpa using hch) hl (if_pos ⟨ha, by simpa using hr⟩)
  · exact ⟨channelTick_locks ha, channelTick_unlocks ha, channelTick_leaves_range ha⟩

end

section
/-! PROOFS. Gain points (R224, R225): what the sample positions up to a command's leave of a point, and what each end of a state writes. -/
namespace Sys2Proof.Machine

/-! ### A point carried on to a sample position (Table 7.5) -/

/-- A sample position moves the gain, the position and the trajectory of a point, and nothing else. -/
theorem gpStep_eq (r : Nat) (p : Gp) :
    gpStep r p = { p with g := (gpStep r p).g, pos := (gpStep r p).pos, traj := (gpStep r p).traj } := by
  unfold gpStep
  cases h : p.st <;> rfl

theorem gpRun_eq (r n : Nat) (p : Gp) :
    gpRun r n p = { p with g := (gpRun r n p).g, pos := (gpRun r n p).pos, traj := (gpRun r n p).traj } := by
  induction n generalizing p with
  | zero => rfl
  | succ n ih => rw [gpRun, ih, gpStep_eq]

/-- Only a ramp moves the gain. -/
theorem gpRun_g {p : Gp} (h : p.st ≠ .ramp) (r n : Nat) : (gpRun r n p).g = p.g := by
  induction n generalizing p with
  | zero => rfl
  | succ n ih =>
    have hst : (gpStep r p).st = p.st := by rw [gpStep_eq]
    have hg : (gpStep r p).g = p.g := by
      unfold gpStep
      cases hp : p.st with
      | ramp => exact absurd hp h
      | steady => rfl
      | zcwait => rfl
    rw [gpRun, ih (hst ▸ h), hg]

@[simp] theorem gpTo_t (e : Engine) (i n : Nat) : (gpTo e i n).t = (getGp e i).t := by rw [gpTo, gpRun_eq]
@[simp] theorem gpTo_next (e : Engine) (i n : Nat) : (gpTo e i n).next = (getGp e i).next := by rw [gpTo, gpRun_eq]

/-! ### What is refreshed at the end of a state -/

@[simp] theorem refreshPend_mix (e : Engine) : (refreshPend e).mix = e.mix := by simp only [refreshPend, maxF_mix, setF_mix]
@[simp] theorem refreshPend_mem (e : Engine) : (refreshPend e).mem = e.mem := by simp only [refreshPend, maxF_mem, setF_mem]

/-- The effects that end post events, which leave the mixing state. -/
@[simp] theorem settleEffects_mix (e : Engine) : (settleEffects e).mix = e.mix := by
  refine List.foldlRecOn (motive := fun b : Engine => b.mix = e.mix) _ _ rfl fun b hb x _ => ?_
  split
  · rw [postEvent_mix, hb]
  · exact hb

theorem getGp_of_mix {e e' : Engine} (h : e'.mix = e.mix) (i : Nat) : getGp e' i = getGp e i := by rw [getGp, getGp, h]

theorem getGp_settled_self (i : Nat) (p : Gp) (e : Engine) : getGp (settleEffects (refreshPend (setGp i p e))) i = p := by
  rw [getGp_of_mix (settleEffects_mix _), getGp_of_mix (refreshPend_mix _), getGp_setGp_self]

theorem getGp_settled_ne {i j : Nat} (h : j ≠ i) (p : Gp) (e : Engine) :
    getGp (settleEffects (refreshPend (setGp i p e))) j = getGp e j := by
  rw [getGp_of_mix (settleEffects_mix _), getGp_of_mix (refreshPend_mix _), getGp_setGp_ne _ _ h.symm]

/-! ### The commands -/

theorem completes.mono {c : Instr} {s : State} {P Q : Engine → Prop} (h : completes c s P) (hpq : ∀ e, P e → Q e) : completes c s Q := by
  obtain ⟨t, hx, hq, hp⟩ := h
  exact ⟨t, hx, hq, hpq _ hp⟩

/-- A point at the end of its ramp (R224): it waits for a held target that differs, else it is STEADY. -/
def rampEnded (p : Gp) : Gp :=
  match p.next with
  | some n => if n ≠ p.t then { p with st := .zcwait, t := n, next := none, pos := 0 } else { p with st := .steady, next := none, pos := 0 }
  | none => { p with st := .steady, pos := 0 }

theorem rampEnded_of_none {p : Gp} (h : p.next = none) : (rampEnded p).st = .steady ∧ (rampEnded p).t = p.t := by
  simp only [rampEnded, h, and_self]

theorem rampEnded_of_held {p : Gp} {n : Nat} (h : p.next = some n) (hn : n ≠ p.t) :
    (rampEnded p).st = .zcwait ∧ (rampEnded p).t = n ∧ (rampEnded p).next = none := by
  simp only [rampEnded, h, if_pos hn, and_self]

section
variable {s : State} {i k : Nat} (hi : i < 0x110000) (hl : s.e.held = 0)
include hi hl

theorem gainZeroCrossingStep_steps (hst : (getGp s.e i).st = .zcwait) (hk : (getGp s.e i).traj.length ≤ k) (hc : gpCrosses s.e i k = true) :
    completes (.gainZeroCrossingStep i k) s fun e =>
      (getGp e i).st = .steady ∧ (getGp e i).g = (getGp s.e i).t ∧ (getGp e i).t = (getGp s.e i).t
        ∧ ∀ j, j ≠ i → getGp e j = getGp s.e j := by
  refine completes_of_live (exec_gainZeroCrossingStep ..) (by simpa using hi) hl ?_
  rw [effGainZeroCrossingStep, if_pos ⟨hst, hk, hc⟩, getGp_settled_self]
  exact ⟨rfl, gpTo_t .., gpTo_t .., fun j hj => getGp_settled_ne hj _ _⟩

theorem gainTimeout_ramps (hst : (getGp s.e i).st = .zcwait) (hk : (getGp s.e i).traj.length ≤ k)
    (ht : firstAt (gpTimeout s.e i) (gpTo s.e i k).pos ((getGp s.e i).traj.length == k) = true) :
    completes (.gainTimeout i k) s fun e =>
      (getGp e i).st = .ramp ∧ (getGp e i).g0 = (getGp s.e i).g ∧ (getGp e i).t = (getGp s.e i).t ∧ (getGp e i).pos = 0
        ∧ e.mem = s.e.mem ∧ ∀ j, j ≠ i → getGp e j = getGp s.e j := by
  refine completes_of_live (exec_gainTimeout ..) (by simpa using hi) hl ?_
  rw [effGainTimeout, if_pos ⟨hst, hk, ht⟩, bumpF, getGp_setF, getGp_setGp_self]
  refine ⟨rfl, gpRun_g (by rw [hst]; decide) .., gpTo_t .., rfl, rfl, fun j hj => ?_⟩
  rw [getGp_setF, getGp_setGp_ne _ _ hj.symm]

theorem rampEnd_ends (hst : (getGp s.e i).st = .ramp) (hr : gpRamp s.e i ≤ (gpTo s.e i (k + 1)).pos) :
    completes (.rampEnd i k) s fun e => getGp e i = rampEnded (gpTo s.e i (k + 1)) ∧ ∀ j, j ≠ i → getGp e j = getGp s.e j := by
  refine completes_of_live (exec_rampEnd ..) (by simpa using hi) hl ?_
  rw [effRampEnd, if_pos ⟨hst, hr⟩]
  exact ⟨getGp_settled_self .., fun j hj => getGp_settled_ne hj _ _⟩

end

end Sys2Proof.Machine
end

section
open Sys2Proof Sys2Proof.Machine

/-- Settles O35: the sample positions up to the command's leave the point's targets, and its gain while it waits; the end of its state then
writes this point alone. -/
theorem gainPointsStep : Obligations.GainPointsStep := by
  intro s i k hi hl
  refine ⟨gainZeroCrossingStep_steps hi hl, gainTimeout_ramps hi hl, fun hst hr _ => (rampEnd_ends hi hl hst hr).mono ?_⟩
  rintro e ⟨hself, hothers⟩
  rw [hself]
  refine ⟨fun hn => ?_, fun n hn hne => rampEnded_of_held (by rw [gpTo_next, hn]) (by rwa [gpTo_t]), hothers⟩
  simpa only [gpTo_t] using rampEnded_of_none (p := gpTo s.e i (k + 1)) (by rw [gpTo_next, hn])

end

section
/-! PROOFS. Metering (R229) and loudness (R232, R235): the block that ended and its buffer, a meter's 100 ms step, and the reset bits. -/
namespace Sys2Proof.Machine

/-! ### Tables that change entry by entry -/

/-- A map that keeps each key, and the default, maps what the table answers. -/
theorem tget_map {α : Type} {d : α} {f : Nat × α → Nat × α} {h : Nat → α → α} (hf : ∀ p, f p = (p.1, h p.1 p.2)) (t : Table α) (i : Nat)
    (hd : h i d = d) : tget d (t.map f) i = h i (tget d t i) := by
  induction t with
  | nil => exact hd.symm
  | cons p t ih =>
    rw [List.map_cons, hf, tget, tget]
    split
    · next hp => rw [← hp]
    · exact ih

/-! ### The meter block (R229) -/

@[simp] theorem storeMeterBlock_mix (b : List Byte) (e : Engine) : (storeMeterBlock b e).mix = e.mix := by
  unfold storeMeterBlock
  split
  · rfl
  · split
    · exact writeBytes_mix ..
    · rfl

@[simp] theorem getF_storeMeterBlock_seq (b : List Byte) (e : Engine) :
    getF .SUM_METER_SEQ_SEQ 0 (storeMeterBlock b e) = getF .SUM_METER_SEQ_SEQ 0 e := by
  unfold storeMeterBlock
  split
  · rfl
  · split
    · exact getF_writeBytes ..
    · exact getF_setF_of_ne (by decide) ..

/-- With the link up, a block whose buffer lies in the host's window is stored there. -/
theorem storeMeterBlock_of_host {b : List Byte} {e : Engine} {a : Nat} (hlink : e.host.linkOff = false)
    (ha : hostAt e (if e.mix.meterToB then e.mix.meterB else e.mix.meterA) b.length = some a) :
    storeMeterBlock b e = writeBytes a b e := by
  simp only [storeMeterBlock, hlink, Bool.false_eq_true, if_false, ha]

@[simp] theorem postMeterBlock_mix (e : Engine) : (postMeterBlock e).mix = e.mix := by
  unfold postMeterBlock
  cases hev : e.mix.meterEv with
  | false => simp only [Bool.false_eq_true, if_false]; split <;> rfl
  | true => simp only [if_true]; split <;> simp only [fireMsi_mix, postEvent_mix]

@[simp] theorem getF_postMeterBlock_seq (e : Engine) : getF .SUM_METER_SEQ_SEQ 0 (postMeterBlock e) = getF .SUM_METER_SEQ_SEQ 0 e := by
  unfold postMeterBlock
  cases hev : e.mix.meterEv with
  | false => simp only [Bool.false_eq_true, if_false]; split <;> rfl
  | true => simp only [if_true]; split <;> simp only [fireMsi_getF, getF_postEvent (g := .SUM_METER_SEQ_SEQ) (by decide)]

/-- Without its event, a block leaves memory as the store left it. -/
theorem postMeterBlock_mem {e : Engine} (hev : e.mix.meterEv = false) : (postMeterBlock e).mem = e.mem := by
  unfold postMeterBlock
  simp only [hev, Bool.false_eq_true, if_false]
  split <;> rfl

theorem effMeterBlockWrite_of_due {e : Engine} {b : List Byte} (h : e.mix.meterDue = some b) :
    (effMeterBlockWrite e).mix = { e.mix with meterToB := !e.mix.meterToB, meterDue := none }
      ∧ (effMeterBlockWrite e).mem = (postMeterBlock (storeMeterBlock b e)).mem
      ∧ getF .SUM_METER_SEQ_SEQ 0 (effMeterBlockWrite e) = (getF .SUM_METER_SEQ_SEQ 0 e + 1) % 2 ^ 32 := by
  unfold effMeterBlockWrite
  simp only [h]
  refine ⟨by simp only [wrapF_mix, postMeterBlock_mix, storeMeterBlock_mix], rfl, ?_⟩
  have hseq : getF .SUM_METER_SEQ_SEQ 0 (postMeterBlock (storeMeterBlock b e)) = getF .SUM_METER_SEQ_SEQ 0 e := by
    rw [getF_postMeterBlock_seq, getF_storeMeterBlock_seq]
  rw [wrapF, getF_setF_self, ← hseq]
  rfl

theorem meterBlockWrite_writes {s : State} {b : List Byte} (hl : s.e.held = 0) (hdue : s.e.mix.meterDue = some b) :
    completes .meterBlockWrite s fun e =>
      e.mix.meterDue = none ∧ e.mix.meterToB = !s.e.mix.meterToB
        ∧ getF .SUM_METER_SEQ_SEQ 0 e = (getF .SUM_METER_SEQ_SEQ 0 s.e + 1) % 2 ^ 32
        ∧ (s.e.mix.meterEv = false → s.e.host.linkOff = false →
            ∀ a, hostAt s.e (if s.e.mix.meterToB then s.e.mix.meterB else s.e.mix.meterA) b.length = some a →
              readBytes e a b.length = b ∧ ∀ x, x < a ∨ a + b.length ≤ x → readByte e x = readByte s.e x) := by
  refine completes_of_live (exec_meterBlockWrite ..) rfl hl ?_
  obtain ⟨hmix, hmem, hseq⟩ := effMeterBlockWrite_of_due hdue
  refine ⟨by rw [hmix], by rw [hmix], hseq, fun hev hlink a ha => ?_⟩
  have hstored : (effMeterBlockWrite s.e).mem = (writeBytes a b s.e).mem := by
    rw [hmem, storeMeterBlock_of_host hlink ha, postMeterBlock_mem (by rw [writeBytes_mix, hev])]
  refine ⟨(readBytes_of_mem hstored ..).trans (readBytes_writeBytes_self ..), fun x hx => ?_⟩
  exact (readByte_of_mem hstored x).trans (readByte_writeBytes_of_outside a x b s.e hx)

/-! ### The step of a loudness meter (R232) -/

@[simp] theorem loudTick_steps (running : Bool) (l : Loud) : (loudTick running l).steps = (l.stepPower :: l.steps).take 30 := by
  unfold loudTick
  cases running <;> cases l.reset <;> rfl

@[simp] theorem loudTick_reset (running : Bool) (l : Loud) : (loudTick running l).reset = false := by
  unfold loudTick
  cases running <;> cases h : l.reset <;> simp [h]

/-- A reset that waits clears the true-peak maximum and is shown. -/
theorem loudTick_of_reset {running : Bool} {l : Loud} (h : l.reset = true) :
    (loudTick running l).wasReset = true ∧ (loudTick running l).tpMax = 0 := by
  unfold loudTick
  cases running <;> simp [h]

theorem loudTick_tpMax {running : Bool} {l : Loud} (h : l.reset = false) : (loudTick running l).tpMax = l.tpMax := by
  unfold loudTick
  cases running <;> simp [h]

/-- A meter that does not run holds its histogram and its running time. -/
theorem loudTick_of_stopped {l : Loud} (h : l.reset = false) :
    (loudTick false l).hist = l.hist ∧ (loudTick false l).secs = l.secs := by
  unfold loudTick
  simp [h]

theorem supUp_of_state {e : Engine} (h : getF .SYS_SUP_STAT_STATE 0 e = 1) : supUp e = true := by rw [supUp, h]; rfl

/-- While the supervisor runs, a step changes the loudness meters whose step ends and nothing else. -/
theorem effLoudnessStep_eq (ms : List Nat) {e : Engine} (h : supUp e = true) :
    effLoudnessStep ms e = { e with mix := { e.mix with louds := (effLoudnessStep ms e).mix.louds } } := by
  unfold effLoudnessStep
  rw [h]
  rfl

theorem tget_louds_effLoudnessStep (ms : List Nat) {e : Engine} (h : supUp e = true) (m : Nat) :
    tget none (effLoudnessStep ms e).mix.louds m =
      if m ∈ ms then (tget none e.mix.louds m).map (loudTick (bitF .SUM_LOUD_RUN_RUN (m / 32) (m % 32) e))
      else tget none e.mix.louds m := by
  unfold effLoudnessStep
  rw [h]
  refine tget_map (h := fun m (l : Option Loud) =>
    if m ∈ ms then l.map (loudTick (bitF .SUM_LOUD_RUN_RUN (m / 32) (m % 32) e)) else l) (fun p => ?_) _ _ (by split <;> rfl)
  by_cases hp : p.1 ∈ ms <;> simp [hp]

section
variable {s : State} {ms : List Nat} {m : Nat} {l : Loud} (hms : ∀ x ∈ ms, x < 64) (hl : s.e.held = 0)
  (hsup : getF .SYS_SUP_STAT_STATE 0 s.e = 1) (hm : tget none s.e.mix.louds m = some l)
include hms hl hsup hm

theorem loudnessStep_skips (hout : m ∉ ms) :
    completes (.loudnessStep ms) s fun e =>
      e = { s.e with mix := { s.e.mix with louds := e.mix.louds } } ∧ tget none e.mix.louds m = some l := by
  refine completes_of_live (exec_loudnessStep ..) (by simpa using hms) hl ⟨effLoudnessStep_eq ms (supUp_of_state hsup), ?_⟩
  rw [tget_louds_effLoudnessStep ms (supUp_of_state hsup), if_neg hout, hm]

theorem loudnessStep_enters (hin : m ∈ ms) :
    completes (.loudnessStep ms) s fun e =>
      e = { s.e with mix := { s.e.mix with louds := e.mix.louds } }
        ∧ tget none e.mix.louds m = some (loudTick (bitF .SUM_LOUD_RUN_RUN (m / 32) (m % 32) s.e) l) := by
  refine completes_of_live (exec_loudnessStep ..) (by simpa using hms) hl ⟨effLoudnessStep_eq ms (supUp_of_state hsup), ?_⟩
  rw [tget_louds_effLoudnessStep ms (supUp_of_state hsup), if_pos hin, hm, Option.map_some]

end

/-! ### The reset bits (R235) -/

/-- The meter with a reset that waits. -/
def Loud.marked (l : Loud) : Loud := { l with reset := true }

/-- Bit `j` of a write to `SUM_LOUD_RESETk`. -/
def markReset (k val : Nat) (e : Engine) (j : Nat) : Engine :=
  if val / 2 ^ j % 2 = 1 then
    match tget none e.mix.louds (32 * k + j) with
    | some l => { e with mix := { e.mix with louds := tput none e.mix.louds (32 * k + j) (some l.marked) } }
    | none => e
  else e

theorem effLoudResetWrite_eq_foldl (k val : Nat) (e : Engine) : effLoudResetWrite k val e = (List.range 32).foldl (markReset k val) e := rfl

theorem markReset_eq (k val j : Nat) (e : Engine) :
    markReset k val e j = { e with mix := { e.mix with louds := (markReset k val e j).mix.louds } } := by
  unfold markReset
  split
  · split <;> rfl
  · rfl

theorem foldl_markReset_frame (k val : Nat) (js : List Nat) (e : Engine) :
    (js.foldl (markReset k val) e).regs = e.regs ∧ (js.foldl (markReset k val) e).mem = e.mem := by
  refine List.foldlRecOn (motive := fun b : Engine => b.regs = e.regs ∧ b.mem = e.mem) _ _ ⟨rfl, rfl⟩ fun b hb j _ => ?_
  rw [markReset_eq]
  exact hb

theorem tget_markReset (k val m : Nat) {j : Nat} (hj : j < 32) (e : Engine) :
    tget none (markReset k val e j).mix.louds m =
      if m / 32 = k ∧ m % 32 = j ∧ val / 2 ^ j % 2 = 1 then (tget none e.mix.louds m).map Loud.marked else tget none e.mix.louds m := by
  have hm : m = 32 * k + j ↔ m / 32 = k ∧ m % 32 = j := by omega
  simp only [← and_assoc, ← hm]
  unfold markReset
  by_cases hb : val / 2 ^ j % 2 = 1
  · by_cases hm : m = 32 * k + j
    · subst hm
      cases h : tget none e.mix.louds (32 * k + j) <;> simp [hb, h]
    · cases h : tget none e.mix.louds (32 * k + j) <;> simp [hb, hm, tget_tput_ne _ _ _ (Ne.symm hm)]
  · simp [hb]

/-- The bits of a list, in whatever order, mark their meters; a meter marked twice is marked. -/
theorem tget_foldl_markReset (k val m : Nat) {js : List Nat} (hjs : ∀ j ∈ js, j < 32) (e : Engine) :
    tget none (js.foldl (markReset k val) e).mix.louds m =
      if m / 32 = k ∧ m % 32 ∈ js ∧ val / 2 ^ (m % 32) % 2 = 1 then (tget none e.mix.louds m).map Loud.marked
      else tget none e.mix.louds m := by
  induction js generalizing e with
  | nil => simp
  | cons j js ih =>
    obtain ⟨hj, hjs⟩ := List.forall_mem_cons.1 hjs
    have htwice : Loud.marked ∘ Loud.marked = Loud.marked := rfl
    rw [List.foldl_cons, ih hjs, tget_markReset k val m hj]
    by_cases hmj : m % 32 = j
    · subst hmj
      by_cases hk : m / 32 = k <;> by_cases hb : val / 2 ^ (m % 32) % 2 = 1 <;> simp [hk, hb, htwice]
    · simp [hmj]

theorem loudResetWrite_marks {s : State} {k val m : Nat} {l : Loud} (hk : k < 2) (hv : val < 2 ^ 32) (hl : s.e.held = 0)
    (hm : tget none s.e.mix.louds m = some l) :
    completes (.loudResetWrite k val) s fun e =>
      e.regs = s.e.regs ∧ e.mem = s.e.mem
        ∧ tget none e.mix.louds m = some (if m / 32 = k ∧ val / 2 ^ (m % 32) % 2 = 1 then l.marked else l) := by
  refine completes_of_live (exec_loudResetWrite ..) (by simpa [isWord, hk] using hv) hl ?_
  rw [effLoudResetWrite_eq_foldl]
  obtain ⟨hregs, hmem⟩ := foldl_markReset_frame k val (List.range 32) s.e
  refine ⟨hregs, hmem, ?_⟩
  rw [tget_foldl_markReset k val m (fun j => List.mem_range.1), hm]
  have hrange : m % 32 ∈ List.range 32 := List.mem_range.2 (Nat.mod_lt m (by decide))
  simp only [hrange, true_and]
  split <;> rfl

end Sys2Proof.Machine
end

section
open Sys2Proof Sys2Proof.Machine

/-- Settles O36: the block goes to the buffer that is next, and its event alone reaches more of memory; a step maps the entries of the meters
named; a reset bit marks its meter's entry. -/
theorem metersAdvance : Obligations.MetersAdvance := by
  refine ⟨fun s b hl hdue => meterBlockWrite_writes hl hdue, fun s ms m l hms hl hsup hm => ⟨loudnessStep_skips hms hl hsup hm, fun hin => ?_⟩,
    fun s k val m l hk hv _ hl hm => loudResetWrite_marks hk hv hl hm⟩
  refine (loudnessStep_enters hms hl hsup hm hin).mono fun e ⟨he, hm'⟩ => ⟨he, _, hm', loudTick_steps .., loudTick_reset .., ?_⟩
  refine ⟨loudTick_of_reset, loudTick_tpMax, fun hrun hr => ?_⟩
  rw [hrun]
  exact loudTick_of_stopped hr

end

section
/-! PROOFS. Bits of a field, and what a table in canonical form lists. -/
namespace Sys2Proof.Machine

/-! ### One bit of a field -/

/-- Bit `b`, between the bits above it and those below it. -/
theorem setBit_eq (v b : Nat) (on : Bool) : setBit v b on = 2 ^ b * (2 * (v / 2 ^ b / 2) + on.toNat) + v % 2 ^ b := by
  have hv := Nat.div_add_mod v (2 ^ b)
  have hq := Nat.div_add_mod (v / 2 ^ b) 2
  rcases Nat.mod_two_eq_zero_or_one (v / 2 ^ b) with hbit | hbit
  · have hstands : 2 ^ b * (2 * (v / 2 ^ b / 2)) + v % 2 ^ b = v := by rwa [← Nat.add_zero (2 * _), ← hbit, hq]
    cases on <;> simp only [setBit, hbit, Nat.mul_add, Bool.toNat_false, Bool.toNat_true, Nat.reduceBEq, if_true, if_false,
      Bool.false_eq_true] <;> omega
  · have hstands : 2 ^ b * (2 * (v / 2 ^ b / 2) + 1) + v % 2 ^ b = v := by rwa [← hbit, hq]
    rw [Nat.mul_add] at hstands
    cases on <;> simp only [setBit, hbit, Nat.mul_add, Bool.toNat_false, Bool.toNat_true, BEq.rfl, if_true, if_false,
      Bool.false_eq_true] <;> omega

theorem testBit_setBit (v b c : Nat) (on : Bool) : (setBit v b on).testBit c = if b = c then on else v.testBit c := by
  rw [setBit_eq, Nat.testBit_two_pow_mul_add _ (Nat.mod_lt _ (Nat.two_pow_pos b))]
  rcases Nat.lt_trichotomy c b with h | rfl | h
  · rw [if_pos h, if_neg (by omega), Nat.testBit_mod_two_pow, decide_eq_true h, Bool.true_and]
  · have hodd : ∀ n, decide ((2 * n + on.toNat) % 2 = 1) = on := fun n => by cases on <;> simp
    rw [if_neg (by omega), if_pos rfl, Nat.sub_self, Nat.testBit_zero, hodd]
  · obtain ⟨d, rfl⟩ := Nat.exists_eq_add_of_lt h
    have hd : b + d + 1 - b = d + 1 := by omega
    have hs : d + 1 + b = b + d + 1 := by omega
    have hhalf : ∀ n, (2 * n + on.toNat) / 2 = n := fun n => by have := Bool.toNat_lt on; omega
    rw [if_neg (by omega), if_neg (by omega), hd, Nat.testBit_succ, hhalf, Nat.testBit_div_two, Nat.testBit_div_two_pow, hs]

theorem bitF_eq_testBit (f : Fld) (i b : Nat) (e : Engine) : bitF f i b e = (getF f i e).testBit b := by
  rw [Nat.testBit_eq_decide_div_mod_eq, bitF, Bool.beq_eq_decide_eq]

theorem bitF_of_getF {e e' : Engine} {f : Fld} {i : Nat} (h : getF f i e' = getF f i e) (b : Nat) : bitF f i b e' = bitF f i b e := by
  rw [bitF, bitF, h]

/-- A bit of a field reads as it was written, and the others stand. -/
theorem bitF_setBitF (f : Fld) (i b : Nat) {c : Nat} (hc : c < f.width) (on : Bool) (e : Engine) :
    bitF f i c (setBitF f i b on e) = if b = c then on else bitF f i c e := by
  rw [bitF_eq_testBit, bitF_eq_testBit, getF_setBitF, if_pos ⟨rfl, rfl⟩, Nat.testBit_mod_two_pow, decide_eq_true hc, Bool.true_and,
    testBit_setBit]

/-! ### Tables in canonical form -/

section
variable {α : Type} {d : α} {t : Table α}

theorem key_ge_of_tsortedFrom {lo : Nat} (h : tsortedFrom lo t = true) {p : Nat × α} (hp : p ∈ t) : lo ≤ p.1 := by
  induction t generalizing lo with
  | nil => cases hp
  | cons q t ih =>
    simp only [tsortedFrom, Bool.and_eq_true, decide_eq_true_eq] at h
    rcases List.mem_cons.1 hp with rfl | hp
    · exact h.1
    · exact Nat.le_of_succ_le (ih (tsortedFrom_mono (Nat.succ_le_succ h.1) h.2) hp)

theorem pairwise_of_tsortedFrom {lo : Nat} (h : tsortedFrom lo t = true) : t.Pairwise fun p q => p.1 < q.1 := by
  induction t generalizing lo with
  | nil => exact .nil
  | cons q t ih =>
    simp only [tsortedFrom, Bool.and_eq_true, decide_eq_true_eq] at h
    exact .cons (fun p hp => key_ge_of_tsortedFrom h.2 hp) (ih h.2)

theorem pairwise_of_twf [DecidableEq α] (h : twf d t = true) : t.Pairwise fun p q => p.1 < q.1 :=
  pairwise_of_tsortedFrom (Bool.and_eq_true_iff.1 h).1

/-- In a table with rising keys each entry listed is the one that is read. -/
theorem tget_of_mem (h : t.Pairwise fun p q => p.1 < q.1) {p : Nat × α} (hp : p ∈ t) : tget d t p.1 = p.2 := by
  induction t with
  | nil => cases hp
  | cons q t ih =>
    obtain ⟨hq, ht⟩ := List.pairwise_cons.1 h
    rcases List.mem_cons.1 hp with rfl | hp
    · exact if_pos rfl
    · exact (if_neg (Nat.ne_of_lt (hq p hp))).trans (ih ht hp)

theorem mem_of_tget {i : Nat} {v : α} (h : tget d t i = v) (hv : v ≠ d) : (i, v) ∈ t := by
  induction t with
  | nil => exact absurd h.symm hv
  | cons q t ih =>
    rw [tget] at h
    split at h
    · next hq => subst hq h; exact List.mem_cons_self
    · exact List.mem_cons_of_mem _ (ih h)

theorem mem_iff_tget_none {t : Table (Option α)} [DecidableEq α] (h : twf none t = true) (i : Nat) (v : α) :
    (i, some v) ∈ t ↔ tget none t i = some v :=
  ⟨fun hp => tget_of_mem (pairwise_of_twf h) hp, fun hv => mem_of_tget hv (Option.some_ne_none v)⟩

end

end Sys2Proof.Machine
end

section
/-! PROOFS. Automix (R237): a millisecond of a group rewrites that group's members and hold bit, and keeps those of the other groups. -/
namespace Sys2Proof.Machine

/-! ### The members of a group -/

/-- The entry as a member of group `g`. -/
def memberIn (g : Nat) (p : Nat × Option AmMember) : Option (Nat × AmMember) :=
  match p.2 with
  | some m => if m.group = g then some (p.1, m) else none
  | none => none

theorem membersOf_eq_filterMap (e : Engine) (g : Nat) : membersOf e g = e.mix.members.filterMap (memberIn g) := rfl

theorem memberIn_eq_some (g : Nat) (p : Nat × Option AmMember) (q : Nat × AmMember) :
    memberIn g p = some q ↔ p = (q.1, some q.2) ∧ q.2.group = g := by
  obtain ⟨i, v⟩ := p
  obtain ⟨j, m⟩ := q
  cases v with
  | none => simp [memberIn]
  | some m' =>
    simp only [memberIn, Option.ite_none_right_eq_some, Option.some.injEq, Prod.mk.injEq]
    constructor
    · rintro ⟨hg, rfl, rfl⟩
      exact ⟨⟨rfl, rfl⟩, hg⟩
    · rintro ⟨⟨rfl, rfl⟩, hg⟩
      exact ⟨hg, rfl, rfl⟩

theorem mem_membersOf {e : Engine} (h : twf none e.mix.members = true) (g i : Nat) (m : AmMember) :
    (i, m) ∈ membersOf e g ↔ tget none e.mix.members i = some m ∧ m.group = g := by
  rw [membersOf_eq_filterMap, List.mem_filterMap, ← mem_iff_tget_none h]
  simp only [memberIn_eq_some]
  constructor
  · rintro ⟨p, hp, rfl, hg⟩
    exact ⟨hp, hg⟩
  · rintro ⟨hp, hg⟩
    exact ⟨_, hp, rfl, hg⟩

theorem membersOf_pairwise {e : Engine} (h : twf none e.mix.members = true) (g : Nat) :
    (membersOf e g).Pairwise fun p q => p.1 < q.1 := by
  refine (pairwise_of_twf h).filterMap _ fun p p' hlt q hq q' hq' => ?_
  obtain ⟨rfl, -⟩ := (memberIn_eq_some g p q).1 hq
  obtain ⟨rfl, -⟩ := (memberIn_eq_some g p' q').1 hq'
  exact hlt

/-- Two engines with the same members of a group list them alike. -/
theorem membersOf_congr {e e' : Engine} (h : twf none e.mix.members = true) (h' : twf none e'.mix.members = true) {g : Nat}
    (hm : ∀ i m, m.group = g → (tget none e'.mix.members i = some m ↔ tget none e.mix.members i = some m)) :
    membersOf e' g = membersOf e g := by
  have hs := membersOf_pairwise h g
  have hs' := membersOf_pairwise h' g
  have hnodup : ∀ {l : List (Nat × AmMember)}, (l.Pairwise fun p q => p.1 < q.1) → l.Nodup :=
    fun hl => hl.imp fun hlt heq => absurd (congrArg Prod.fst heq) (Nat.ne_of_lt hlt)
  refine ((List.perm_ext_iff_of_nodup (hnodup hs') (hnodup hs)).2 ?_).eq_of_pairwise (fun p q _ _ hpq hqp => absurd hpq (Nat.lt_asymm hqp)) hs' hs
  rintro ⟨i, m⟩
  rw [mem_membersOf h', mem_membersOf h]
  exact and_congr_left (hm i m)

/-! ### One millisecond of a group -/

/-- All members of the group lie below its threshold. -/
def amixQuiet (c : AmGroup) (ms : List (Nat × AmMember)) : Bool := ms.all fun p => decide (p.2.e < powerOf (-(c.thr : Int)))

/-- The sum of E w² over the group. -/
def amixSum (ms : List (Nat × AmMember)) : Nat := ms.foldl (fun n p => n + weighted p.2) 0

/-- The factor that a member takes among the members `ms` of its group. -/
def amixShare (c : AmGroup) (ms : List (Nat × AmMember)) (m : AmMember) : Nat :=
  if amixQuiet c ms then m.a else amixFactor c m (amixSum ms)

/-- A member after the millisecond. -/
def amixNext (c : AmGroup) (ms : List (Nat × AmMember)) (m : AmMember) : AmMember :=
  { m with
    a := amixShare c ms m
    hold := if decide (powerOf (-(c.thr : Int)) ≤ m.e) && decide (dbFactor c.actDb ≤ amixShare c ms m) then 200 else m.hold - 1 }

/-- A member's entry is written. -/
def putMember (c : AmGroup) (ms : List (Nat × AmMember)) (e : Engine) (p : Nat × AmMember) : Engine :=
  { e with mix := { e.mix with members := tput none e.mix.members p.1 (some (amixNext c ms p.2)), gpDirty := p.2.gp :: e.mix.gpDirty } }

theorem putMember_members (c : AmGroup) (ms : List (Nat × AmMember)) (e : Engine) (p : Nat × AmMember) :
    (putMember c ms e p).mix.members = tput none e.mix.members p.1 (some (amixNext c ms p.2)) := rfl

theorem amixGroup_eq_foldl (e : Engine) (g : Nat) (c : AmGroup) :
    amixGroup e g c = (membersOf e g).foldl (putMember c (membersOf e g))
      (setBitF .SUM_AMIX_HOLD_HOLD 0 g (amixQuiet c (membersOf e g)) e) := rfl

section
variable (c : AmGroup) (ms : List (Nat × AmMember))

theorem foldl_putMember_frame (l : List (Nat × AmMember)) (e : Engine) :
    (l.foldl (putMember c ms) e).regs = e.regs
      ∧ (twf none e.mix.members = true → twf none (l.foldl (putMember c ms) e).mix.members = true) :=
  List.foldlRecOn (motive := fun b : Engine => b.regs = e.regs ∧ (twf none e.mix.members = true → twf none b.mix.members = true))
    _ _ ⟨rfl, id⟩ fun b hb p _ => ⟨hb.1, fun h => putMember_members c ms b p ▸ twf_tput _ _ (hb.2 h)⟩

theorem tget_foldl_putMember_of_ne {l : List (Nat × AmMember)} {i : Nat} (h : ∀ p ∈ l, p.1 ≠ i) (e : Engine) :
    tget none (l.foldl (putMember c ms) e).mix.members i = tget none e.mix.members i := by
  refine List.foldlRecOn (motive := fun b : Engine => tget none b.mix.members i = tget none e.mix.members i) _ _ rfl fun b hb p hp => ?_
  rw [putMember_members, tget_tput_ne _ _ _ (h p hp), hb]

theorem tget_foldl_putMember_of_mem {l : List (Nat × AmMember)} (hl : l.Pairwise fun p q => p.1 < q.1) {p : Nat × AmMember} (hp : p ∈ l)
    (e : Engine) : tget none (l.foldl (putMember c ms) e).mix.members p.1 = some (amixNext c ms p.2) := by
  induction l generalizing e with
  | nil => cases hp
  | cons q l ih =>
    obtain ⟨hq, hl⟩ := List.pairwise_cons.1 hl
    rcases List.mem_cons.1 hp with rfl | hp
    · rw [List.foldl_cons, tget_foldl_putMember_of_ne c ms (fun q' hq' => Nat.ne_of_gt (hq q' hq')), putMember_members, tget_tput_self]
    · exact ih hl hp _

end

theorem twf_members_amixGroup {e : Engine} (h : twf none e.mix.members = true) (g : Nat) (c : AmGroup) :
    twf none (amixGroup e g c).mix.members = true := by
  obtain ⟨-, hwf⟩ := foldl_putMember_frame c (membersOf e g) (membersOf e g) (setBitF .SUM_AMIX_HOLD_HOLD 0 g (amixQuiet c (membersOf e g)) e)
  rw [amixGroup_eq_foldl]
  exact hwf h

theorem bitF_hold_amixGroup {k : Nat} (hk : k < 32) (e : Engine) (g : Nat) (c : AmGroup) :
    bitF .SUM_AMIX_HOLD_HOLD 0 k (amixGroup e g c)
      = if g = k then amixQuiet c (membersOf e g) else bitF .SUM_AMIX_HOLD_HOLD 0 k e := by
  obtain ⟨hregs, -⟩ := foldl_putMember_frame c (membersOf e g) (membersOf e g) (setBitF .SUM_AMIX_HOLD_HOLD 0 g (amixQuiet c (membersOf e g)) e)
  rw [amixGroup_eq_foldl, bitF_of_getF (getF_of_regs hregs ..), bitF_setBitF .SUM_AMIX_HOLD_HOLD 0 g hk]

theorem tget_members_amixGroup_self {e : Engine} (h : twf none e.mix.members = true) {g i : Nat} {m : AmMember} (c : AmGroup)
    (hm : (i, m) ∈ membersOf e g) : tget none (amixGroup e g c).mix.members i = some (amixNext c (membersOf e g) m) :=
  tget_foldl_putMember_of_mem c _ (membersOf_pairwise h g) hm _

/-- An entry that is no member of the group stands. -/
theorem tget_members_amixGroup_other {e : Engine} {g i : Nat} (c : AmGroup) (hi : ∀ m, (i, m) ∉ membersOf e g) :
    tget none (amixGroup e g c).mix.members i = tget none e.mix.members i :=
  tget_foldl_putMember_of_ne c _ (by rintro p hp rfl; exact hi p.2 hp) _

/-! ### The other groups -/

/-- Group `g` has in `e'` the hold bit and the members that it has in `e`. -/
structure KeepsGroup (g : Nat) (e e' : Engine) : Prop where
  hold : bitF .SUM_AMIX_HOLD_HOLD 0 g e' = bitF .SUM_AMIX_HOLD_HOLD 0 g e
  members_wf : twf none e.mix.members = true → twf none e'.mix.members = true
  members : twf none e.mix.members = true → membersOf e' g = membersOf e g

theorem KeepsGroup.refl (g : Nat) (e : Engine) : KeepsGroup g e e := ⟨rfl, id, fun _ => rfl⟩

theorem KeepsGroup.trans {g : Nat} {e e' e'' : Engine} (h : KeepsGroup g e e') (h' : KeepsGroup g e' e'') : KeepsGroup g e e'' :=
  ⟨h'.hold.trans h.hold, fun hwf => h'.members_wf (h.members_wf hwf), fun hwf => (h'.members (h.members_wf hwf)).trans (h.members hwf)⟩

theorem amixGroup_keepsGroup {g k : Nat} (hk : k < 32) (hne : g ≠ k) (e : Engine) (c : AmGroup) : KeepsGroup k e (amixGroup e g c) where
  hold := (bitF_hold_amixGroup hk e g c).trans (if_neg hne)
  members_wf h := twf_members_amixGroup h g c
  members h := by
    refine membersOf_congr h (twf_members_amixGroup h g c) fun i m hm => ?_
    by_cases hi : ∃ m', (i, m') ∈ membersOf e g
    · -- an entry of the group is in the group before and after, and so not in group `k`
      obtain ⟨m', hm'⟩ := hi
      obtain ⟨hget, hg⟩ := (mem_membersOf h ..).1 hm'
      have hother : ∀ x : AmMember, x.group = g → x ≠ m := fun x hx hxm => hne (hx.symm.trans (congrArg AmMember.group hxm |>.trans hm))
      rw [tget_members_amixGroup_self h c hm', hget]
      simp only [Option.some.injEq, hother m' hg, hother (amixNext c (membersOf e g) m') hg]
    · rw [tget_members_amixGroup_other c fun m' hm' => hi ⟨m', hm'⟩]

/-! ### The groups whose turn falls due -/

/-- A group's millisecond, by its entry. -/
def amixDue (e : Engine) (p : Nat × Option AmGroup) : Engine :=
  match p.2 with
  | some c => amixGroup e p.1 c
  | none => e

theorem foldl_amixDue_keepsGroup {k : Nat} (hk : k < 32) {l : List (Nat × Option AmGroup)} (hl : ∀ p ∈ l, p.1 ≠ k) (e : Engine) :
    KeepsGroup k e (l.foldl amixDue e) := by
  refine List.foldlRecOn (motive := KeepsGroup k e) _ _ (.refl k e) fun b hb p hp => ?_
  unfold amixDue
  split
  · exact hb.trans (amixGroup_keepsGroup hk (hl p hp) b _)
  · exact hb

/-- The activity words are bytes of memory. -/
theorem writeAmixActivity_frame (e : Engine) : (writeAmixActivity e).mix = e.mix ∧ (writeAmixActivity e).regs = e.regs :=
  List.foldlRecOn (motive := fun b : Engine => b.mix = e.mix ∧ b.regs = e.regs) _ _ ⟨rfl, rfl⟩ fun _ hb _ _ => hb

theorem effAutomixUpdate_eq {e : Engine} (h : supUp e = true) (gs : List Nat) :
    effAutomixUpdate gs e = writeAmixActivity ((e.mix.groups.filter fun p => gs.contains p.1).foldl amixDue e) := by
  rw [effAutomixUpdate, h]
  rfl

theorem effAutomixUpdate_frame {e : Engine} (h : supUp e = true) (gs : List Nat) :
    (effAutomixUpdate gs e).mix.members = ((e.mix.groups.filter fun p => gs.contains p.1).foldl amixDue e).mix.members
      ∧ ∀ g, bitF .SUM_AMIX_HOLD_HOLD 0 g (effAutomixUpdate gs e)
        = bitF .SUM_AMIX_HOLD_HOLD 0 g ((e.mix.groups.filter fun p => gs.contains p.1).foldl amixDue e) := by
  obtain ⟨hmix, hregs⟩ := writeAmixActivity_frame ((e.mix.groups.filter fun p => gs.contains p.1).foldl amixDue e)
  rw [effAutomixUpdate_eq h]
  exact ⟨by rw [hmix], fun g => bitF_of_getF (getF_of_regs hregs ..) g⟩

section
variable {e : Engine} {gs : List Nat} {g : Nat} (hsup : supUp e = true) (hg : g < 32) (hwf : twf none e.mix.members = true)
include hsup hg hwf

/-- A group whose turn it is not keeps its hold bit and its members. -/
theorem effAutomixUpdate_of_not_due (hgs : g ∉ gs) :
    bitF .SUM_AMIX_HOLD_HOLD 0 g (effAutomixUpdate gs e) = bitF .SUM_AMIX_HOLD_HOLD 0 g e
      ∧ ∀ i m, (i, m) ∈ membersOf e g → tget none (effAutomixUpdate gs e).mix.members i = some m := by
  have hkeep := foldl_amixDue_keepsGroup hg (l := e.mix.groups.filter fun p => gs.contains p.1)
    (by rintro p hp rfl; exact hgs (by simpa using (List.mem_filter.1 hp).2)) e
  obtain ⟨hmembers, hhold⟩ := effAutomixUpdate_frame hsup gs
  refine ⟨(hhold g).trans hkeep.hold, fun i m hm => ?_⟩
  rw [← hkeep.members hwf, mem_membersOf (hkeep.members_wf hwf)] at hm
  rw [hmembers, hm.1]

/-- A group whose turn falls due is worked off once: the groups before it and after it keep what it has. -/
theorem effAutomixUpdate_of_due {c : AmGroup} (hgs : g ∈ gs) (hgroups : twf none e.mix.groups = true)
    (hc : tget none e.mix.groups g = some c) :
    bitF .SUM_AMIX_HOLD_HOLD 0 g (effAutomixUpdate gs e) = amixQuiet c (membersOf e g)
      ∧ ∀ i m, (i, m) ∈ membersOf e g →
        tget none (effAutomixUpdate gs e).mix.members i = some (amixNext c (membersOf e g) m) := by
  have hdue : (g, some c) ∈ e.mix.groups.filter fun p => gs.contains p.1 :=
    List.mem_filter.2 ⟨(mem_iff_tget_none hgroups g c).2 hc, by simpa using hgs⟩
  have hkeys := (pairwise_of_twf hgroups).filter fun p => gs.contains p.1
  obtain ⟨hmembers, hhold⟩ := effAutomixUpdate_frame hsup gs
  obtain ⟨before, after, hsplit⟩ := List.append_of_mem hdue
  rw [hsplit] at hkeys hmembers hhold
  obtain ⟨-, hafter, hbefore⟩ := List.pairwise_append.1 hkeys
  have h1 : KeepsGroup g e (before.foldl amixDue e) :=
    foldl_amixDue_keepsGroup hg (fun p hp => Nat.ne_of_lt (hbefore p hp _ List.mem_cons_self)) e
  have h2 : KeepsGroup g (amixGroup (before.foldl amixDue e) g c) ((before ++ (g, some c) :: after).foldl amixDue e) := by
    rw [List.foldl_append, List.foldl_cons]
    exact foldl_amixDue_keepsGroup hg (fun p hp => Nat.ne_of_gt ((List.pairwise_cons.1 hafter).1 p hp)) _
  have hwf1 := h1.members_wf hwf
  have hwf2 := twf_members_amixGroup hwf1 g c
  rw [hmembers, hhold, h2.hold, bitF_hold_amixGroup hg, if_pos rfl, h1.members hwf]
  refine ⟨rfl, fun i m hm => ?_⟩
  obtain ⟨-, hmg⟩ := (mem_membersOf hwf ..).1 hm
  have hown := tget_members_amixGroup_self hwf1 c (by rwa [h1.members hwf])
  rw [h1.members hwf] at hown
  have hmem := (mem_membersOf hwf2 g i _).2 ⟨hown, hmg⟩
  rw [← h2.members hwf2, mem_membersOf (h2.members_wf hwf2)] at hmem
  exact hmem.1

end

/-! ### The command -/

section
variable {s : State} {gs : List Nat} {g : Nat} {c : AmGroup} (hgs : ∀ x ∈ gs, x < 32) (hg : g < 32) (hl : s.e.held = 0)
  (hsup : getF .SYS_SUP_STAT_STATE 0 s.e = 1) (hgroups : twf none s.e.mix.groups = true) (hwf : twf none s.e.mix.members = true)
  (hc : tget none s.e.mix.groups g = some c)
include hgs hg hl hsup hgroups hwf hc

theorem automixUpdate_forms :
    completes (.automixUpdate gs) s fun e =>
      bitF .SUM_AMIX_HOLD_HOLD 0 g e = (if g ∈ gs then amixQuiet c (membersOf s.e g) else bitF .SUM_AMIX_HOLD_HOLD 0 g s.e)
        ∧ ∀ i m, tget none s.e.mix.members i = some m → m.group = g →
          ∃ m', tget none e.mix.members i = some m' ∧ m'.e = m.e
            ∧ m'.a = if g ∉ gs ∨ amixQuiet c (membersOf s.e g) = true then m.a else amixFactor c m (amixSum (membersOf s.e g)) := by
  refine completes_of_live (exec_automixUpdate ..) (by simpa using hgs) hl ?_
  by_cases hin : g ∈ gs
  · obtain ⟨hhold, hmembers⟩ := effAutomixUpdate_of_due (supUp_of_state hsup) hg hwf hin hgroups hc
    refine ⟨by rw [hhold, if_pos hin], fun i m hm hmg => ⟨_, hmembers i m ((mem_membersOf hwf ..).2 ⟨hm, hmg⟩), rfl, ?_⟩⟩
    simp only [amixNext, amixShare, hin, not_true_eq_false, false_or]
  · obtain ⟨hhold, hmembers⟩ := effAutomixUpdate_of_not_due (supUp_of_state hsup) hg hwf hin
    refine ⟨by rw [hhold, if_neg hin], fun i m hm hmg => ⟨m, hmembers i m ((mem_membersOf hwf ..).2 ⟨hm, hmg⟩), rfl, ?_⟩⟩
    rw [if_pos (.inl hin)]

end

/-- The only member of a group takes the whole, unless it is quiet. -/
theorem automixUpdate_of_sole {s : State} {gs : List Nat} {g i : Nat} {c : AmGroup} {m : AmMember} (hgs : ∀ x ∈ gs, x < 32) (hin : g ∈ gs)
    (hl : s.e.held = 0) (hsup : getF .SYS_SUP_STAT_STATE 0 s.e = 1) (hgroups : s.e.mix.groups = [(g, some c)])
    (hmembers : s.e.mix.members = [(i, some m)]) (hm : m.group = g) :
    completes (.automixUpdate gs) s fun e =>
      ∃ m', tget none e.mix.members i = some m' ∧ m'.e = m.e
        ∧ (powerOf (-(c.thr : Int)) ≤ m.e → m'.a = gainOne ∧ bitF .SUM_AMIX_HOLD_HOLD 0 g e = false)
        ∧ (m.e < powerOf (-(c.thr : Int)) → m'.a = m.a ∧ bitF .SUM_AMIX_HOLD_HOLD 0 g e = true) := by
  have hms : membersOf s.e g = [(i, m)] := by simp [membersOf, hmembers, hm]
  have hquiet : amixQuiet c (membersOf s.e g) = decide (m.e < powerOf (-(c.thr : Int))) := by simp [amixQuiet, hms]
  have hsum : amixFactor c m (amixSum (membersOf s.e g)) = gainOne := by
    rw [hms, amixFactor, if_pos (by simp [amixSum])]
  have hall := automixUpdate_forms hgs (hgs g hin) hl hsup (c := c) (by simp [hgroups, twf, tsortedFrom, tdense])
    (by simp [hmembers, twf, tsortedFrom, tdense]) (by simp [hgroups, tget])
  refine hall.mono fun e ⟨hhold, hmem⟩ => ?_
  obtain ⟨m', hget, he, ha⟩ := hmem i m (by simp [hmembers, tget]) hm
  simp only [hin, if_true, not_true_eq_false, false_or, hquiet, hsum, decide_eq_true_eq] at hhold ha
  refine ⟨m', hget, he, fun hloud => ?_, fun hlow => ?_⟩
  · rw [ha, hhold, if_neg (Nat.not_lt.2 hloud)]
    exact ⟨rfl, decide_eq_false (Nat.not_lt.2 hloud)⟩
  · rw [ha, hhold, if_pos hlow]
    exact ⟨rfl, decide_eq_true hlow⟩

end Sys2Proof.Machine
end

section
/-! PROOFS. Ducking (R241): the end of a rule, and what the new targets of its gain points leave. -/
namespace Sys2Proof.Machine

/-- The duck rules, the register that shows them, and memory stand. -/
structure KeepsDucks (e e' : Engine) : Prop where
  ducks : e'.mix.ducks = e.mix.ducks
  act : getF .SUM_DUCK_ACT_ACT 0 e' = getF .SUM_DUCK_ACT_ACT 0 e
  mem : e'.mem = e.mem

theorem KeepsDucks.refl (e : Engine) : KeepsDucks e e := ⟨rfl, rfl, rfl⟩

theorem KeepsDucks.trans {e e' e'' : Engine} (h : KeepsDucks e e') (h' : KeepsDucks e' e'') : KeepsDucks e e'' :=
  ⟨h'.ducks.trans h.ducks, h'.act.trans h.act, h'.mem.trans h.mem⟩

theorem setGp_keepsDucks (i : Nat) (p : Gp) (e : Engine) : KeepsDucks e (setGp i p e) := ⟨rfl, rfl, rfl⟩

theorem bumpF_defer_keepsDucks (e : Engine) : KeepsDucks e (bumpF .SUM_DEFER_DEFER 0 1 e) := ⟨rfl, getF_setF_of_ne (by decide) .., rfl⟩

theorem newTarget_keepsDucks (i t : Nat) (e : Engine) : KeepsDucks e (newTarget i t e) := by
  cases hst : (getGp e i).st with
  | steady =>
    simp only [newTarget, hst]
    split
    · exact setGp_keepsDucks ..
    · split
      · exact setGp_keepsDucks ..
      · split
        · exact setGp_keepsDucks ..
        · exact (setGp_keepsDucks ..).trans (bumpF_defer_keepsDucks _)
  | zcwait =>
    simp only [newTarget, hst]
    split <;> exact setGp_keepsDucks ..
  | ramp =>
    simp only [newTarget, hst]
    split
    · exact .refl e
    · exact setGp_keepsDucks ..

theorem formTarget_keepsDucks (e : Engine) (i : Nat) : KeepsDucks e (formTarget e i) := by
  have hm : KeepsDucks e (if (getGp e i).m = modifier e i then e else setGp i { getGp e i with m := modifier e i } e) := by
    split
    · exact .refl e
    · exact setGp_keepsDucks ..
  unfold formTarget
  dsimp only
  split
  · exact hm.trans (newTarget_keepsDucks ..)
  · exact hm

theorem foldl_formTarget_keepsDucks (l : List Nat) (e : Engine) : KeepsDucks e (l.foldl formTarget e) :=
  List.foldlRecOn (motive := KeepsDucks e) _ _ (.refl e) fun b hb i _ => hb.trans (formTarget_keepsDucks b i)

theorem refreshPend_keepsDucks (e : Engine) : KeepsDucks e (refreshPend e) := by
  refine ⟨by rw [refreshPend_mix], ?_, refreshPend_mem e⟩
  exact (getF_maxF_of_ne (by decide) ..).trans (getF_setF_of_ne (by decide) ..)

/-- A rule that is set is listed, and shown in `SUM_DUCK_ACT`. -/
theorem setDuck_shows {k : Nat} (hk : k < 32) (r : Duck) (e : Engine) :
    tget none (setDuck k r e).mix.ducks k = some r ∧ bitF .SUM_DUCK_ACT_ACT 0 k (setDuck k r e) = r.active
      ∧ (setDuck k r e).mem = e.mem := by
  have hducks : (setDuck k r e).mix.ducks = tput none e.mix.ducks k (some r) := rfl
  exact ⟨by rw [hducks, tget_tput_self], (bitF_setBitF .SUM_DUCK_ACT_ACT 0 k hk ..).trans (if_pos rfl), rfl⟩

/-- The rule once its hold has run out. -/
def Duck.ended (r : Duck) : Duck := { r with active := false, ending := false }

section
variable {s : State} {k : Nat} {r : Duck} (hk : k < 32) (hl : s.e.held = 0) (hsup : getF .SYS_SUP_STAT_STATE 0 s.e = 1)
  (hr : tget none s.e.mix.ducks k = some r) (hact : r.active = true)
include hk hl hsup hr hact

theorem duckHoldExpiry_ends (hpast : r.until_ ≤ frameNo s.e) :
    completes (.duckHoldExpiry k) s fun e =>
      tget none e.mix.ducks k = some r.ended ∧ bitF .SUM_DUCK_ACT_ACT 0 k e = false ∧ e.mem = s.e.mem := by
  refine completes_of_live (exec_duckHoldExpiry ..) (by simpa using hk) hl ?_
  have heff : effDuckHoldExpiry k s.e = refreshPend (r.gps.foldl formTarget (setDuck k r.ended s.e)) := by
    simp only [effDuckHoldExpiry, hr, supUp_of_state hsup, hact, Bool.not_true, Bool.or_self, Bool.false_eq_true, if_false, if_pos hpast]
    rfl
  obtain ⟨hset, hshown, hmem⟩ := setDuck_shows hk r.ended s.e
  have hkeep := (foldl_formTarget_keepsDucks r.gps (setDuck k r.ended s.e)).trans (refreshPend_keepsDucks _)
  rw [heff]
  exact ⟨by rw [hkeep.ducks, hset], (bitF_of_getF hkeep.act k).trans hshown, hkeep.mem.trans hmem⟩

theorem duckHoldExpiry_waits (hnext : r.until_ = frameNo s.e + 1) :
    completes (.duckHoldExpiry k) s fun e =>
      tget none e.mix.ducks k = some { r with ending := true } ∧ e = { s.e with mix := { s.e.mix with ducks := e.mix.ducks } } := by
  refine completes_of_live (exec_duckHoldExpiry ..) (by simpa using hk) hl ?_
  have hpast : ¬ r.until_ ≤ frameNo s.e := by omega
  simp only [effDuckHoldExpiry, hr, supUp_of_state hsup, hact, Bool.not_true, Bool.or_self, Bool.false_eq_true, if_false, if_neg hpast,
    if_pos hnext, tget_tput_self, and_self]

end

theorem duckRuleTick_ends {e : Engine} {k : Nat} {r : Duck} (hk : k < 32) (hquiet : loudTrigger e r = false) (hact : r.active = true)
    (hend : r.ending = true) (hdue : r.until_ ≤ frameNo e + 1) :
    bitF .SUM_DUCK_ACT_ACT 0 k (duckRuleTick e k r) = false ∧ tget none (duckRuleTick e k r).mix.ducks k = some r.ended := by
  have htick : duckRuleTick e k r = setDuck k r.ended e := by
    simp only [duckRuleTick, hquiet, hact, hend, hdue, Bool.false_eq_true, if_false, decide_true, Bool.and_self, if_true]
    rfl
  obtain ⟨hset, hshown, -⟩ := setDuck_shows hk r.ended e
  rw [htick]
  exact ⟨hshown, hset⟩

end Sys2Proof.Machine
end

section
open Sys2Proof Sys2Proof.Machine

/-- Settles O37: a group's millisecond touches no other group, so that the turn of each due group stands whatever the others do; a rule whose
hold has run out is cleared, and the new targets of its gain points leave the rules. -/
theorem automixAndDucking : Obligations.AutomixAndDucking := by
  refine ⟨?_, ?_, ?_, ?_⟩
  · exact fun s gs g i c m hgs hin _ hl hsup hgroups hmembers hm => automixUpdate_of_sole hgs hin hl hsup hgroups hmembers hm
  · exact fun s gs g c hgs hg hl hsup hgroups hwf hc => automixUpdate_forms hgs hg hl hsup hgroups hwf hc
  · exact fun s k r hk hl hsup hr hact => ⟨duckHoldExpiry_ends hk hl hsup hr hact, duckHoldExpiry_waits hk hl hsup hr hact⟩
  · exact fun e k r hk hquiet hact hend hdue => duckRuleTick_ends hk hquiet hact hend hdue

end

section
/-! PROOFS. The event ring (R254, Table 8.2): words read back from memory, an event at the ring's tail, and the report of those lost. -/
namespace Sys2Proof.Machine

/-! ### Reading back several words -/

theorem readBytes_congr {e e' : Engine} {a n : Nat} (h : ∀ k, k < n → readByte e' (a + k) = readByte e (a + k)) :
    readBytes e' a n = readBytes e a n := by
  refine List.ext_getElem (by simp only [length_readBytes]) fun k hk _ => ?_
  rw [getElem_readBytes, getElem_readBytes, h k (by rwa [length_readBytes] at hk)]

theorem readWords_of_mem {e e' : Engine} (h : e'.mem = e.mem) (a n : Nat) : readWords e' a n = readWords e a n := by
  induction n generalizing a with
  | zero => rfl
  | succ n ih => simp only [readWords, read64, ih, readBytes_of_mem h]

/-- A write of several words leaves every byte outside them. -/
theorem readByte_writeWords_of_outside (a b : Nat) (ws : List Word64) (e : Engine) (h : b < a ∨ a + 8 * ws.length ≤ b) :
    readByte (writeWords a ws e) b = readByte e b := by
  induction ws generalizing a e with
  | nil => rfl
  | cons w ws ih =>
    rw [List.length_cons] at h
    rw [writeWords, ih (a + 8) _ (by omega), write64, readByte_writeBytes_of_outside _ _ _ _ (by rw [length_leBytes]; omega)]

theorem read64_writeWords_of_below (a : Nat) (ws : List Word64) (e : Engine) : read64 (writeWords (a + 8) ws e) a = read64 e a := by
  have hbelow : readBytes (writeWords (a + 8) ws e) a 8 = readBytes e a 8 :=
    readBytes_congr fun k hk => readByte_writeWords_of_outside _ _ _ _ (.inl (by omega))
  rw [read64, hbelow, read64]

theorem readWords_writeWords {a n : Nat} {ws : List Word64} (h : ws.length = n) (e : Engine) : readWords (writeWords a ws e) a n = ws := by
  subst h
  induction ws generalizing a e with
  | nil => rfl
  | cons w ws ih => rw [List.length_cons, readWords, writeWords, ih, read64_writeWords_of_below, read64_write64_self]

/-! ### An event written at the ring's tail -/

theorem length_eventWords {payload : List Nat} (h : payload.length ≤ 6) (code eseq phase frame : Nat) :
    (eventWords code payload eseq phase frame).length = 8 := by
  simp only [eventWords, List.length_cons, List.length_map, List.length_append, List.length_replicate]
  omega

theorem putEntry_of_host {h n a : Nat} {e : Engine} (ha : hostAt e h n = some a) (ws : List Word64) :
    putEntry h n ws e = writeWords a ws e := by
  simp only [putEntry, ha]

@[simp] theorem putEntry_ctl (h n : Nat) (ws : List Word64) (e : Engine) : (putEntry h n ws e).ctl = e.ctl := by
  unfold putEntry
  cases hostAt e h n with
  | some a => exact writeWords_ctl ..
  | none => rfl

theorem tget_used_useEntry (k tail size : Nat) (e : Engine) :
    tget 0 (useEntry k tail size e).ctl.used k = tget 0 e.ctl.used k + 1 := by
  simp only [useEntry, tget_tput_self]

/-- A source that fires reaches the vectors alone. -/
theorem fireIf_ctl (on : Bool) (v : Nat) (e : Engine) : (fireIf on v e).ctl = { e.ctl with msi := (fireIf on v e).ctl.msi } := by
  unfold fireIf
  split <;> rfl

section
variable (code : Nat) (payload : List Nat) (e : Engine)

/-- What the posting of an event leaves of the control plane: one entry more in use, the phase, the sequence number, and the vectors. -/
theorem writeEvent_ctl :
    (writeEvent code payload e).ctl =
      { (useEntry 8 (getF .HOST_EV_TAIL_TAIL 0 e) (evSize e) e).ctl with
        eseq := (e.ctl.eseq + 1) % 2 ^ 31, msi := (writeEvent code payload e).ctl.msi } := by
  simp only [writeEvent]
  rw [fireIf_ctl, fireIf_ctl, setF_ctl, useEntry, useEntry, putEntry_ctl]

theorem tget_used_writeEvent : tget 0 (writeEvent code payload e).ctl.used 8 = tget 0 e.ctl.used 8 + 1 := by
  rw [writeEvent_ctl]
  exact tget_used_useEntry 8 (getF .HOST_EV_TAIL_TAIL 0 e) (evSize e) e

theorem getF_writeEvent_tail :
    getF .HOST_EV_TAIL_TAIL 0 (writeEvent code payload e)
      = (if getF .HOST_EV_TAIL_TAIL 0 e + 1 ≥ evSize e then 0 else getF .HOST_EV_TAIL_TAIL 0 e + 1)
          % 2 ^ Fld.HOST_EV_TAIL_TAIL.width := by
  simp only [writeEvent, fireIf_getF, getF_setF_self]

theorem writeEvent_mem :
    (writeEvent code payload e).mem =
      (putEntry (evEntry e) 64
        (eventWords code payload e.ctl.eseq (if tget false e.ctl.phase 8 then 0 else 1) (frameNo e)) e).mem := by
  simp only [writeEvent, fireIf_mem, setF_mem, useEntry_mem]

end

/-- With its entry in the host's window, an event's eight words stand there, and every other byte reads as before. -/
theorem writeEvent_stores {code a : Nat} {payload : List Nat} {e : Engine} (hlen : payload.length ≤ 6)
    (ha : hostAt e (evEntry e) 64 = some a) :
    readWords (writeEvent code payload e) a 8
        = eventWords code payload e.ctl.eseq (if tget false e.ctl.phase 8 then 0 else 1) (frameNo e)
      ∧ ∀ b, b < a ∨ a + 64 ≤ b → readByte (writeEvent code payload e) b = readByte e b := by
  have hmem := writeEvent_mem code payload e
  rw [putEntry_of_host ha] at hmem
  have h8 := length_eventWords hlen code e.ctl.eseq (if tget false e.ctl.phase 8 then 0 else 1) (frameNo e)
  refine ⟨(readWords_of_mem hmem ..).trans (readWords_writeWords h8 e), fun b hb => ?_⟩
  rw [readByte_of_mem hmem, readByte_writeWords_of_outside _ _ _ _ (by rwa [h8])]

/-! ### The report of the events lost (R254) -/

theorem reportLost_of_none {e : Engine} (h : e.ctl.lost = 0) : reportLost e = e := by
  simp only [reportLost, h, bne_self_eq_false, Bool.false_and, Bool.false_eq_true, if_false]

theorem reportLost_of_full {e : Engine} (h : evFree e = false) : reportLost e = e := by
  simp only [reportLost, h, Bool.and_false, Bool.false_eq_true, if_false]

theorem reportLost_of_free {e : Engine} (hfree : evFree e = true) (hlost : e.ctl.lost ≠ 0) :
    reportLost e = writeEvent 0x0406 [e.ctl.lost] { e with ctl := { e.ctl with lost := 0 } } := by
  simp only [reportLost, hfree, bne_iff_ne.2 hlost, Bool.and_self, if_true]

theorem postEvent_of_free {e : Engine} (hfree : evFree e = true) (hlost : e.ctl.lost = 0) (code : Nat) (payload : List Nat) :
    postEvent code payload e = writeEvent code payload e := by
  simp only [postEvent, reportLost_of_none hlost, hfree, if_true]

theorem postEvent_of_full {e : Engine} (h : evFree e = false) (code : Nat) (payload : List Nat) :
    postEvent code payload e = bumpF .HOST_EV_LOST_LOST 0 1 { e with ctl := { e.ctl with lost := e.ctl.lost + 1 } } := by
  simp only [postEvent, reportLost_of_full h, h, Bool.false_eq_true, if_false]

/-- Once an entry is free, the report of those lost is an event of its own, posted first; it leaves none to report. -/
theorem postEvent_of_lost {e : Engine} (hfree : evFree e = true) (hlost : e.ctl.lost ≠ 0) (code : Nat) (payload : List Nat) :
    postEvent code payload e
      = postEvent code payload (postEvent 0x0406 [e.ctl.lost] { e with ctl := { e.ctl with lost := 0 } }) := by
  have hreport : postEvent 0x0406 [e.ctl.lost] { e with ctl := { e.ctl with lost := 0 } } = reportLost e := by
    rw [reportLost_of_free hfree hlost]
    exact postEvent_of_free (e := { e with ctl := { e.ctl with lost := 0 } }) hfree rfl ..
  have hnone : (reportLost e).ctl.lost = 0 := by rw [reportLost_of_free hfree hlost, writeEvent_ctl]; rfl
  rw [hreport, postEvent, postEvent, reportLost_of_none hnone]

end Sys2Proof.Machine
end

section
open Sys2Proof Sys2Proof.Machine

/-- Settles O11: with nothing to report an event is written at the ring's tail, where its words read back and no other byte changes; without
a free entry nothing is written; and the report of those lost is itself an event, after which none is left to report. -/
theorem eventsReachTheRing : Obligations.EventsReachTheRing := by
  refine ⟨fun code a payload e hfree hlost hlen ha => ?_, fun code payload e h => postEvent_of_full h code payload,
    fun code payload e hfree hlost => postEvent_of_lost hfree hlost code payload⟩
  obtain ⟨hwords, hother⟩ := writeEvent_stores (code := code) hlen ha
  simp only [postEvent_of_free hfree hlost]
  exact ⟨hwords, getF_writeEvent_tail code payload e, by rw [writeEvent_ctl], tget_used_writeEvent code payload e, hother⟩

end

section
/-! PROOFS. The parity count of an AES3 receiver (R293): what a subframe makes of `PORT_AESSTATn.PARERR`. -/
namespace Sys2Proof.Machine

/-- What an effect's command completes with is what holds of the effect. -/
theorem effect_of_completes {c : Instr} {s : State} {Q : Engine → Prop} {m : String} {ok : Bool} {eff : Engine → Engine}
    (hx : exec c s = runLive m ok eff s) (hok : ok = true) (hl : s.e.held = 0) (h : completes c s Q) : Q (eff s.e) := by
  obtain ⟨t, ht, -, hQ⟩ := h
  rw [hx, runLive_of_live hok hl, Host.Outcome.next.injEq] at ht
  rwa [← ht] at hQ

/-- A captured word leaves the registers, or writes its port's phase there (R303). -/
theorem captureWord_regs (p ch : Nat) (x : Word) (theta : Int) (t : Nat) (e : Engine) :
    (captureWord p ch x theta t e).regs = e.regs
      ∨ (captureWord p ch x theta t e).regs = (setF .PORT_STAT_THETA p (satField 10 (theta / 4)) e).regs := by
  unfold captureWord
  by_cases hidle : (!portRuns e p || !decide (ch < portChans e p)) = true
  · exact .inl (by rw [if_pos hidle])
  rw [if_neg hidle]
  by_cases hphase : hasTheta e p = true
  · right
    simp only [hphase, if_true]
    split
    · rfl
    · split <;> rfl
  · left
    simp only [hphase, if_false, Bool.false_eq_true]
    split
    · rfl
    · split <;> rfl

theorem getF_captureWord_of_ne {g : Fld} (h : Fld.PORT_STAT_THETA ≠ g) (j p ch : Nat) (x : Word) (theta : Int) (t : Nat) (e : Engine) :
    getF g j (captureWord p ch x theta t e) = getF g j e := by
  rcases captureWord_regs p ch x theta t e with hregs | hregs
  · rw [getF, hregs, getF]
  · rw [getF, hregs]; exact getF_setF_of_ne h ..

/-- Only a parity error changes the count, which saturates (R12); a good subframe leaves it, whatever it holds. -/
theorem getF_parityCount_effAes3Subframe {n : Nat} {e : Engine} (hen : portEn e (0x28 + n) = true) (sub word : Nat) (parityErr v : Bool)
    (theta : Int) (t : Nat) : getF .PORT_AESSTAT_PARERR n (effAes3Subframe n sub word parityErr v theta t e)
      = if parityErr then min (getF .PORT_AESSTAT_PARERR n e + 1) 255 else getF .PORT_AESSTAT_PARERR n e := by
  have hvalid : (if sub = 0 then Fld.PORT_AESSTAT_VA else .PORT_AESSTAT_VB) ≠ .PORT_AESSTAT_PARERR := by split <;> decide
  simp only [effAes3Subframe, hen, if_true]
  rw [getF_captureWord_of_ne (by decide)]
  have hkeep := getF_setF_of_ne hvalid n n v.toNat e
  cases parityErr with
  | false => exact hkeep
  | true => exact (getF_bumpF_self ..).trans (congrArg (fun k => min (k + 1) 255) hkeep)

end Sys2Proof.Machine
end

section
open Sys2Proof Sys2Proof.Machine

/-- Refutes O45: of a subframe without a parity error the statement says that PARERR becomes `min PARERR 255`, in every state, but the
effect leaves the count alone. They differ where the count lies beyond its 8-bit field, as in an engine whose register table
holds 256 there: the statement admits every register table, also one that no `setF` has written. -/
theorem not_portsCapture : ¬ Obligations.PortsCapture := by
  unfold Obligations.PortsCapture
  rintro ⟨hcapture, -⟩
  let s : State := ⟨[], { Engine.reset with regs := [(fkey .PORT_AESCFG_EN 0, 1), (fkey .PORT_AESSTAT_PARERR 0, 256)] }⟩
  have hen : portEn s.e 0x28 = true := by decide
  have hcount : getF .PORT_AESSTAT_PARERR 0 s.e = 256 := by decide
  obtain ⟨-, -, hsubframe⟩ := hcapture s 0 0 0 0 0 (by decide) (by decide) (.inl (by decide)) rfl
  obtain ⟨-, -, -, hmin, -⟩ :=
    effect_of_completes (exec_aes3Subframe ..) (by decide) rfl (hsubframe (by decide) (by decide) hen false false)
  rw [getF_parityCount_effAes3Subframe hen, if_neg Bool.false_ne_true, hcount] at hmin
  exact absurd hmin (by decide)

end

section
/-! PROOFS. What the DPLL's changes of state and the evaluation of a slot leave alone (R323–R332), and two values that outlast them: the
target's number, which the end of the dwell writes at the width of SEL, and a soft alarm that stands. -/
namespace Sys2Proof.Machine

/-! ### Changes of state of the DPLL -/

theorem getF_refreshOutQl {g : Fld} (h : Fld.CLK_STAT_OUTQL ≠ g) (j : Nat) (e : Engine) : getF g j (refreshOutQl e) = getF g j e := by
  unfold refreshOutQl
  rw [getF_setF_of_ne h]
  split <;> rfl

/-- A change of state ends with the registers of its phase, state and selection, OUTQL and an event. -/
theorem getF_enterDpll {g : Fld} (hq : Fld.CLK_STAT_OUTQL ≠ g) (hev : eventFlds.contains g = false) (j st ph : Nat) (sel : Option Nat)
    (e : Engine) : getF g j (enterDpll st ph sel e)
      = getF g j (match sel with
        | some n => setF .CLK_STAT_SEL 0 n (setF .CLK_STAT_SELV 0 1 (setF .CLK_STAT_PHASE 0 ph (setF .CLK_STAT_STATE 0 st e)))
        | none => setF .CLK_STAT_SELV 0 0 (setF .CLK_STAT_PHASE 0 ph (setF .CLK_STAT_STATE 0 st e))) := by
  unfold enterDpll
  extract_lets was e1 e2 e3
  have hrefresh : getF g j e3 = getF g j e2 := getF_refreshOutQl hq ..
  split
  · exact hrefresh
  · exact (getF_postEvent hev ..).trans hrefresh

/-- SEL holds the slot that a state is entered with, at its three bits. -/
theorem selSlot_enterDpll_some (st ph n : Nat) (e : Engine) : selSlot (enterDpll st ph (some n) e) = n % 2 ^ 3 := by
  rw [selSlot, getF_enterDpll (by decide) (by decide), getF_setF_self, Fld.width_CLK_STAT_SEL]

theorem selSlot_effDwellEnd {e : Engine} (h : phaseIn e 3 = true) : selSlot (effDwellEnd e) = selSlot e % 2 ^ 3 := by
  rw [effDwellEnd, if_pos h, selSlot_enterDpll_some]

/-! ### The soft alarm of a slot -/

theorem getF_soft_enterDpll_none (j st ph : Nat) (e : Engine) :
    getF .CLK_REFSTAT_SOFT j (enterDpll st ph none e) = getF .CLK_REFSTAT_SOFT j e := by
  rw [getF_enterDpll (by decide) (by decide)]
  simp

theorem getF_soft_enterFree (j : Nat) (e : Engine) : getF .CLK_REFSTAT_SOFT j (enterFree e) = getF .CLK_REFSTAT_SOFT j e :=
  (getF_soft_enterDpll_none ..).trans (getF_setF_of_ne (by decide) ..)

theorem getF_soft_enterHold (j : Nat) (e : Engine) : getF .CLK_REFSTAT_SOFT j (enterHold e) = getF .CLK_REFSTAT_SOFT j e := by
  unfold enterHold
  split
  · exact getF_soft_enterFree ..
  extract_lets f e1
  have hshown : getF .CLK_REFSTAT_SOFT j e1 = getF .CLK_REFSTAT_SOFT j e := getF_setF_of_ne (by decide) ..
  split
  · exact hshown
  · rw [getF_soft_enterDpll_none, getF_setF_of_ne (by decide), hshown]

theorem getF_soft_checkLocked (j : Nat) (e : Engine) : getF .CLK_REFSTAT_SOFT j (checkLocked e) = getF .CLK_REFSTAT_SOFT j e := by
  unfold checkLocked
  split
  · exact getF_soft_enterHold ..
  · rfl

/-- The evaluation of a slot reads its soft alarm and leaves it. -/
theorem getF_soft_evalSlot (j : Nat) (e : Engine) (n : Nat) :
    getF .CLK_REFSTAT_SOFT j (evalSlot e n) = getF .CLK_REFSTAT_SOFT j e := by
  unfold evalSlot
  extract_lets e1 b q e2 cause e3 was w slot up down shown judged elig
  have hheard : getF .CLK_REFSTAT_SOFT j e1 = getF .CLK_REFSTAT_SOFT j e := by
    unfold e1
    split
    · rw [getF_setF_of_ne (by decide), getF_setF_of_ne (by decide)]
    · rfl
  have hlevels : getF .CLK_REFSTAT_SOFT j e2 = getF .CLK_REFSTAT_SOFT j e1 := by
    rw [getF_setF_of_ne (by decide), getF_setF_of_ne (by decide)]
  have hcause : getF .CLK_REFSTAT_SOFT j e3 = getF .CLK_REFSTAT_SOFT j e2 := by
    unfold e3
    split
    · exact getF_setF_of_ne (by decide) ..
    · rfl
  have hup : getF .CLK_REFSTAT_SOFT j up = getF .CLK_REFSTAT_SOFT j e3 := by
    rw [getF_setF_of_ne (by decide), getF_setF_of_ne (by decide), getF_of_regs (setSlot_regs ..)]
  have hdown : getF .CLK_REFSTAT_SOFT j down = getF .CLK_REFSTAT_SOFT j e3 := by
    rw [getF_setF_of_ne (by decide), getF_setF_of_ne (by decide), getF_of_regs (setSlot_regs ..)]
  have hshown : getF .CLK_REFSTAT_SOFT j shown = getF .CLK_REFSTAT_SOFT j down := by
    unfold shown
    split
    · rfl
    · exact getF_setF_of_ne (by decide) ..
  have hjudged : getF .CLK_REFSTAT_SOFT j judged = getF .CLK_REFSTAT_SOFT j e3 := by
    unfold judged
    split
    · exact (getF_postEvent (by decide) ..).trans hup
    split
    · exact (getF_postEvent (by decide) ..).trans (hshown.trans hdown)
    · rfl
  rw [getF_refreshOutQl (by decide), getF_setF_of_ne (by decide), hjudged, hcause, hlevels, hheard]

theorem getF_soft_wordMeasured (j n : Nat) (ofs : Int) (e : Engine) :
    getF .CLK_REFSTAT_SOFT j (wordMeasured n ofs e) = getF .CLK_REFSTAT_SOFT j e := by
  unfold wordMeasured
  generalize wordFns e n = ks
  induction ks generalizing e with
  | nil => rfl
  | cons k ks ih => rw [List.foldl_cons, ih, getF_setF_of_ne (by decide), getF_setF_of_ne (by decide)]

/-- A standing soft alarm is not raised again (R322). -/
theorem getF_soft_checkWindows {n : Nat} {e : Engine} (h : isF .CLK_REFSTAT_SOFT n e = true) :
    getF .CLK_REFSTAT_SOFT n (checkWindows n e) = getF .CLK_REFSTAT_SOFT n e := by
  simp only [checkWindows, h, Bool.not_true, Bool.and_false, Bool.false_eq_true, if_false]
  split
  · exact getF_setF_of_ne (by decide) ..
  · rfl

/-- A gate leaves the field of a standing soft alarm as it is, whatever nonzero value it holds. -/
theorem getF_soft_effFrequencyMeasurement {n : Nat} {e : Engine} (h : isF .CLK_REFSTAT_SOFT n e = true) (ofs : Int) :
    getF .CLK_REFSTAT_SOFT n (effFrequencyMeasurement n ofs e) = getF .CLK_REFSTAT_SOFT n e := by
  unfold effFrequencyMeasurement
  split
  · extract_lets l d slot gated offset rate
    have hrate : getF .CLK_REFSTAT_SOFT n (wordMeasured n ofs rate) = getF .CLK_REFSTAT_SOFT n e := by
      rw [getF_soft_wordMeasured, getF_setF_of_ne (by decide), getF_setF_of_ne (by decide), getF_of_regs (setSlot_regs ..)]
    have hstands : isF .CLK_REFSTAT_SOFT n (wordMeasured n ofs rate) = true := by rwa [isF, hrate]
    rw [getF_soft_checkLocked, getF_soft_evalSlot, getF_soft_checkWindows hstands, hrate]
  · rfl

end Sys2Proof.Machine
end

section
open Sys2Proof Sys2Proof.Machine

/-- Refutes O46: of an offset beyond SOFT the statement says that the soft alarm's field becomes 1, in every state, but a gate writes the
field only if no alarm stands, and takes every nonzero value for a standing one. They differ where the field holds 2, as in an engine
with an enabled and present slot 0 whose register table holds 2 there: the statement admits every register table, also one that no
`setF` has written. -/
theorem not_referencesAreMonitored : ¬ Obligations.ReferencesAreMonitored := by
  unfold Obligations.ReferencesAreMonitored
  intro h
  let s : State := ⟨[], { Engine.reset with
    regs := [(fkey .CLK_REFCFG_EN 0, 1), (fkey .CLK_REFSTAT_PRESENT 0, 1), (fkey .CLK_REFSTAT_SOFT 0, 2)] }⟩
  have hsoft : getF .CLK_REFSTAT_SOFT 0 s.e = 2 := by decide
  obtain ⟨hpresent, -⟩ := h s 0 1000000 (by decide) rfl
  obtain ⟨-, -, hgate⟩ := hpresent (by decide) (by decide)
  obtain ⟨-, halarm, -⟩ :=
    effect_of_completes (exec_frequencyMeasurement ..) (by decide) rfl (hgate (by decide))
  have hone := halarm (by decide)
  rw [getF_soft_effFrequencyMeasurement (by decide), hsoft] at hone
  exact absurd hone (by decide)

/-- Refutes O47: the statement says that the end of the dwell leaves SEL as it is, in every state, but the effect enters LOCKED by writing
the target's number to SEL, at the field's three bits. They differ where SEL lies beyond them, as in an engine in DWELL whose register
table holds 8 there: the statement admits every register table, also one that no `setF` has written. -/
theorem not_transitionsEndLocked : ¬ Obligations.TransitionsEndLocked := by
  unfold Obligations.TransitionsEndLocked
  rintro ⟨-, hphases, -⟩
  let s : State := ⟨[], { Engine.reset with
    regs := [(fkey .CLK_STAT_STATE 0, 3), (fkey .CLK_STAT_PHASE 0, 3), (fkey .CLK_STAT_SEL 0, 8)] }⟩
  have hsel : selSlot s.e = 8 := by decide
  obtain ⟨-, -, -, hdwell⟩ := hphases s 0 rfl (by decide)
  obtain ⟨-, -, hkept⟩ := effect_of_completes (exec_dwellEnd _) (by decide) rfl (hdwell (by decide))
  change selSlot (effDwellEnd s.e) = selSlot s.e at hkept
  rw [selSlot_effDwellEnd (by decide), hsel] at hkept
  exact absurd hkept (by decide)

end

section
/-! PROOFS. What an Ethernet link that comes up shows in `NET_PORTSTATn.LINK` (R369). -/
namespace Sys2Proof.Machine

/-- A link that comes up stands on an enabled port, and the gate takes every nonzero value of EN for enabled. -/
theorem getF_link_effEthLinkChange_up (q : Nat) (e : Engine) :
    getF .NET_PORTSTAT_LINK q (effEthLinkChange q true e) = (isF .NET_PORTCFG_EN q e).toNat := by
  have hbit := Bool.toNat_lt (isF .NET_PORTCFG_EN q e)
  simp only [effEthLinkChange, Bool.not_true, Bool.and_false, Bool.false_eq_true, if_false, Bool.true_and, getF_setF_self,
    Fld.width_NET_PORTSTAT_LINK]
  omega

end Sys2Proof.Machine
end

section
open Sys2Proof Sys2Proof.Machine

/-- Refutes O48: the statement says, in every state, that a link which comes up shows only where `NET_PORTCFGn.EN` is 1, but the effect takes
every nonzero EN for an enabled port. They differ where EN lies beyond its one bit, as in an engine whose register table holds 2 there: the
statement admits every register table, also one that no `setF` has written. -/
theorem not_streamsAreWatched : ¬ Obligations.StreamsAreWatched := by
  unfold Obligations.StreamsAreWatched
  rintro ⟨-, -, hlink, -⟩
  let s : State := ⟨[], { Engine.reset with regs := [(fkey .NET_PORTCFG_EN 0, 2)] }⟩
  have hen : getF .NET_PORTCFG_EN 0 s.e = 2 := by decide
  obtain ⟨hup, -⟩ := hlink s 0 (by decide) rfl
  obtain ⟨hshown, -⟩ := effect_of_completes (exec_ethLinkChange ..) (by decide) rfl hup
  rw [getF_link_effEthLinkChange_up, isF, hen] at hshown
  exact absurd hshown (by decide)

end

section
/-! PROOFS. What stands of the PTP state when other parts of the engine act (R355–R359): the PTP ports, the clock and its steps, and the
register fields that an effect does not name. -/
namespace Sys2Proof.Machine

/-! ### The PTP state stands -/

/-- The PTP ports, the local clock and its steps stand, and so does each register field outside the list. -/
structure KeepsPtp (fs : List Fld) (e e' : Engine) : Prop where
  inst : e'.ptp.inst = e.ptp.inst
  time : e'.ptp.time = e.ptp.time
  step : e'.ptp.step = e.ptp.step
  rewrite : e'.ptp.rewrite = e.ptp.rewrite
  getF : ∀ g, g ∉ fs → ∀ j, getF g j e' = getF g j e

namespace KeepsPtp
variable {fs fs' : List Fld} {e e' e'' : Engine}

theorem refl (fs : List Fld) (e : Engine) : KeepsPtp fs e e := ⟨rfl, rfl, rfl, rfl, fun _ _ _ => rfl⟩

theorem trans (h : KeepsPtp fs e e') (h' : KeepsPtp fs e' e'') : KeepsPtp fs e e'' :=
  ⟨h'.inst.trans h.inst, h'.time.trans h.time, h'.step.trans h.step, h'.rewrite.trans h.rewrite,
    fun g hg j => (h'.getF g hg j).trans (h.getF g hg j)⟩

theorem mono (h : KeepsPtp fs e e') (hfs : fs ⊆ fs') : KeepsPtp fs' e e' :=
  ⟨h.inst, h.time, h.step, h.rewrite, fun g hg j => h.getF g (fun hin => hg (hfs hin)) j⟩

/-- A part of the state that is neither the PTP state nor a register field changes. -/
theorem of_regs (hp : e'.ptp = e.ptp) (hr : e'.regs = e.regs) : KeepsPtp fs e e' :=
  ⟨by rw [hp], by rw [hp], by rw [hp], by rw [hp], fun g _ j => getF_of_regs hr g j⟩

theorem setF {f : Fld} (h : f ∈ fs) (i v : Nat) (e : Engine) : KeepsPtp fs e (setF f i v e) :=
  ⟨rfl, rfl, rfl, rfl, fun _ hg j => getF_setF_of_ne (by rintro rfl; exact hg h) i j v e⟩

theorem postEvent (h : eventFlds ⊆ fs) (code : Nat) (payload : List Nat) (e : Engine) : KeepsPtp fs e (postEvent code payload e) := by
  refine ⟨by rw [postEvent_ptp], by rw [postEvent_ptp], by rw [postEvent_ptp], by rw [postEvent_ptp], fun g hg j => ?_⟩
  refine getF_postEvent ?_ j code payload e
  simpa using fun hin => hg (h hin)

theorem foldl {α : Type} {f : Engine → α → Engine} (h : ∀ b a, KeepsPtp fs b (f b a)) (l : List α) (e : Engine) :
    KeepsPtp fs e (l.foldl f e) :=
  List.foldlRecOn (motive := KeepsPtp fs e) l f (.refl fs e) fun b hb a _ => hb.trans (h b a)

theorem getInst_eq (h : KeepsPtp fs e e') (i : Nat) : getInst e' i = getInst e i := by rw [getInst, getInst, h.inst]

theorem ptpState_eq (h : KeepsPtp fs e e') (h0 : Fld.PTP_STAT_STATE0 ∉ fs) (h1 : Fld.PTP_STAT_STATE1 ∉ fs) (i : Nat) :
    ptpState e' i = ptpState e i := by
  unfold ptpState
  split
  · exact h.getF _ h0 0
  · exact h.getF _ h1 0

end KeepsPtp

/-! ### Reference slots and the DPLL -/

/-- The register fields that the loss of a slot's signal may write: those of the slot, of the DPLL, and of the domains on a word clock. -/
def slotFlds : List Fld :=
  [.CLK_REFSTAT_LOSS, .CLK_REFSTAT_PRESENT, .CLK_REFSTAT_EQL, .CLK_REFSTAT_BQL, .CLK_REFSTAT_QUAL, .CLK_REFSTAT_WTRREM, .CLK_REFSTAT_ELIG,
    .CLK_REFRATE_CAUSE, .CLK_STAT_OUTQL, .CLK_STAT_STATE, .CLK_STAT_PHASE, .CLK_STAT_SELV, .CLK_STAT_PENDV, .CLK_HOFREQ_HOFREQ,
    .ROUTE_FN_STAT_LOST, .ROUTE_FN_STAT_PRESENT] ++ eventFlds

theorem refreshOutQl_keepsPtp (e : Engine) : KeepsPtp slotFlds e (refreshOutQl e) := by
  unfold refreshOutQl
  refine .trans (e' := ite ..) ?_ (.setF (by decide) ..)
  split <;> exact .of_regs rfl rfl

theorem evalSlot_keepsPtp (e : Engine) (n : Nat) : KeepsPtp slotFlds e (evalSlot e n) := by
  unfold evalSlot
  extract_lets e1 b q e2 cause e3 was w slot up down shown judged elig
  have hheard : KeepsPtp slotFlds e e1 := by
    unfold e1
    split
    · exact .trans (.setF (by decide) ..) (.setF (by decide) ..)
    · exact .refl ..
  have hlevels : KeepsPtp slotFlds e1 e2 := .trans (.setF (by decide) ..) (.setF (by decide) ..)
  have hcause : KeepsPtp slotFlds e2 e3 := by
    unfold e3
    split
    · exact .setF (by decide) ..
    · exact .refl ..
  have hslot (v : RefSlot) : KeepsPtp slotFlds e3 (setSlot n v e3) := .of_regs rfl (setSlot_regs ..)
  have hup : KeepsPtp slotFlds e3 up := (hslot _).trans (.trans (.setF (by decide) ..) (.setF (by decide) ..))
  have hdown : KeepsPtp slotFlds e3 down := (hslot _).trans (.trans (.setF (by decide) ..) (.setF (by decide) ..))
  have hshown : KeepsPtp slotFlds down shown := by
    unfold shown
    split
    · exact .refl ..
    · exact .setF (by decide) ..
  have hjudged : KeepsPtp slotFlds e3 judged := by
    unfold judged
    split
    · exact hup.trans (.postEvent (by decide) ..)
    split
    · exact (hdown.trans hshown).trans (.postEvent (by decide) ..)
    · exact .refl ..
  exact (((hheard.trans hlevels).trans hcause).trans hjudged).trans (.trans (.setF (by decide) ..) (refreshOutQl_keepsPtp _))

theorem evalSlots_keepsPtp (e : Engine) : KeepsPtp slotFlds e (allSlots.foldl evalSlot e) := .foldl evalSlot_keepsPtp ..

theorem enterDpll_none_keepsPtp (st ph : Nat) (e : Engine) : KeepsPtp slotFlds e (enterDpll st ph none e) := by
  unfold enterDpll
  extract_lets was e1 e2 e3
  have h1 : KeepsPtp slotFlds e e1 := .trans (.setF (by decide) ..) (.setF (by decide) ..)
  have h2 : KeepsPtp slotFlds e1 e2 := .setF (by decide) ..
  have h3 : KeepsPtp slotFlds e2 e3 := .trans (e' := refreshLoop e2) (.of_regs rfl rfl) (refreshOutQl_keepsPtp _)
  split
  · exact (h1.trans h2).trans h3
  · exact ((h1.trans h2).trans h3).trans (.postEvent (by decide) ..)

theorem enterHold_keepsPtp (e : Engine) : KeepsPtp slotFlds e (enterHold e) := by
  unfold enterHold
  split
  · exact .trans (.trans (.setF (f := .CLK_STAT_PENDV) (by decide) ..) (enterDpll_none_keepsPtp ..)) (.of_regs rfl rfl)
  extract_lets f e1
  have h1 : KeepsPtp slotFlds e e1 := .trans (e' := setGoal (some f) e) (.of_regs rfl rfl) (.setF (by decide) ..)
  split
  · exact h1
  · exact h1.trans (.trans (.setF (by decide) ..) (enterDpll_none_keepsPtp ..))

theorem effLossOfSignal_keepsPtp (n : Nat) (e : Engine) : KeepsPtp slotFlds e (effLossOfSignal n e) := by
  have hlost (e : Engine) : KeepsPtp slotFlds e (wordLost n e) :=
    .foldl (fun _ _ => .trans (.setF (f := .ROUTE_FN_STAT_PRESENT) (by decide) ..) (.setF (f := .ROUTE_FN_STAT_LOST) (by decide) ..)) ..
  have hcheck (e : Engine) : KeepsPtp slotFlds e (checkLocked e) := by
    unfold checkLocked
    split
    · exact enterHold_keepsPtp e
    · exact .refl ..
  unfold effLossOfSignal
  split
  · refine .trans (.trans (.trans ?_ (evalSlot_keepsPtp ..)) (hcheck _)) (hlost _)
    exact .trans (e' := setSlot n { getSlot e n with ofs := [] } e) (.of_regs rfl (setSlot_regs ..))
      (.trans (.setF (by decide) ..) (.setF (by decide) ..))
  · exact .refl ..

/-! ### The timekeeper and the state of a PTP port -/

/-- The register fields of the timekeeper: who it is, the discipline and INCR. -/
def keeperFlds : List Fld := [.PTP_STAT_DISC, .PTP_STAT_TK, .PTP_STAT_TKV, .PTP_INCR_LO_INCR, .PTP_INCR_HI_INCR]

theorem setIncr_keepsPtp (v : Nat) (e : Engine) : KeepsPtp keeperFlds e (setIncr v e) := .trans (.setF (by decide) ..) (.setF (by decide) ..)

theorem refreshPtp_keepsPtp (e : Engine) : KeepsPtp keeperFlds e (refreshPtp e) := by
  unfold refreshPtp
  extract_lets tk disc e1 e2
  have h1 : KeepsPtp keeperFlds e e1 := .trans (.trans (.setF (by decide) ..) (.setF (by decide) ..)) (.setF (by decide) ..)
  have h2 : KeepsPtp keeperFlds e1 e2 := by
    unfold e2
    split
    · exact setIncr_keepsPtp ..
    · exact .refl ..
  split
  · exact (h1.trans h2).trans ⟨rfl, rfl, rfl, rfl, fun _ _ _ => rfl⟩
  · exact h1.trans h2

/-- The register fields that a change of a PTP port's state may write. -/
def stateFlds : List Fld := [.PTP_STAT_STATE0, .PTP_STAT_STATE1] ++ eventFlds

theorem setPtpState_keepsPtp (i st : Nat) (e : Engine) : KeepsPtp stateFlds e (setPtpState i st e) := by
  unfold setPtpState
  split
  · exact .refl ..
  · refine .trans (.setF ?_ ..) (.postEvent (by decide) ..)
    split <;> decide

theorem setPtpState_self (i : Nat) (e : Engine) : setPtpState i (ptpState e i) e = e := if_pos rfl

/-- A PTP port shows the state that it enters. -/
theorem ptpState_setPtpState (i : Nat) {st : Nat} (h : st < 2 ^ 8) (e : Engine) : ptpState (setPtpState i st e) i = st := by
  unfold setPtpState
  split
  · assumption
  · rw [ptpState, getF_postEvent (by split <;> decide), getF_setF_self]
    split <;> exact Nat.mod_eq_of_lt h

theorem ptpState_refreshPtp (i : Nat) (e : Engine) : ptpState (refreshPtp e) i = ptpState e i :=
  (refreshPtp_keepsPtp e).ptpState_eq (by decide) (by decide) i

/-- The best-master choice without a master seen (R358). -/
theorem ptpState_chooseMaster_of_none {i : Nat} {e : Engine} (h : (getInst e i).master = none) :
    ptpState (chooseMaster i e) i = if instMaster (getInst e i) = true then 6 else 4 := by
  simp only [chooseMaster, h, Bool.and_true]
  rw [ptpState_refreshPtp, ptpState_setPtpState]
  split <;> decide

/-- The best-master choice between the master seen and the PTP port's own dataset (R358). -/
theorem ptpState_chooseMaster_of_some {i : Nat} {e : Engine} {a : Announce} (h : (getInst e i).master = some a) :
    ptpState (chooseMaster i e) i
      = if instMaster (getInst e i) = true ∧ lexLt (dataList (ownData e i)) (dataList a) = true then 6 else if ptpState e i = 9 then 9 else 8 := by
  simp only [chooseMaster, h, Bool.and_eq_true]
  rw [ptpState_refreshPtp, ptpState_setPtpState]
  split
  · decide
  · split <;> decide

theorem getInst_chooseMaster (i j : Nat) (e : Engine) : getInst (chooseMaster i e) j = getInst e j :=
  ((refreshPtp_keepsPtp _).getInst_eq j).trans ((setPtpState_keepsPtp ..).getInst_eq j)

end Sys2Proof.Machine
end

section
/-! PROOFS. What an Announce and the end of the announcements do to a PTP port (R358, R359). -/
namespace Sys2Proof.Machine

/-! ### The PTP port's own dataset -/

/-- The register fields that a PTP port announces as master. -/
def ownFlds : List Fld :=
  [.CLK_PTPQL_EN, .CLK_PTPQL_QL, .CLK_PTPQL_CLASS, .CLK_PTPQL_ACCMAX, .CLK_STAT_OUTQL, .NET_MACHI_MAC, .NET_MACLO_MAC]

theorem ownData_congr {e e' : Engine} {i : Nat} (hw : (getInst e' i).w0 = (getInst e i).w0)
    (hf : ∀ g ∈ ownFlds, ∀ j, getF g j e' = getF g j e) : ownData e' i = ownData e i := by
  simp only [ownFlds, List.forall_mem_cons] at hf
  obtain ⟨hen, hql, hclass, hacc, hout, hhi, hlo, -⟩ := hf
  simp only [ownData, ownQuality, clockId, isF, hw, hen, hql, hclass, hacc, hout, hhi, hlo]

/-! ### An Announce -/

section
variable {e : Engine} {i : Nat} {a : Announce}

/-- The announced dataset is news of the master seen, or better than it. -/
def betterThanSeen (e : Engine) (i : Nat) (a : Announce) : Prop :=
  ∀ m, (getInst e i).master = some m → m.gm = a.gm ∨ lexLt (dataList a) (dataList m) = true

/-- The PTP port sees the announced grandmaster already. -/
abbrev seesMaster (e : Engine) (i : Nat) (a : Announce) : Prop := ∃ m, (getInst e i).master = some m ∧ m.gm = a.gm

/-- The announced dataset is that of the PTP port's master. -/
def takeMaster (i : Nat) (a : Announce) (e : Engine) : Engine := setInst i { getInst e i with master := some a, big := false } e

/-- A slave leaves SLAVE for UNCALIBRATED with a new grandmaster. -/
def leaveSlave (i : Nat) (new : Bool) (e : Engine) : Engine := if new = true ∧ ptpState e i = 9 then setPtpState i 8 e else e

theorem leaveSlave_keepsPtp (i : Nat) (new : Bool) (e : Engine) : KeepsPtp stateFlds e (leaveSlave i new e) := by
  unfold leaveSlave
  split
  · exact setPtpState_keepsPtp ..
  · exact .refl ..

/-- Only a slave of the same grandmaster is a slave after it. -/
theorem ptpState_leaveSlave_eq_slave (i : Nat) (new : Bool) (e : Engine) :
    ptpState (leaveSlave i new e) i = 9 ↔ ptpState e i = 9 ∧ new = false := by
  unfold leaveSlave
  split
  · next h => simp [ptpState_setPtpState, h]
  · next h => cases new <;> simp_all

theorem effAnnounceReceived_of_idle (h : instEn (getInst e i) = false ∨ supUp e = false) : effAnnounceReceived i a e = e := by
  rw [effAnnounceReceived, if_pos (by simpa using h)]

theorem effAnnounceReceived_of_worse (h : ¬ betterThanSeen e i a) : effAnnounceReceived i a e = e := by
  obtain ⟨m, hm, hworse⟩ : ∃ m, (getInst e i).master = some m ∧ ¬ (m.gm = a.gm ∨ lexLt (dataList a) (dataList m) = true) := by
    simpa [betterThanSeen] using h
  have hnot : (m.gm == a.gm || lexLt (dataList a) (dataList m)) = false := by simpa using hworse
  simp only [effAnnounceReceived, hm, hnot, Bool.not_false, if_true, ite_self]

theorem effAnnounceReceived_of_better (hen : instEn (getInst e i) = true) (hup : supUp e = true) (h : betterThanSeen e i a) :
    ∃ new, (new = false ↔ seesMaster e i a) ∧
      effAnnounceReceived i a e = allSlots.foldl evalSlot (chooseMaster i (leaveSlave i new (takeMaster i a e))) := by
  cases hm : (getInst e i).master with
  | none =>
    refine ⟨true, by simp [seesMaster, hm], ?_⟩
    simp only [effAnnounceReceived, leaveSlave, takeMaster, hen, hup, hm, Bool.not_true, Bool.or_self, Bool.false_eq_true, if_false]
  | some m =>
    refine ⟨m.gm != a.gm, by simp [seesMaster, hm], ?_⟩
    have hbetter : (m.gm == a.gm || lexLt (dataList a) (dataList m)) = true := by simpa using h m hm
    simp only [effAnnounceReceived, leaveSlave, takeMaster, hen, hup, hm, hbetter, Bool.not_true, Bool.or_self, Bool.false_eq_true, if_false]
    congr

/-- A better Announce, or news of the present master, is taken, and the best-master choice gives the state (R358). -/
theorem effAnnounceReceived_takes (hen : instEn (getInst e i) = true) (hup : supUp e = true) (h : betterThanSeen e i a) :
    (getInst (effAnnounceReceived i a e) i).master = some a ∧ (getInst (effAnnounceReceived i a e) i).w0 = (getInst e i).w0
      ∧ ptpState (effAnnounceReceived i a e) i
        = if instMaster (getInst e i) = true ∧ lexLt (dataList (ownData e i)) (dataList a) = true then 6
          else if ptpState e i = 9 ∧ seesMaster e i a then 9 else 8 := by
  obtain ⟨new, hnew, heq⟩ := effAnnounceReceived_of_better hen hup h
  have hleave := leaveSlave_keepsPtp i new (takeMaster i a e)
  have hinst : getInst (leaveSlave i new (takeMaster i a e)) i = { getInst e i with master := some a, big := false } :=
    (hleave.getInst_eq i).trans (getInst_setInst_self ..)
  have hown : ownData (leaveSlave i new (takeMaster i a e)) i = ownData e i := by
    have hother : ∀ g ∈ ownFlds, g ∉ stateFlds := by decide
    exact ownData_congr (by rw [hinst]) fun g hg j => (hleave.getF g (hother g hg) j).trans (setInst_getF ..)
  have hslots := evalSlots_keepsPtp (chooseMaster i (leaveSlave i new (takeMaster i a e)))
  rw [heq, hslots.getInst_eq, getInst_chooseMaster, hinst, hslots.ptpState_eq (by decide) (by decide),
    ptpState_chooseMaster_of_some (congrArg PtpInst.master hinst)]
  refine ⟨rfl, rfl, ?_⟩
  simp only [ptpState_leaveSlave_eq_slave, hown, hinst, hnew]
  rfl

/-! ### The announcements end -/

theorem effAnnounceReceiptTimeout_of_idle (h : instEn (getInst e i) = false ∨ supUp e = false ∨ (getInst e i).master = none) :
    effAnnounceReceiptTimeout i e = e := by
  rw [effAnnounceReceiptTimeout, if_neg]
  rintro ⟨hen, hm, hup⟩
  rcases h with h | h | h <;> simp_all

/-- The PTP port leaves its master, for MASTER or for LISTENING (R359). -/
theorem effAnnounceReceiptTimeout_leaves (hen : instEn (getInst e i) = true) (hup : supUp e = true) (hm : (getInst e i).master ≠ none) :
    (getInst (effAnnounceReceiptTimeout i e) i).master = none
      ∧ ptpState (effAnnounceReceiptTimeout i e) i = if instMaster (getInst e i) = true then 6 else 4 := by
  let left := setInst i { getInst e i with master := none, big := false } e
  have heq : effAnnounceReceiptTimeout i e = allSlots.foldl evalSlot (chooseMaster i left) :=
    if_pos ⟨hen, Option.isSome_iff_ne_none.2 hm, hup⟩
  have hinst : getInst left i = { getInst e i with master := none, big := false } := getInst_setInst_self ..
  have hslots := evalSlots_keepsPtp (chooseMaster i left)
  rw [heq, hslots.getInst_eq, getInst_chooseMaster, hinst, hslots.ptpState_eq (by decide) (by decide),
    ptpState_chooseMaster_of_none (congrArg PtpInst.master hinst), hinst]
  exact ⟨rfl, rfl⟩

end

end Sys2Proof.Machine
end

section
/-! PROOFS. What a Sync does to a PTP port and, when the PTP port keeps the time, to the local clock (R355, R360, R362). -/
namespace Sys2Proof.Machine

/-! ### The timekeeper -/

/-- The register fields that decide which PTP port keeps the time (R355). -/
def choiceFlds : List Fld :=
  [.CLK_STAT_STATE, .CLK_STAT_SEL, .CLK_REFCFG_EN, .CLK_REFCFG_TYPE, .CLK_REFCFG_INST, .CLK_REFSTAT_EQL, .PTP_STAT_STATE0, .PTP_STAT_STATE1]

theorem timekeeper_congr {e e' : Engine} (hf : ∀ g ∈ choiceFlds, ∀ j, getF g j e' = getF g j e) :
    timekeeper e' = timekeeper e ∧ coupled e' = coupled e := by
  simp only [choiceFlds, List.forall_mem_cons] at hf
  obtain ⟨hst, hsel, hen, hty, hinst, heql, h0, h1, -⟩ := hf
  have hstate (i : Nat) : ptpState e' i = ptpState e i := by
    unfold ptpState
    split
    · exact h0 0
    · exact h1 0
  have hcoupled : coupled e' = coupled e := by simp only [coupled, dpllIn, refType, selSlot, hst, hsel, hty]
  have hslot (i : Nat) : slotOfInst e' i = slotOfInst e i := by simp only [slotOfInst, refEn, refType, refInst, isF, hen, hty, hinst]
  have hlevel (i : Nat) : instEql e' i = instEql e i := by simp only [instEql, hslot, heql]
  refine ⟨?_, hcoupled⟩
  simp only [timekeeper, isSlave, hcoupled, hstate, hlevel, refInst, selSlot, hinst, hsel]
  congr

theorem KeepsPtp.timekeeper_eq {fs : List Fld} {e e' : Engine} (h : KeepsPtp fs e e') (hfs : ∀ g ∈ choiceFlds, g ∉ fs) :
    timekeeper e' = timekeeper e ∧ coupled e' = coupled e :=
  timekeeper_congr fun g hg => h.getF g (hfs g hg)

/-! ### The PTP port hears the Sync -/

section
variable {e : Engine} {i : Nat} {o : Int} {l : Bool}

/-- An enabled PTP port with a master, in UNCALIBRATED or SLAVE, follows Syncs while the supervisor runs. -/
structure Follows (e : Engine) (i : Nat) : Prop where
  en : instEn (getInst e i) = true
  up : supUp e = true
  master : (getInst e i).master ≠ none
  state : ptpState e i = 8 ∨ ptpState e i = 9

/-- The Sync's offset is shown; a servo that reports locked makes the PTP port a slave, one that does not loses its slot's signal. -/
def hearSync (i : Nat) (o : Int) (l : Bool) (e : Engine) : Engine :=
  if l then refreshPtp (setPtpState i 9 (setF .PTP_OFS_OFS i (satField 32 o) e))
  else (slotOfInst (setF .PTP_OFS_OFS i (satField 32 o) e) i).elim (setF .PTP_OFS_OFS i (satField 32 o) e)
    fun n => effLossOfSignal n (setF .PTP_OFS_OFS i (satField 32 o) e)

/-- The phase error that a coupled DPLL takes from the timekeeper, and what the servo reports. -/
def reportSync (o : Int) (l : Bool) (e : Engine) : Engine :=
  let e := if coupled e then setF .CLK_PHERR_PHERR 0 (satField 32 (1000 * o)) e else e
  { e with ptp := { e.ptp with locked := l, everLocked := e.ptp.everLocked || l, mapped := e.ptp.mapped && !(l && !e.ptp.everLocked) } }

/-- The servo's turn, or the count of offsets beyond 1 ms (R362). -/
def judgeSync (i : Nat) (o : Int) (e : Engine) : Engine :=
  if o.natAbs ≤ 1000000 then
    if coupled (setInst i { getInst e i with big := false } e) then setInst i { getInst e i with big := false } e
    else servoIncr (setInst i { getInst e i with big := false } e)
  else if (getInst e i).big then
    setInst i { getInst e i with big := false } { e with ptp := { e.ptp with step := some o } }
  else setInst i { getInst e i with big := true } e

theorem effSyncReceived_of_idle (h : instEn (getInst e i) = false ∨ supUp e = false ∨ (getInst e i).master = none
    ∨ ptpState e i ≠ 8 ∧ ptpState e i ≠ 9) : effSyncReceived i o l e = e := by
  rw [effSyncReceived, if_pos]
  rcases h with h | h | h | ⟨h, h'⟩ <;> simp [*]

theorem effSyncReceived_eq (h : Follows e i) :
    effSyncReceived i o l e = if timekeeper (hearSync i o l e) = some i then judgeSync i o (reportSync o l (hearSync i o l e))
      else hearSync i o l e := by
  obtain ⟨hen, hup, hm, hst⟩ := h
  have hgo : ¬ (!instEn (getInst e i) || (getInst e i).master.isNone || !(ptpState e i == 8 || ptpState e i == 9) || !supUp e) = true := by
    rcases hst with hst | hst <;> simp [hen, hup, hm, hst]
  unfold effSyncReceived
  simp only [if_neg hgo, ite_not]
  rfl

/-! ### What the PTP port shows -/

theorem slotOfInst_setOfs (i v j : Nat) (e : Engine) : slotOfInst (setF .PTP_OFS_OFS i v e) j = slotOfInst e j := by
  simp [slotOfInst, refEn, refType, refInst, isF]

theorem setOfs_keepsPtp (i v : Nat) (e : Engine) : KeepsPtp [.PTP_OFS_OFS] e (setF .PTP_OFS_OFS i v e) := .setF (by decide) ..

theorem getF_ofs_hearSync : getF .PTP_OFS_OFS i (hearSync i o l e) = satField 32 o % 2 ^ 32 := by
  have hself : getF .PTP_OFS_OFS i (setF .PTP_OFS_OFS i (satField 32 o) e) = satField 32 o % 2 ^ 32 := getF_setF_self ..
  unfold hearSync
  split
  · rw [(refreshPtp_keepsPtp _).getF _ (by decide), (setPtpState_keepsPtp ..).getF _ (by decide), hself]
  · cases slotOfInst (setF .PTP_OFS_OFS i (satField 32 o) e) i with
    | none => exact hself
    | some n => exact ((effLossOfSignal_keepsPtp n _).getF _ (by decide) i).trans hself

theorem ptpState_hearSync : ptpState (hearSync i o l e) i = if l = true then 9 else ptpState e i := by
  have hofs := (setOfs_keepsPtp i (satField 32 o) e).ptpState_eq (by decide) (by decide) i
  unfold hearSync
  split
  · rw [ptpState_refreshPtp, ptpState_setPtpState i (by decide)]
  · cases slotOfInst (setF .PTP_OFS_OFS i (satField 32 o) e) i with
    | none => exact hofs
    | some n => exact ((effLossOfSignal_keepsPtp n _).ptpState_eq (by decide) (by decide) i).trans hofs

/-- A slave whose slot keeps its signal hears a Sync with no more than the timekeeper's registers and its offset. -/
theorem hearSync_keepsPtp (h9 : ptpState e i = 9) (h : l = true ∨ slotOfInst e i = none) :
    KeepsPtp (.PTP_OFS_OFS :: keeperFlds) e (hearSync i o l e) := by
  have hofs := setOfs_keepsPtp i (satField 32 o) e
  have hstate : ptpState (setF .PTP_OFS_OFS i (satField 32 o) e) i = 9 := (hofs.ptpState_eq (by decide) (by decide) i).trans h9
  have hofs' := hofs.mono (fs' := .PTP_OFS_OFS :: keeperFlds) (by decide)
  unfold hearSync
  split
  · have hslave := setPtpState_self i (setF .PTP_OFS_OFS i (satField 32 o) e)
    rw [hstate] at hslave
    rw [hslave]
    exact hofs'.trans ((refreshPtp_keepsPtp _).mono (by decide))
  · next hl =>
    rw [slotOfInst_setOfs, h.resolve_left hl]
    exact hofs'

theorem reportSync_keepsPtp (o : Int) (l : Bool) (e : Engine) : KeepsPtp [.CLK_PHERR_PHERR] e (reportSync o l e) := by
  unfold reportSync
  extract_lets e1
  have h1 : KeepsPtp [.CLK_PHERR_PHERR] e e1 := by
    unfold e1
    split
    · exact .setF (by decide) ..
    · exact .refl ..
  exact h1.trans ⟨rfl, rfl, rfl, rfl, fun _ _ _ => rfl⟩

theorem getF_pherr_reportSync (h : coupled e = true) : getF .CLK_PHERR_PHERR 0 (reportSync o l e) = satField 32 (1000 * o) % 2 ^ 32 := by
  rw [reportSync, if_pos h]
  exact getF_setF_self ..

theorem servoIncr_ptp (e : Engine) : (servoIncr e).ptp = e.ptp := rfl

theorem getF_judgeSync {g : Fld} (hg : g ∉ keeperFlds) (j i : Nat) (o : Int) (e : Engine) : getF g j (judgeSync i o e) = getF g j e := by
  unfold judgeSync
  split
  · split
    · exact setInst_getF ..
    · exact (setIncr_keepsPtp ..).getF g hg j
  · split <;> rfl

theorem ptpState_judgeSync (i j : Nat) (o : Int) (e : Engine) : ptpState (judgeSync i o e) j = ptpState e j := by
  unfold ptpState
  split <;> exact getF_judgeSync (by decide) ..

theorem judgeSync_locked (i : Nat) (o : Int) (e : Engine) : (judgeSync i o e).ptp.locked = e.ptp.locked := by
  unfold judgeSync
  split
  · split
    · rfl
    · rw [servoIncr_ptp]; rfl
  · split <;> rfl

/-- An offset within 1 ms ends the count. -/
theorem judgeSync_of_small (h : o.natAbs ≤ 1000000) :
    (getInst (judgeSync i o e) i).big = false ∧ (judgeSync i o e).ptp.step = e.ptp.step := by
  have hinst : getInst (setInst i { getInst e i with big := false } e) i = { getInst e i with big := false } := getInst_setInst_self ..
  rw [judgeSync, if_pos h]
  split
  · exact ⟨congrArg PtpInst.big hinst, rfl⟩
  · rw [getInst, servoIncr_ptp]
    exact ⟨congrArg PtpInst.big hinst, rfl⟩

/-- The first offset beyond 1 ms is counted, and the second asks for a step (R362). -/
theorem judgeSync_of_large (h : 1000000 < o.natAbs) :
    (getInst (judgeSync i o e) i).big = !(getInst e i).big
      ∧ (judgeSync i o e).ptp.step = if (getInst e i).big = true then some o else e.ptp.step := by
  rw [judgeSync, if_neg (Nat.not_le.2 h)]
  split
  · next hbig => rw [getInst_setInst_self, hbig]; exact ⟨rfl, rfl⟩
  · next hbig => rw [getInst_setInst_self, Bool.eq_false_iff.2 hbig]; exact ⟨rfl, rfl⟩

/-! ### A Sync -/

/-- The offset is shown, and a servo that reports locked makes the PTP port a slave. -/
theorem effSyncReceived_shows (h : Follows e i) : getF .PTP_OFS_OFS i (effSyncReceived i o l e) = satField 32 o % 2 ^ 32
    ∧ ptpState (effSyncReceived i o l e) i = if l = true then 9 else ptpState e i := by
  rw [effSyncReceived_eq h]
  split
  · have hreport := reportSync_keepsPtp o l (hearSync i o l e)
    rw [getF_judgeSync (by decide), hreport.getF _ (by decide), ptpState_judgeSync, hreport.ptpState_eq (by decide) (by decide)]
    exact ⟨getF_ofs_hearSync, ptpState_hearSync⟩
  · exact ⟨getF_ofs_hearSync, ptpState_hearSync⟩

section
variable (h : Follows e i) (h9 : ptpState e i = 9) (hs : l = true ∨ slotOfInst e i = none)
include h h9 hs

/-- A slave that does not keep the time asks for no step. -/
theorem effSyncReceived_of_other (htk : timekeeper e ≠ some i) : (effSyncReceived i o l e).ptp.step = e.ptp.step
    ∧ (getInst (effSyncReceived i o l e) i).big = (getInst e i).big := by
  have hhear := hearSync_keepsPtp (o := o) h9 hs
  rw [effSyncReceived_eq h, if_neg (by rwa [(hhear.timekeeper_eq (by decide)).1]), hhear.getInst_eq]
  exact ⟨hhear.step, rfl⟩

theorem effSyncReceived_of_timekeeper (htk : timekeeper e = some i) :
    (effSyncReceived i o l e).ptp.locked = l
    ∧ (coupled e = true → getF .CLK_PHERR_PHERR 0 (effSyncReceived i o l e) = satField 32 (1000 * o) % 2 ^ 32)
    ∧ (o.natAbs ≤ 1000000 → (getInst (effSyncReceived i o l e) i).big = false ∧ (effSyncReceived i o l e).ptp.step = e.ptp.step)
    ∧ (1000000 < o.natAbs → (getInst (effSyncReceived i o l e) i).big = !(getInst e i).big
      ∧ (effSyncReceived i o l e).ptp.step = if (getInst e i).big = true then some o else e.ptp.step) := by
  have hhear := hearSync_keepsPtp (o := o) h9 hs
  have hreport := reportSync_keepsPtp o l (hearSync i o l e)
  obtain ⟨hkeeper, hcoupled⟩ := hhear.timekeeper_eq (by decide)
  have hinst : getInst (reportSync o l (hearSync i o l e)) i = getInst e i := (hreport.getInst_eq i).trans (hhear.getInst_eq i)
  have hstep : (reportSync o l (hearSync i o l e)).ptp.step = e.ptp.step := hreport.step.trans hhear.step
  rw [effSyncReceived_eq h, if_pos (hkeeper.trans htk)]
  refine ⟨judgeSync_locked .., fun hc => ?_, fun hsmall => ?_, fun hlarge => ?_⟩
  · rw [getF_judgeSync (by decide), getF_pherr_reportSync (hcoupled.trans hc)]
  · rw [← hstep]
    exact judgeSync_of_small hsmall
  · rw [← hstep, ← hinst]
    exact judgeSync_of_large hlarge

end

end

end Sys2Proof.Machine
end

section
/-! PROOFS. A step of the local clock (R362, R365), and the capture and pulse pins (R357). -/
namespace Sys2Proof.Machine

/-! ### Pulses -/

/-- A pulse that fires leaves the clock and the PTP ports, and of the registers writes ACT. -/
theorem firePulse_keepsPtp (n : Nat) (p : Pulse) (e : Engine) : KeepsPtp [.PTP_PULSE_ACT] e (firePulse n p e) := by
  unfold firePulse
  extract_lets fired e1 q
  have h1 : KeepsPtp [.PTP_PULSE_ACT] e e1 := by
    unfold e1
    split <;> exact ⟨rfl, rfl, rfl, rfl, fun _ _ _ => rfl⟩
  have h2 : KeepsPtp [.PTP_PULSE_ACT] e1 { e1 with ptp := { e1.ptp with pulses := tput none e1.ptp.pulses n q } } :=
    ⟨rfl, rfl, rfl, rfl, fun _ _ _ => rfl⟩
  exact (h1.trans h2).trans (.setF (by decide) ..)

theorem stepPulse_keepsPtp (now : Nat) (e : Engine) (n : Nat) : KeepsPtp [.PTP_PULSE_ACT] e (stepPulse now e n) := by
  unfold stepPulse
  split
  · split
    · split
      · exact firePulse_keepsPtp ..
      · exact .refl ..
    · exact ⟨rfl, rfl, rfl, rfl, fun _ _ _ => rfl⟩
  · exact .refl ..

/-- The channel's next edge after a pulse: none after a single one. -/
def afterPulse (p : Pulse) : Option Pulse := if p.period = 0 then none else some { p with next := p.next + p.period }

theorem tget_pulses_firePulse (n : Nat) (p : Pulse) (e : Engine) : tget none (firePulse n p e).ptp.pulses n = afterPulse p :=
  tget_tput_self ..

theorem bitF_act_firePulse {n : Nat} (hn : n < 4) (p : Pulse) (e : Engine) :
    bitF .PTP_PULSE_ACT 0 n (firePulse n p e) = (afterPulse p).isSome := by
  unfold firePulse
  rw [bitF_setBitF _ _ _ hn, if_pos rfl]
  rfl

theorem tget_fired_firePulse {n : Nat} {e : Engine} (h : bitF .SYS_GPIO_FUNC_FUNC 0 (4 + n) e = true) (p : Pulse) :
    tget (0, 0) (firePulse n p e).ptp.fired n = (p.next, p.next + p.width) := by
  simp only [firePulse, h, if_true]
  exact tget_tput_self ..

section
variable {n t : Nat} {e : Engine} {p : Pulse}

theorem effPulseFire_of_idle (h : tget none e.ptp.pulses n = none) : effPulseFire n t e = e := by
  simp only [effPulseFire, h]

theorem effPulseFire_of_early (h : tget none e.ptp.pulses n = some p) (hnow : clockNs e t + 8 < p.next) : effPulseFire n t e = e := by
  simp only [effPulseFire, h, if_neg (Nat.not_le.2 hnow)]

theorem effPulseFire_of_due (h : tget none e.ptp.pulses n = some p) (hnow : p.next ≤ clockNs e t + 8) :
    effPulseFire n t e = firePulse n p e := by
  simp only [effPulseFire, h, if_pos hnow]

end

/-! ### Captures -/

theorem effCaptureEdge_of_off {n t : Nat} {e : Engine} (h : bitF .SYS_GPIO_FUNC_FUNC 0 n e = false) : effCaptureEdge n t e = e := by
  rw [effCaptureEdge, h]; rfl

theorem within_bounds (kind : Nat) (x c : Int) {w : Int} (hw : 0 ≤ w) : c - w ≤ within kind x c w ∧ within kind x c w ≤ c + w := by
  unfold within clamp
  omega

/-- A capture shows the clock within 4 ns, in whole seconds and the ns beyond them (R357). -/
theorem effCaptureEdge_captures {n t : Nat} {e : Engine} (h : bitF .SYS_GPIO_FUNC_FUNC 0 n e = true) (h4 : 4 ≤ clockNs e t)
    (hmax : clockNs e t < 10 ^ 18) :
    let v := 1000000000 * getF .PTP_CAP_S_CAP n (effCaptureEdge n t e) + getF .PTP_CAP_NS_CAP n (effCaptureEdge n t e)
    v ≤ clockNs e t + 4 ∧ clockNs e t ≤ v + 4 ∧ onlyFields [.PTP_CAP_S_CAP, .PTP_CAP_NS_CAP] e (effCaptureEdge n t e) := by
  obtain ⟨hlo, hhi⟩ := within_bounds 14 (t : Int) (clockNs e t : Int) (w := 4) (by decide)
  have heq : effCaptureEdge n t e = setF .PTP_CAP_S_CAP n ((within 14 (t : Int) (clockNs e t : Int) 4).toNat / 1000000000)
      (setF .PTP_CAP_NS_CAP n ((within 14 (t : Int) (clockNs e t : Int) 4).toNat % 1000000000) e) := if_pos h
  rw [heq]
  generalize within 14 (t : Int) (clockNs e t : Int) 4 = w at hlo hhi
  have hs : w.toNat / 1000000000 % 2 ^ 32 = w.toNat / 1000000000 := Nat.mod_eq_of_lt (by omega)
  have hns : w.toNat % 1000000000 % 2 ^ 32 = w.toNat % 1000000000 := Nat.mod_eq_of_lt (by omega)
  rw [getF_setF_self, getF_setF_of_ne (by decide), getF_setF_self, Fld.width_PTP_CAP_S_CAP, Fld.width_PTP_CAP_NS_CAP, hs, hns,
    Nat.div_add_mod]
  refine ⟨by omega, by omega, fun g j hg => ?_, rfl⟩
  simp only [List.contains_cons, Bool.or_eq_false_iff, beq_eq_false_iff_ne] at hg
  rw [getF_setF_of_ne hg.1.symm, getF_setF_of_ne hg.2.1.symm]

/-! ### Queued host frames under a step -/

/-- The register fields that the host's transmit queue may write. -/
def htxFlds : List Fld := [.NET_STAT_LATE, .NET_HTX_HEAD_HEAD, .HOST_PCIE_STAT_OUTRNG]

theorem advanceHtx_keepsPtp (n : Nat) (e : Engine) : KeepsPtp htxFlds e (advanceHtx n e) := by
  induction n generalizing e with
  | zero => exact .refl ..
  | succ n ih =>
    unfold advanceHtx
    extract_lets h
    split
    · exact .trans (.setF (by decide) ..) (ih _)
    · exact .refl ..

theorem hostWrite64_keepsPtp (a : Nat) (v : Word64) (e : Engine) : KeepsPtp htxFlds e (hostWrite64 a v e) := by
  unfold hostWrite64
  cases hostAt e a 8 with
  | some b => exact .of_regs (writeBytes_ptp ..) (writeBytes_regs ..)
  | none => exact .setF (by decide) ..

theorem htxDone_keepsPtp (k status : Nat) (e : Engine) : KeepsPtp htxFlds e (htxDone k status e) := by
  unfold htxDone
  extract_lets a w w' q x e1 e2 e3
  have h1 : KeepsPtp htxFlds e e1 := by
    unfold e1
    split
    · exact .of_regs rfl rfl
    · exact .refl ..
  have h2 : KeepsPtp htxFlds e1 e2 := .trans (hostWrite64_keepsPtp ..) (.setF (by decide) ..)
  have h3 : KeepsPtp htxFlds e2 e3 := by
    unfold e3
    split
    · exact .of_regs rfl rfl
    · exact .refl ..
  exact ((h1.trans h2).trans h3).trans (advanceHtx_keepsPtp ..)

theorem htxSend_keepsPtp (k status : Nat) (now : Int) (e : Engine) : KeepsPtp htxFlds e (htxSend k status now e) := by
  unfold htxSend
  extract_lets q buf n f x e1
  have h1 : KeepsPtp htxFlds e e1 := .of_regs rfl rfl
  split
  · exact htxDone_keepsPtp ..
  · refine .trans (e' := ite ..) ?_ (htxDone_keepsPtp ..)
    split
    · exact h1
    · exact h1.trans (.of_regs rfl rfl)

theorem stepHtx_keepsPtp (o : Int) (t : Nat) (e : Engine) : KeepsPtp htxFlds e (stepHtx o t e) := by
  refine .foldl (fun b k => ?_) _ _
  split
  · exact .refl ..
  split
  · split
    · exact htxDone_keepsPtp ..
    · exact .refl ..
  split
  · exact htxSend_keepsPtp ..
  · exact .refl ..

/-! ### A step of the clock -/

/-- The register fields of the clock's time, the pulses and the events. -/
def clockFlds : List Fld := [.PTP_TIME_SL_SL, .PTP_TIME_SH_SH, .PTP_TIME_NS_NS, .PTP_TIME_FR_FR, .PTP_PULSE_ACT] ++ eventFlds

/-- The clock as a step of `o` ns leaves it, with the mapping's rewrite due (R362, R363), before its registers show it. -/
def steppedClock (o : Int) (e : Engine) : Engine :=
  { e with ptp := { e.ptp with time := ((e.ptp.time : Int) + 2 ^ 32 * o).toNat, step := none, rewrite := some (2 ^ 32 * o) }
           net := { e.net with xmit := e.net.xmit.map fun p => (p.1, { p.2 with busy := p.2.busy + 100 * o, share := p.2.share + 100 * o }) } }

theorem showTime_keepsPtp (v : Nat) (e : Engine) : KeepsPtp clockFlds e (showTime v e) :=
  .trans (.trans (.setF (by decide) ..) (.setF (by decide) ..)) (.trans (.setF (by decide) ..) (.setF (by decide) ..))

/-- A step shows STEPS, and its registers, its event and its pulses leave the clock as stepped. -/
theorem stepClock_keepsPtp (o : Int) (t : Nat) (e : Engine) :
    KeepsPtp (.PTP_STAT_STEPS :: clockFlds) (steppedClock o e) (stepClock o t e) ∧ getF .PTP_STAT_STEPS 0 (stepClock o t e) = 1 := by
  let shown := setF .PTP_STAT_STEPS 0 1 (showTime ((e.ptp.time : Int) + 2 ^ 32 * o).toNat (steppedClock o e))
  have hshown : KeepsPtp (.PTP_STAT_STEPS :: clockFlds) (steppedClock o e) shown :=
    ((showTime_keepsPtp ..).mono (by decide)).trans (.setF (by decide) ..)
  have hrest : KeepsPtp clockFlds shown (stepClock o t e) :=
    .trans (.postEvent (by decide) ..) ((KeepsPtp.foldl (stepPulse_keepsPtp _) ..).mono (by decide))
  refine ⟨hshown.trans (hrest.mono (by decide)), (hrest.getF _ (by decide) 0).trans ?_⟩
  exact (getF_setF_self ..).trans (by decide)

theorem effTimeStep_of_idle {t : Nat} {e : Engine} (h : e.ptp.step = none ∨ supUp e = false) : effTimeStep t e = e := by
  unfold effTimeStep
  split
  · next o ho =>
    rcases h with h | h
    · exact absurd (h.symm.trans ho) (by simp)
    · rw [h]; rfl
  · rfl

/-- The supervisor moves the clock by the offset that two Syncs have confirmed (R362). -/
theorem effTimeStep_steps {t : Nat} {e : Engine} {o : Int} (h : e.ptp.step = some o) (hup : supUp e = true)
    (hpos : 0 ≤ (e.ptp.time : Int) + 2 ^ 32 * o) :
    ((effTimeStep t e).ptp.time : Int) = e.ptp.time + 2 ^ 32 * o ∧ (effTimeStep t e).ptp.step = none
      ∧ (effTimeStep t e).ptp.rewrite = some (2 ^ 32 * o) ∧ getF .PTP_STAT_STEPS 0 (effTimeStep t e) = 1 := by
  have heq : effTimeStep t e = stepHtx o t (stepClock o t e) := by simp only [effTimeStep, h, hup, if_true]
  obtain ⟨hclock, hsteps⟩ := stepClock_keepsPtp o t e
  have hhtx := stepHtx_keepsPtp o t (stepClock o t e)
  rw [heq, hhtx.time, hclock.time, hhtx.step, hclock.step, hhtx.rewrite, hclock.rewrite, hhtx.getF _ (by decide), hsteps]
  exact ⟨Int.toNat_of_nonneg hpos, rfl, rfl, rfl⟩

end Sys2Proof.Machine
end

section
/-! PROOFS. The PTP messages that a PTP port puts on its wire (R358, R359): their lengths, their sequence numbers, and the
follow-ups it owes. -/
namespace Sys2Proof.Machine

/-! ### Messages and the wire -/

@[simp] theorem length_beBytes (v n : Nat) : (beBytes v n).length = n := by rw [beBytes, List.length_reverse, length_leBytes]

@[simp] theorem length_ptpStamp (ns : Nat) : (ptpStamp ns).length = 10 := by simp [ptpStamp]

/-- A message is a header of 34 bytes and its body. -/
theorem length_ptpMsg (e : Engine) (i ty seq flags corr interval : Nat) (body : List Byte) :
    (ptpMsg e i ty seq flags corr interval body).length = 34 + body.length := by
  simp only [ptpMsg, List.length_append, List.length_cons, List.length_nil, length_beBytes]

@[simp] theorem putWire_regs (i t : Nat) (m : List Byte) (e : Engine) : (putWire i t m e).regs = e.regs := rfl
@[simp] theorem getInst_putWire (i t j : Nat) (m : List Byte) (e : Engine) : getInst (putWire i t m e) j = getInst e j := rfl
@[simp] theorem tget_wire_putWire (i t : Nat) (m : List Byte) (e : Engine) : tget [] (putWire i t m e).net.wire i = m := tget_tput_self ..

@[simp] theorem oweFollow_regs (i : Nat) (m : List Byte) (e : Engine) : (oweFollow i m e).regs = e.regs := rfl
@[simp] theorem oweFollow_net (i : Nat) (m : List Byte) (e : Engine) : (oweFollow i m e).net = e.net := rfl
@[simp] theorem getInst_oweFollow (i : Nat) (m : List Byte) (e : Engine) :
    getInst (oweFollow i m e) i = { getInst e i with follow := (getInst e i).follow ++ [m] } := getInst_setInst_self ..

/-- An answer counts in the PTP port, and leaves its record and what it owes. -/
theorem countAnswer_eq (i id t : Nat) (e : Engine) : ∃ p, countAnswer i id t e = setInst i p e
    ∧ p.w0 = (getInst e i).w0 ∧ p.w1 = (getInst e i).w1 ∧ p.follow = (getInst e i).follow := by
  unfold countAnswer
  extract_lets p s
  split <;> exact ⟨_, rfl, rfl, rfl, rfl⟩

theorem otherMay_setInst (i q : Nat) (v : PtpInst) (now w : Int) (e : Engine) : otherMay (setInst i v e) q now w = otherMay e q now w := rfl

/-- Whether a general message may start depends on its length, on the wire, and of the PTP port only on its record. -/
theorem generalMay_setInst {e : Engine} {i t : Nat} {v : PtpInst} {m m' : List Byte} (h0 : v.w0 = (getInst e i).w0)
    (h1 : v.w1 = (getInst e i).w1) (hlen : m'.length = m.length) : generalMay (setInst i v e) i t m' = generalMay e i t m := by
  have hbytes : ptpBytes (setInst i v e) i m' = ptpBytes e i m := by
    simp only [ptpBytes, instV6, getInst_setInst_self, h0, h1, hlen]
    congr
  rw [generalMay, hbytes, otherMay_setInst]
  rfl

section
variable {e : Engine} {i t : Nat}

/-! ### Sending -/

/-- A message that is sent stands on the wire, and the number of the next one of its type is one further. -/
theorem sendPtp_sends (i t ty flags interval : Nat) (body : List Byte) (e : Engine) :
    (tget [] (sendPtp i t ty flags interval body e).net.wire i).length = 34 + body.length
    ∧ tget 0 (getInst (sendPtp i t ty flags interval body e) i).seqs ty = (tget 0 (getInst e i).seqs ty + 1) % 2 ^ 16
    ∧ (sendPtp i t ty flags interval body e).regs = e.regs
    ∧ (getInst (sendPtp i t ty flags interval body e) i).follow = (getInst e i).follow := by
  unfold sendPtp
  extract_lets p q
  rw [tget_wire_putWire, length_ptpMsg, getInst_putWire, getInst_setInst_self, putWire_regs]
  exact ⟨rfl, tget_tput_self .., rfl, rfl⟩

/-- A two-step Sync owes its Follow_Up (R359). -/
theorem sendSync_sends (i t : Nat) (e : Engine) : (tget [] (sendSync i t e).net.wire i).length = 44
    ∧ tget 0 (getInst (sendSync i t e) i).seqs 0 = (tget 0 (getInst e i).seqs 0 + 1) % 2 ^ 16 ∧ (sendSync i t e).regs = e.regs
    ∧ (getInst (sendSync i t e) i).follow.length = (getInst e i).follow.length + (bit (getInst e i).w0 55).toNat := by
  unfold sendSync
  extract_lets p u stamp iv
  have hbody : ∀ ns, 34 + (ptpStamp ns).length = 44 := fun ns => by rw [length_ptpStamp]
  cases bit p.w0 55 with
  | true =>
    obtain ⟨hwire, hseq, hregs, hfollow⟩ := sendPtp_sends i u 0 0x200 iv (ptpStamp 0) e
    simp only [if_true, oweFollow_net, oweFollow_regs, getInst_oweFollow]
    refine ⟨hwire.trans (hbody _), hseq, hregs, ?_⟩
    rw [hfollow, List.length_append]
    rfl
  | false =>
    obtain ⟨hwire, hseq, hregs, hfollow⟩ := sendPtp_sends i u 0 0 iv stamp e
    simp only [Bool.false_eq_true, if_false]
    exact ⟨hwire.trans (hbody _), hseq, hregs, congrArg List.length hfollow⟩

/-- A two-step Pdelay_Resp owes its follow-up (R359). -/
theorem sendPdelayResp_sends (i seq id t : Nat) (e : Engine) : (tget [] (sendPdelayResp i seq id t e).net.wire i).length = 54
    ∧ (sendPdelayResp i seq id t e).regs = e.regs
    ∧ (getInst (sendPdelayResp i seq id t e) i).follow.length = (getInst e i).follow.length + (bit (getInst e i).w0 55).toNat := by
  unfold sendPdelayResp
  extract_lets p u v
  cases bit p.w0 55 with
  | true =>
    simp only [if_true, oweFollow_net, oweFollow_regs, getInst_oweFollow, tget_wire_putWire, putWire_regs, getInst_putWire, length_ptpMsg,
      List.length_append, length_ptpStamp, length_beBytes, List.length_singleton]
    exact ⟨trivial, trivial, rfl⟩
  | false =>
    simp only [Bool.false_eq_true, if_false, tget_wire_putWire, putWire_regs, getInst_putWire, length_ptpMsg, List.length_append,
      length_ptpStamp, length_beBytes]
    exact ⟨trivial, rfl, rfl⟩

/-! ### A PTP port that does not send -/

theorem effPtpMessageTransmit_of_muted (h : e.pair.muted = true) (kind : Nat) : effPtpMessageTransmit i kind t e = e := by
  unfold effPtpMessageTransmit
  exact if_pos (by simp [h])

theorem effDelayReqReceived_of_muted (h : e.pair.muted = true) (peer : Bool) (seq id : Nat) : effDelayReqReceived i peer seq id t e = e := by
  rw [effDelayReqReceived, if_pos (by simp [h])]

theorem actsMaster_of_state (h : ptpState e i ≠ 6) : actsMaster e i = false := by simp [actsMaster, h]

/-- Only a grandmaster sends Sync and Announce, and answers a Delay_Req (R358). -/
theorem effPtpMessageTransmit_of_not_master (h : actsMaster e i = false) :
    effPtpMessageTransmit i 0 t e = e ∧ effPtpMessageTransmit i 1 t e = e := by
  simp only [effPtpMessageTransmit, h, Bool.false_and, Bool.false_eq_true, if_false, ite_self, and_self]

theorem effDelayReqReceived_of_not_answering {seq id : Nat}
    (h : actsMaster e i = false ∨ instP2p (getInst e i) = true ∨ mayAnswer e i id t = false) :
    effDelayReqReceived i false seq id t e = e := by
  have hnot : ¬ (actsMaster e i = true ∧ (!instP2p (getInst e i)) = true ∧ mayAnswer e i id t = true) := by
    rintro ⟨hact, hp2p, hmay⟩
    rcases h with h | h | h
    · exact Bool.false_ne_true (h.symm.trans hact)
    · rw [h] at hp2p
      exact Bool.false_ne_true hp2p
    · exact Bool.false_ne_true (h.symm.trans hmay)
  simp only [effDelayReqReceived, if_neg hnot, Bool.false_eq_true, if_false, ite_self]

theorem effPtpMessageTransmit_announce_waits (hmay : generalMay e i t (List.replicate 64 0) = false) :
    effPtpMessageTransmit i 1 t e = e := by
  simp only [effPtpMessageTransmit, hmay, Bool.and_false, Bool.false_eq_true, if_false, ite_self]

theorem effPtpMessageTransmit_delay_idle (hp2p : instP2p (getInst e i) = false) (h8 : ptpState e i ≠ 8) (h9 : ptpState e i ≠ 9) :
    effPtpMessageTransmit i 2 t e = e := by
  simp only [effPtpMessageTransmit, hp2p, h8, h9, or_self, Bool.false_eq_true, if_false, ite_self]

theorem effPtpMessageTransmit_nothing_owed (h : (getInst e i).follow = []) : effPtpMessageTransmit i 3 t e = e := by
  simp only [effPtpMessageTransmit, h, ite_self]

/-! ### A PTP port that sends -/

section
variable (hen : instEn (getInst e i) = true) (hup : supUp e = true) (hmuted : e.pair.muted = false)
include hen hup hmuted

theorem effPtpMessageTransmit_sync : effPtpMessageTransmit i 0 t e = if actsMaster e i then sendSync i t e else e := by
  simp only [effPtpMessageTransmit, hen, hup, hmuted, Bool.not_true, Bool.or_self, Bool.false_eq_true, if_false]

/-- An Announce goes out as a general message of 64 bytes. -/
theorem effPtpMessageTransmit_announce (hact : actsMaster e i = true) (hmay : generalMay e i t (List.replicate 64 0) = true) :
    (tget [] (effPtpMessageTransmit i 1 t e).net.wire i).length = 64
    ∧ tget 0 (getInst (effPtpMessageTransmit i 1 t e) i).seqs 11 = (tget 0 (getInst e i).seqs 11 + 1) % 2 ^ 16
    ∧ (effPtpMessageTransmit i 1 t e).regs = e.regs := by
  simp only [effPtpMessageTransmit, hen, hup, hmuted, hact, hmay, Bool.not_true, Bool.or_self, Bool.and_self, Bool.false_eq_true, if_false,
    if_true]
  refine ⟨(sendPtp_sends ..).1.trans ?_, (sendPtp_sends ..).2.1, (sendPtp_sends ..).2.2.1⟩
  simp only [List.length_append, length_ptpStamp, length_beBytes]

/-- Peer to peer, the PTP port sends Pdelay_Req. -/
theorem effPtpMessageTransmit_pdelay (hp2p : instP2p (getInst e i) = true) :
    (tget [] (effPtpMessageTransmit i 2 t e).net.wire i).length = 54
    ∧ tget 0 (getInst (effPtpMessageTransmit i 2 t e) i).seqs 2 = (tget 0 (getInst e i).seqs 2 + 1) % 2 ^ 16
    ∧ (effPtpMessageTransmit i 2 t e).regs = e.regs := by
  simp only [effPtpMessageTransmit, hen, hup, hmuted, hp2p, Bool.not_true, Bool.or_self, Bool.false_eq_true, if_false, if_true]
  refine ⟨(sendPtp_sends ..).1.trans ?_, (sendPtp_sends ..).2.1, (sendPtp_sends ..).2.2.1⟩
  simp only [List.length_append, length_ptpStamp, length_beBytes]

/-- End to end, the PTP port sends Delay_Req while it follows a master. -/
theorem effPtpMessageTransmit_delay (hp2p : instP2p (getInst e i) = false) (hst : ptpState e i = 8 ∨ ptpState e i = 9) :
    (tget [] (effPtpMessageTransmit i 2 t e).net.wire i).length = 44
    ∧ tget 0 (getInst (effPtpMessageTransmit i 2 t e) i).seqs 1 = (tget 0 (getInst e i).seqs 1 + 1) % 2 ^ 16
    ∧ (effPtpMessageTransmit i 2 t e).regs = e.regs := by
  simp only [effPtpMessageTransmit, hen, hup, hmuted, hp2p, hst, Bool.not_true, Bool.or_self, Bool.false_eq_true, if_false, if_true]
  refine ⟨(sendPtp_sends ..).1.trans ?_, (sendPtp_sends ..).2.1, (sendPtp_sends ..).2.2.1⟩
  rw [length_ptpStamp]

theorem effPtpMessageTransmit_follow {m : List Byte} {ms : List (List Byte)} (hf : (getInst e i).follow = m :: ms) :
    effPtpMessageTransmit i 3 t e
      = if generalMay e i t m then putWire i t m (setInst i { getInst e i with follow := ms } e) else e := by
  simp only [effPtpMessageTransmit, hen, hup, hmuted, hf, Bool.not_true, Bool.or_self, Bool.false_eq_true, if_false]

theorem effDelayReqReceived_peer (seq id : Nat) :
    effDelayReqReceived i true seq id t e = if instP2p (getInst e i) then sendPdelayResp i seq id t e else e := by
  simp only [effDelayReqReceived, hen, hup, hmuted, Bool.not_true, Bool.or_self, Bool.false_eq_true, if_false, if_true]

/-- A Delay_Resp goes out as a general message of 54 bytes, or is owed. -/
theorem effDelayReqReceived_answers {seq id : Nat} (hact : actsMaster e i = true) (hp2p : instP2p (getInst e i) = false)
    (hmay : mayAnswer e i id t = true) : (effDelayReqReceived i false seq id t e).regs = e.regs
    ∧ if generalMay e i t (List.replicate 54 0) = true then
        (tget [] (effDelayReqReceived i false seq id t e).net.wire i).length = 54
          ∧ (getInst (effDelayReqReceived i false seq id t e) i).follow = (getInst e i).follow
      else (effDelayReqReceived i false seq id t e).net = e.net
        ∧ (getInst (effDelayReqReceived i false seq id t e) i).follow.length = (getInst e i).follow.length + 1 := by
  obtain ⟨v, hcount, hw0, hw1, hfollow⟩ := countAnswer_eq i id t e
  simp only [effDelayReqReceived, hen, hup, hmuted, hact, hp2p, hmay, hcount, Bool.not_true, Bool.not_false, Bool.or_self, Bool.false_eq_true,
    if_false, and_self, if_true]
  generalize hm : ptpMsg (setInst i v e) i 9 seq 0 0 _ _ = m
  have hlen : m.length = 54 := by rw [← hm, length_ptpMsg, List.length_append, length_ptpStamp, length_beBytes]
  rw [generalMay_setInst hw0 hw1 (hlen.trans (List.length_replicate (a := (0 : Byte))).symm)]
  cases generalMay e i t (List.replicate 54 0) with
  | true =>
    simp only [if_true, putWire_regs, setInst_regs, tget_wire_putWire, getInst_putWire, getInst_setInst_self]
    exact ⟨trivial, hlen, hfollow⟩
  | false =>
    simp only [Bool.false_eq_true, if_false, oweFollow_regs, setInst_regs, oweFollow_net, setInst_net, getInst_oweFollow,
      getInst_setInst_self, hfollow, List.length_append]
    exact ⟨trivial, trivial, rfl⟩

end

end
end Sys2Proof.Machine
end

section
/-! PROOFS. The commands of network time: each completes with its effect. -/
namespace Sys2Proof.Machine

section
variable {s : State} {i t : Nat} {Q : Engine → Prop} (hi : i < 2) (hl : s.e.held = 0)
include hi hl

theorem completes_announceReceived {a : Announce} (h : Q (effAnnounceReceived i a s.e)) : completes (.announceReceived i a) s Q :=
  completes_of_live (exec_announceReceived ..) (by rwa [Instr.wf_announceReceived, decide_eq_true_iff]) hl h

theorem completes_announceReceiptTimeout (h : Q (effAnnounceReceiptTimeout i s.e)) : completes (.announceReceiptTimeout i) s Q :=
  completes_of_live (exec_announceReceiptTimeout ..) (by rwa [Instr.wf_announceReceiptTimeout, decide_eq_true_iff]) hl h

theorem completes_syncReceived {o : Int} {l : Bool} (h : Q (effSyncReceived i o l s.e)) : completes (.syncReceived i o l) s Q :=
  completes_of_live (exec_syncReceived ..) (by rwa [Instr.wf_syncReceived, decide_eq_true_iff]) hl h

theorem completes_ptpMessageTransmit {kind : Nat} (h : Q (effPtpMessageTransmit i kind t s.e)) :
    completes (.ptpMessageTransmit i kind t) s Q :=
  completes_of_live (exec_ptpMessageTransmit ..) (by rwa [Instr.wf_ptpMessageTransmit, decide_eq_true_iff]) hl h

theorem completes_delayReqReceived {peer : Bool} {seq id : Nat} (h : Q (effDelayReqReceived i peer seq id t s.e)) :
    completes (.delayReqReceived i peer seq id t) s Q :=
  completes_of_live (exec_delayReqReceived ..) (by rwa [Instr.wf_delayReqReceived, decide_eq_true_iff]) hl h

end

section
variable {s : State} {n t : Nat} {Q : Engine → Prop} (hn : n < 4) (hl : s.e.held = 0)
include hn hl

theorem completes_captureEdge (h : Q (effCaptureEdge n t s.e)) : completes (.captureEdge n t) s Q :=
  completes_of_live (exec_captureEdge ..) (by rwa [Instr.wf_captureEdge, decide_eq_true_iff]) hl h

theorem completes_pulseFire (h : Q (effPulseFire n t s.e)) : completes (.pulseFire n t) s Q :=
  completes_of_live (exec_pulseFire ..) (by rwa [Instr.wf_pulseFire, decide_eq_true_iff]) hl h

end

end Sys2Proof.Machine
end

section
open Sys2Proof Sys2Proof.Machine

/-- Settles O49, from the effects of Announce and Sync, of a step, of the messages sent, and of captures and pulses. -/
theorem timeIsKept : Obligations.TimeIsKept := by
  unfold Obligations.TimeIsKept
  refine ⟨fun s i a hi hl => ⟨fun hoff => ?_, fun hdown => ?_, fun hen hup => ?_, fun hen hup hslave => ?_⟩,
    fun s i o l hi hl => ⟨fun hidle => ?_, fun hup hen hm hst => ?_⟩, fun s t hl => ⟨fun hidle => ?_, fun o ho hup hpos => ?_⟩,
    fun s hl => ?_, fun s i t q d peer hi hl hen hup => ?_, fun s n t hn hl => ⟨fun hoff => ?_, fun hon h4 hmax => ?_⟩,
    fun s n t hn hl => ⟨fun hnone => ?_, fun p hp => ⟨fun hearly => ?_, fun hdue hsingle => ?_, fun hdue htrain => ?_⟩⟩⟩
  · exact ⟨completes_announceReceived hi hl (effAnnounceReceived_of_idle (.inl hoff)),
      completes_announceReceiptTimeout hi hl (effAnnounceReceiptTimeout_of_idle (.inl hoff)),
      fun o l => completes_syncReceived hi hl (effSyncReceived_of_idle (.inl hoff))⟩
  · exact ⟨completes_announceReceived hi hl (effAnnounceReceived_of_idle (.inr hdown)),
      completes_announceReceiptTimeout hi hl (effAnnounceReceiptTimeout_of_idle (.inr (.inl hdown)))⟩
  · exact ⟨fun hworse => completes_announceReceived hi hl (effAnnounceReceived_of_worse hworse),
      fun hbetter => completes_announceReceived hi hl (effAnnounceReceived_takes hen hup hbetter),
      fun hnone => completes_announceReceiptTimeout hi hl (effAnnounceReceiptTimeout_of_idle (.inr (.inr hnone))),
      fun hm => completes_announceReceiptTimeout hi hl (effAnnounceReceiptTimeout_leaves hen hup hm)⟩
  · refine ⟨fun hnone hlist => completes_announceReceived hi hl ?_, fun hm => completes_announceReceiptTimeout hi hl ?_⟩
    · obtain ⟨htaken, hw0, hstate⟩ := effAnnounceReceived_takes (a := a) hen hup (fun m hm => absurd (hnone.symm.trans hm) (by simp))
      exact ⟨htaken, hw0, by rw [hstate, hslave, hlist]; rfl⟩
    · obtain ⟨hleft, hstate⟩ := effAnnounceReceiptTimeout_leaves hen hup hm
      exact ⟨hleft, by rw [hstate, hslave]; rfl⟩
  · exact completes_syncReceived hi hl (effSyncReceived_of_idle (.inr hidle))
  · have hfollows : Follows s.e i := ⟨hen, hup, hm, hst⟩
    exact ⟨completes_syncReceived hi hl (effSyncReceived_shows hfollows),
      fun h9 hs => ⟨fun htk => completes_syncReceived hi hl (effSyncReceived_of_other hfollows h9 hs htk),
        fun htk => completes_syncReceived hi hl (effSyncReceived_of_timekeeper hfollows h9 hs htk)⟩⟩
  · exact completes_of_live (exec_timeStep ..) rfl hl (effTimeStep_of_idle hidle)
  · exact completes_of_live (exec_timeStep ..) rfl hl (effTimeStep_steps ho hup hpos)
  · exact completes_of_live (exec_receiveGraceEnd ..) rfl hl rfl
  · refine ⟨fun hmuted kind => ?_, fun h6 => ?_, fun hmuted hp2p => ?_, fun hmuted he2e => ?_, fun hmuted hact => ?_, fun hnone => ?_,
      fun m ms hmuted hf => ?_⟩
    · exact ⟨completes_ptpMessageTransmit hi hl (effPtpMessageTransmit_of_muted hmuted _),
        completes_delayReqReceived hi hl (effDelayReqReceived_of_muted hmuted ..)⟩
    · obtain ⟨hsync, hannounce⟩ := effPtpMessageTransmit_of_not_master (t := t) (actsMaster_of_state h6)
      exact ⟨completes_ptpMessageTransmit hi hl hsync, completes_ptpMessageTransmit hi hl hannounce,
        completes_delayReqReceived hi hl (effDelayReqReceived_of_not_answering (.inl (actsMaster_of_state h6)))⟩
    · refine ⟨completes_ptpMessageTransmit hi hl (effPtpMessageTransmit_pdelay hen hup hmuted hp2p), completes_delayReqReceived hi hl ?_⟩
      rw [effDelayReqReceived_peer hen hup hmuted, if_pos hp2p]
      exact sendPdelayResp_sends ..
    · refine ⟨fun hst => completes_ptpMessageTransmit hi hl (effPtpMessageTransmit_delay hen hup hmuted he2e hst),
        fun h8 h9 => completes_ptpMessageTransmit hi hl (effPtpMessageTransmit_delay_idle he2e h8 h9), completes_delayReqReceived hi hl ?_⟩
      rw [effDelayReqReceived_peer hen hup hmuted, he2e]
      rfl
    · refine ⟨completes_ptpMessageTransmit hi hl ?_,
        fun hmay => completes_ptpMessageTransmit hi hl (effPtpMessageTransmit_announce hen hup hmuted hact hmay),
        fun hmay => completes_ptpMessageTransmit hi hl (effPtpMessageTransmit_announce_waits hmay),
        fun hno => completes_delayReqReceived hi hl (effDelayReqReceived_of_not_answering (.inr hno)),
        fun he2e hmay => completes_delayReqReceived hi hl (effDelayReqReceived_answers hen hup hmuted hact he2e hmay)⟩
      rw [effPtpMessageTransmit_sync hen hup hmuted, if_pos hact]
      exact sendSync_sends ..
    · exact completes_ptpMessageTransmit hi hl (effPtpMessageTransmit_nothing_owed hnone)
    · have hsend := effPtpMessageTransmit_follow (t := t) hen hup hmuted hf
      refine ⟨fun hmay => completes_ptpMessageTransmit hi hl (hsend.trans (by rw [hmay]; rfl)),
        fun hmay => completes_ptpMessageTransmit hi hl ?_⟩
      rw [hsend, if_pos hmay, tget_wire_putWire, getInst_putWire, getInst_setInst_self, putWire_regs]
      exact ⟨rfl, rfl, rfl⟩
  · exact completes_captureEdge hn hl (effCaptureEdge_of_off hoff)
  · exact completes_captureEdge hn hl (effCaptureEdge_captures hon h4 hmax)
  · exact completes_pulseFire hn hl (effPulseFire_of_idle hnone)
  · exact completes_pulseFire hn hl (effPulseFire_of_early hp hearly)
  · refine completes_pulseFire hn hl ?_
    have hdone : afterPulse p = none := if_pos hsingle
    rw [effPulseFire_of_due hp hdue, tget_pulses_firePulse, bitF_act_firePulse hn, hdone]
    exact ⟨rfl, rfl, fun hpin => tget_fired_firePulse hpin p⟩
  · refine completes_pulseFire hn hl ?_
    rw [effPulseFire_of_due hp hdue, tget_pulses_firePulse, afterPulse, if_neg htrain]

end
